-- ==== Sys2Proof/Word.lean ====
section
/-!
DEFINITION. The word types of the VX9: a register is 32 bits, the tick number and most addresses are at most 64 bits,
and memory is addressed in bytes.
-/

namespace Sys2Proof

/-- A register word (R525). -/
abbrev Word := BitVec 32

/-- One byte. -/
abbrev Byte := BitVec 8

/-- The tick number (R13). -/
abbrev Tick := BitVec 64

end Sys2Proof
end

