-- ==== Sys2Proof/Config.lean ====
section
/-!
DEFINITION. What an ordering code fixes for good (Table 20-12), and the values the spec leaves open: each is an opaque
constant, so that a statement holds whatever it is.
-/

namespace Sys2Proof

/-- The four ordering codes (Table 20-8, CODE). -/
inductive Code where
  | fq | fd | sd | tn
  deriving DecidableEq, Repr

/-- One part: its ordering code and stepping (R526, "Part"). -/
structure Part where
  code : Code
  step : BitVec 4
  metal : BitVec 4
  deriving DecidableEq, Repr

/-- Unknown word number `n`: what the device holds or answers where the spec states no value. DESIGN CHOICE, safe (assumption 7). -/
opaque Config.freeWord : Nat → BitVec 64

/-- Byte `a` of an engine's local memory, in its `n`th undefined content (R406). -/
opaque Config.lmByte : Nat → Nat → Nat → Byte

/-- The set of the large translation cache that an entry of a context, level and input prefix occupies: the hash is not
documented (R330). DESIGN CHOICE, safe (assumption 78). -/
opaque Config.xltSet : Nat → Nat → Nat → Nat

/-- Word `i` of the role record that holds these terms and managers by level: its layout is not given (Table 18-8). -/
opaque Config.roleWord : List (Nat × Nat × Nat) → Nat → Word

/-- Word `i` of the certificate chain in the record area, with the digest written last (R498, Table 18-8). -/
opaque Config.chainWord : Nat → Word

/-- The PCI Vendor ID of the management functions, which MCTP messages carry (R427). DESIGN CHOICE, safe (assumption 103). -/
opaque Config.vendorId : BitVec 16

/-- CODE of `GLB_ID`. -/
def Part.codeNum (p : Part) : Nat :=
  match p.code with
  | .fq => 0 | .fd => 1 | .sd => 2 | .tn => 3

/-- Table 20-12, MBR and XAC. -/
def Part.hasMbr (p : Part) : Bool :=
  match p.code with
  | .fq | .fd => true
  | .sd | .tn => false

/-- Table 20-12, XAC. -/
def Part.hasXac (p : Part) : Bool := p.hasMbr

/-- Table 20-12, HBM: one bit for each stack. -/
def Part.hbmMask (p : Part) : Nat :=
  match p.code with
  | .fq => 15 | .fd => 3 | .sd => 3 | .tn => 0

/-- Whether any HBM stack is present. -/
def Part.hasHbm (p : Part) : Bool := p.hbmMask != 0

/-- Table 20-12, HL_DIES: one bit for each host-lane die. -/
def Part.hlDies (p : Part) : Nat :=
  match p.code with
  | .fq | .fd => 3
  | .sd => 1
  | .tn => 0

/-- Table 20-12, HOST_PORTS. -/
def Part.hostPorts (p : Part) : Nat :=
  match p.code with
  | .fq | .fd => 48
  | .sd => 24
  | .tn => 0

/-- Table 20-12, HIERS. -/
def Part.hiers (p : Part) : Nat :=
  match p.code with
  | .tn => 0
  | _ => 24

/-- Table 20-12, VFS. -/
def Part.vfs (p : Part) : Nat :=
  match p.code with
  | .tn => 0
  | _ => 4096

/-- Table 20-12, HBM_GB. -/
def Part.hbmGb (p : Part) : Nat :=
  match p.code with
  | .tn => 0
  | _ => 24

/-- Table 20-12, SPILL and TUNNEL. -/
def Part.hasSpill (p : Part) : Bool :=
  match p.code with
  | .tn => false
  | _ => true

/-- `GLB_ID` (Table 20-8). -/
def Part.glbId (p : Part) : Word :=
  0x5C09#16 ++ p.step ++ p.metal ++ BitVec.ofNat 8 p.codeNum

/-- `GLB_CAPS0` (Tables 20-9 and 20-12). -/
def Part.glbCaps0 (p : Part) : Word :=
  BitVec.ofBool p.hasMbr ++ 1#1 ++ BitVec.ofBool p.hasXac ++ 0#1 ++ BitVec.ofNat 4 p.hbmMask ++
    BitVec.ofNat 2 p.hlDies ++ 0#6 ++ 128#8 ++ BitVec.ofNat 8 p.hostPorts

/-- `GLB_CAPS1` (Tables 20-10 and 20-12). -/
def Part.glbCaps1 (p : Part) : Word :=
  BitVec.ofNat 5 p.hiers ++ BitVec.ofNat 13 p.vfs ++ BitVec.ofNat 6 p.hbmGb ++ 6#4 ++
    BitVec.ofBool p.hasSpill ++ BitVec.ofBool p.hasSpill ++ 0#2

/-- Internal inputs present (R125). -/
def Part.internalPorts (p : Part) : Nat :=
  match p.code with
  | .fq | .fd => 32
  | .sd => 24
  | .tn => 16

/-- Whether internal port `q` is present (R117). -/
def Part.hasPort (p : Part) (q : Nat) : Bool :=
  match p.code with
  | .fq | .fd => true
  | .sd => decide (q < 136 ∨ 144 ≤ q)
  | .tn => decide (q < 128 ∨ 144 ≤ q)

/-- The pool's reset size in cells (R125). -/
def Part.poolReset (p : Part) : Nat := 786432 - 4096 - 2048 * p.internalPorts

/-- Default `PWR_COST[k]` (Table 14-2). -/
def Part.costReset (k : Nat) : Word :=
  match k with
  | 0 => 160#32 | 1 => 96#32 | 2 => 2048#32 | 3 => 12#32 | 4 => 24#32 | 5 => 16#32 | 6 => 21#32 | 7 => 13#32
  | _ => 0#32

end Sys2Proof
end

