-- ==== Sys2Proof/Syntax.lean ====
section
/-!
DEFINITION. The commands of the block, one constructor for each row of the opcode table, and the data they carry: what
arrives at the device from outside with the command (an access, a frame, a packet, read data, a measured value).
-/

namespace Sys2Proof

/-- Who issues a register access, and by which path (Table 20-3). -/
inductive Src where
  /-- The management physical function of hierarchy `h`. -/
  | pf (h : Fin 24)
  /-- VX9 virtual function `v`. -/
  | vf (v : Fin 4096)
  /-- Debug channel 4,176 + `i`. -/
  | debug (i : Fin 16)
  /-- Firmware, and REG_READ and REG_WRITE through it. -/
  | fw
  deriving DecidableEq, Repr

/-- A fabric port. -/
abbrev Port := Fin 128

/-- A host hierarchy. -/
abbrev Hier := Fin 24

/-- A hedgerow. -/
abbrev Hedge := Fin 64

/-- A mailbox channel (Table 15-1). -/
abbrev Chan := Fin 4224

/-- The outcome of a memory read or write that the device waited for (R394, R255). -/
inductive MemRes where
  /-- The access completed. -/
  | ok
  /-- The data is poisoned, or an uncorrectable error was found. -/
  | poison
  /-- Unsupported Request. -/
  | ur
  /-- Completer Abort. -/
  | ca
  /-- Completion timeout. -/
  | timeout
  deriving DecidableEq, Repr

/-- An image header (Table 18-4) with what the check of its keys, signatures and body found (Table 18-5). The digests
and ML-DSA-87 verifications are facts about the image that arrive with it. -/
structure Image where
  readOk : Bool
  magicOk : Bool
  format : Byte
  kind : Byte
  svn : Byte
  flags : Byte
  version : Word
  length : Word
  cpWrite : BitVec 16
  cpReadMin : BitVec 16
  keyUnnasOk : Bool
  sigUnnasOk : Bool
  custPk : List Byte
  sigCustOk : Bool
  digestOk : Bool
  deriving DecidableEq, Repr

/-- What a handler package declares (R412): its header, package ID and version, the number of its handlers, the dispatch cost of
each class, the smallest number of hedgerows it must have, whether it declares engine-internal queues (R10), and the first byte and
length of the local memory it declares retained (R406). -/
structure Pkg where
  image : Image
  id : BitVec 16
  version : BitVec 16
  handlers : Byte
  costs : List (BitVec 16)
  minHr : Nat
  queues : Bool
  retain : Nat × Nat
  deriving DecidableEq, Repr

/-- A package that firmware loads and enables while it boots (R492): its slot, the package, its hedgerow mask, and the
engine-internal queues and the ENGINE context that firmware gives it. -/
structure BootPkg where
  slot : Fin 6
  pkg : Pkg
  hrs : BitVec 64
  queues : List (BitVec 16)
  ctx : BitVec 16
  deriving DecidableEq, Repr

/-- What a handler does outside its local memory: in the translation context of its package an instruction fetch, a read or a
write (R407); and the operations on a hardware lock (R441). -/
inductive EngAcc where
  | fetch (va : BitVec 57)
  | read (va : BitVec 57) (len : BitVec 16)
  | write (va : BitVec 57) (bytes : List Byte)
  | acquire (l : Fin 4096) (prio : Fin 8)
  | release (l : Fin 4096)
  deriving DecidableEq, Repr

/-- How the handler of a dispatch has ended: its status, its stores in local memory, and its accesses in their order (R405, R406). -/
structure HandlerEnd where
  status : Byte
  stores : List (BitVec 16 × Byte)
  accs : List EngAcc
  deriving DecidableEq, Repr

/-- The units that firmware sets aside for a package that it enables: its engine-internal queues and its ENGINE context (R407). -/
structure PkgUnits where
  queues : List (BitVec 16)
  ctx : BitVec 16
  deriving DecidableEq, Repr

/-- What memory does for a received request: the words that host memory supplies to the atomics that commit, and whether memory
refuses the packet's access (R255). -/
structure MemFeed where
  words : List (BitVec 64)
  refused : Bool
  deriving DecidableEq, Repr

/-- A data lane and the code of its phase interpolator (R67). -/
structure LanePi where
  lane : Fin 4
  code : Byte
  deriving DecidableEq, Repr

/-- A rail (R518) and for how many ticks it has been out of range. -/
structure RailLoss where
  rail : Fin 8
  ticks : Nat
  deriving DecidableEq, Repr

/-- An image that boot has read, and the packages that firmware loads where it leads to the end of boot (R492). -/
structure BootLoad where
  image : Image
  pkgs : List BootPkg
  deriving DecidableEq, Repr

/-- Whether all memory has trained, and the packages that firmware loads where this ends the boot (R492). -/
structure Training where
  ok : Bool
  pkgs : List BootPkg
  deriving DecidableEq, Repr

/-- How a POOL_UNEXPORT goes on: the command itself, the manager's word that no directory names the range any more, and the end
of the wait of R262. -/
inductive Unexport where
  | request
  | unused
  | settled
  deriving DecidableEq, Repr

/-- What firmware found and chose for an expander (R347): its size in GiB, the protection entry and the translation context. -/
structure Expander where
  gib : BitVec 24
  entry : BitVec 17
  ctx : BitVec 16
  deriving DecidableEq, Repr

/-- An SPDM request of R498; `other` is any that the device does not support. -/
inductive SpdmReq where
  | getVersion
  | getCapabilities
  | negotiateAlgorithms
  | getDigests
  | getCertificate (slot : Fin 8)
  | challenge
  | getMeasurements (blocks : List (Fin 13))
  | other
  deriving DecidableEq, Repr

/-- What is measured at a tick edge: supplies and temperatures (R36), module presence (R53), figures of merit (R51) and the
power measured outside the kinds of Table 14-2 (R416); and the work that units leave over (R30). DESIGN CHOICE, unsafe
(assumption 4). -/
structure EdgeIn where
  /-- The tick work that waits on memory and does not finish in this tick (R30, R31): unit of Table 01-3 and item. An item is a
  class queue for units 2 and 3, 12 × port + virtual channel for unit 4, a hedgerow or 64 + kind for unit 5, and a connection
  for unit 7; unit 0 has one digest. -/
  late : List (Fin 10 × Nat)
  /-- Hedgerow supplies in mV. -/
  volts : List (Hedge × Nat)
  /-- Hedgerow junction temperatures in °C. -/
  hrTemp : List (Hedge × Nat)
  /-- Die junction temperatures in °C. -/
  dieTemp : List (Fin 11 × Nat)
  /-- Ports whose `MODPRS_N` is low; every other port's is high. -/
  modLow : List Port
  /-- Figures of merit of received lanes. -/
  fom : List (Port × Fin 4 × Byte)
  /-- Errors that the checkers of ports in TEST counted since the last edge. -/
  prbs : List (Port × Fin 4 × Nat)
  /-- The energy of the device in the tick that ended, in units (R416). -/
  energy : Nat
  /-- The dispatches' demand reported at the edge, in units (R418). -/
  dispatches : Nat
  /-- The step of Table 16-3 that a restart has reached. -/
  ccStep : Fin 6
  deriving DecidableEq, Repr

/-- A fabric packet (R112): the header words H0 to H3 as sent, the LEN payload bytes, and the trailer of Table 04-3. -/
structure Pkt where
  h0 : BitVec 64
  h1 : BitVec 64
  h2 : BitVec 64
  h3 : BitVec 64
  data : List Byte
  e2e : BitVec 32
  aux : BitVec 24
  tflags : Byte
  /-- The padding bytes as they came; those not listed are zero. -/
  pad : List Byte := []
  deriving DecidableEq, Repr

/-- What a register write aims at (R527, R530): a word or two of the first BAR, bytes of the bulk window, or the rest of
the fourth BAR. -/
inductive Tgt where
  | reg (off : BitVec 25) (size : Nat) (v : BitVec 64)
  | bulk (off : Fin 1048576) (bytes : List Byte)
  | page (off : Nat) (bytes : List Byte)
  deriving DecidableEq, Repr


/-- What a stage-1 read finds (R54 to R56): whether the reads succeeded, whether the identifier is a CMIS identifier,
whether memory is paged with page 0xB0 present, the module power class, and bytes 128 to 255 of that page. -/
structure ModuleId where
  readOk : Bool
  cmis : Bool
  paged : Bool
  pclass : Nat
  page : List Byte
  deriving DecidableEq, Repr

/-- What stage 3 measures on one physical lane: errors and figure of merit for each of the 16 CTLE settings, none where the
lane got no phase lock, and the phase interpolator code. -/
structure LanePhase where
  trials : List (Nat × Nat)
  code : Byte
  deriving DecidableEq, Repr

/-- What step 3 of a quickset finds on each logical lane: block lock, the lane number read, inversion, and arrival in
UI. -/
structure QsRes where
  lock : List Bool
  order : List Nat
  inverted : List Bool
  skew : List Nat
  deriving DecidableEq, Repr

/-- What a source read was for: packet `k` of operation `id` of a connection, or a block of a collective's local member. -/
inductive SrcOf where
  | op (c : BitVec 24) (id : Nat) (k : Nat)
  | col (g : BitVec 12) (seq : BitVec 16) (ep : Fin 31) (b : Nat)
  deriving DecidableEq, Repr

/-- What loses or regains its bus mastership: a function whose Bus Master Enable changes, or a hierarchy whose host memory is
unreachable or reachable again. -/
inductive Bm where
  | pf (h : Hier)
  | vf (v : Fin 4096)
  | hier (h : Hier)
  deriving DecidableEq, Repr


/-- A VX9 function: a management function or a virtual function. -/
inductive Func where
  | pf (h : Hier)
  | vf (v : Fin 4096)
  deriving DecidableEq, Repr

/-- A port that Downstream Port Containment applies to (R387): a virtual downstream port, or a host-lane port. -/
inductive DpcAt where
  | virt (h : Hier) (v : Fin 32)
  | port (n : Fin 48)
  deriving DecidableEq, Repr

/-- What a configuration request writes that this model holds: the Completion Timeout Value of Device Control 2 (R393), or ACS
P2P Request Redirect of a virtual downstream port (R380). -/
inductive CfgAct where
  | other
  | timeout (v : BitVec 4)
  | redirect (v : Fin 32) (on : Bool)
  deriving DecidableEq, Repr

/-- Where a peer request goes (R380): a BAR of another virtual downstream port, or an offset in the peer BAR. -/
inductive PeerTo where
  | inside (v : Fin 32) (addr : BitVec 64)
  | bar (off : BitVec 40)
  deriving DecidableEq, Repr

/-- The upstream request that timed out (R394). -/
inductive UpReq where
  /-- A ring read. -/
  | ring (q : BitVec 16)
  /-- A context fetch. -/
  | context (n : BitVec 24)
  /-- A table read of a walk. -/
  | table (k : Fin 256)
  /-- A read of local source data. -/
  | source (x : SrcOf)
  /-- The read of a GET_REQ. -/
  | get (n : BitVec 24) (psn : BitVec 24)
  /-- A read of a destination buffer or result vector in a collective. -/
  | result (g : BitVec 12)
  deriving DecidableEq, Repr

/-- How a host-lane link stands. -/
structure HostLink where
  /-- 1 DOWN, 2 TRAINING, 3 UP. -/
  state : Fin 4
  rate : BitVec 4
  width : BitVec 5
  cxl : Bool
  flit : Bool
  reversed : Bool
  deriving DecidableEq, Repr

/-- A peer request: one that has arrived at an internal port, or one that firmware sends to a device. -/
inductive PeerMail where
  | arrive (q : Fin 32)
  | issue (dev : BitVec 17) (seq : BitVec 16) (ws : List Word)
  deriving DecidableEq, Repr

/-- A ROUTED message: one that has arrived on a port, or one that firmware sends along a path of ports, as its request `k`. -/
inductive RoutedMail where
  | arrive (p : Port)
  | issue (k : Fin 32) (fwd : List Port) (seq : BitVec 16) (ws : List Word)
  deriving DecidableEq, Repr

/-- What the BMC sends: the doorbell word and request words, the consumption of a result, or Get Vendor Defined Message
Support. -/
inductive BmcMail where
  | request (ws : List Word)
  | consume (v : Word)
  | vendor
  deriving DecidableEq, Repr

/-- The commands of the block: one constructor for each row of the opcode table, in the table's order. -/
inductive Instr where
  /-- TICK_EDGE (R13): The 1,024-cycle tick count expires. The tick number increments, and the edge actions and tick
  work of Table 01-3 run. -/
  | tickEdge (e : EdgeIn)
  /-- TICK_WORK_OVERRUN (R30): A unit's tick-work allowance expires with work left. The rest is deferred to the next
  tick, TCK_OVR_CNT is incremented and TCK_OVERRUN is raised. -/
  | tickWorkOverrun (u : Fin 10)
  /-- REGION_FLOOR_RELEASE (R37): The supply difference has stayed below 120 mV for 1,024 ticks, so the raised clock
  floor is released. -/
  | regionFloorRelease (h : Hedge)
  /-- FWD_CLOCK_DETECTED (R18): An unlocked device detects a forwarded clock, locks to the lowest-numbered such port
  as its provisional parent and loads the tick number. -/
  | fwdClockDetected (p : Port) (tick : Tick)
  /-- TCK_PARENT_WRITE (R41): A write to TCK_PARENT stores its fields and is taken up as a planned switchover, as
  the entry into ROOT, or by the ISLAND rows. -/
  | tckParentWrite (src : Src) (v : Word)
  /-- PLANNED_SWITCHOVER (R18): A planned switchover to the named parent port completes within 8 ticks. -/
  | plannedSwitchover
  /-- TCK_PARENT_LOSS (R20): The active clock source is lost, 1 tick after its last edge, or is refused; the device
  enters HOLDOVER. -/
  | tckParentLoss (refused : Bool)
  /-- TCK_SWITCHOVER (R20): A named port has a live forwarded clock in HOLDOVER, and the device locks to it as
  PARENT or STANDBY. -/
  | tckSwitchover (p : Port)
  /-- TCK_HOLDOVER_EXPIRED (R21): Holdover has lasted 78,125 ticks, so the device enters ISLAND and takes down the
  ports outside its subtree with reason CLOCK. -/
  | tckHoldoverExpired (subtree : List Port)
  /-- REF_STEER_COMPLETE (R22): The held frequency reaches the reference, and the device becomes ROOT. -/
  | refSteerComplete
  /-- ISLAND_RESTEER (R22): An ISLAND device has steered to a named port that completed bring-up. It leaves ISLAND,
  and its CLOCK ports restart. -/
  | islandResteer (p : Port)
  /-- PATH_DELAY_MEASURE (R24): Every 1,024 ticks, each port measures its one-way delay from the marker round trip. -/
  | pathDelayMeasure (p : Port) (delay : BitVec 24)
  /-- TCK_HOLD_WRITE (R35): Setting HOLD makes later tick-aligned writes accumulate; clearing it applies every
  accumulated write at one boundary. -/
  | tckHoldWrite (src : Src) (v : Word) (late : Bool)
  /-- TCK_HOLD_TIMEOUT (R35): A hold has lasted 65,536 ticks, so the accumulated writes are applied, HOLD is cleared
  and the event is raised. -/
  | tckHoldTimeout (src : Src)
  /-- MODULE_REMOVED (R53): Two consecutive high MODPRS_N samples are seen. The port goes down with ABSENT, the
  cached identity and quickset settings are discarded, and PHY_MODULE_OUT is raised. -/
  | moduleRemoved (p : Port)
  /-- MODULE_INSERTED (R53): 25,000 consecutive low samples are seen. MODRST_N is released and PHY_MODULE_IN is
  raised. -/
  | moduleInserted (p : Port)
  /-- MODULE_READY (R54): The module reaches ModuleReady, and its port may be read in stage 1. -/
  | moduleReady (p : Port)
  /-- MODULE_TIMEOUT (R54): The module is not ready 2 s after reset release and is refused with MODULE_TIMEOUT. -/
  | moduleTimeout (p : Port)
  /-- LANE_POWER_ADMITTED (R59): Topiary admits a lane power-up, and the port leaves WAIT_POWER for BRINGUP or TEST. -/
  | lanePowerAdmitted (p : Port)
  /-- STAGE1_READ_START (R58): The module master serves the waiting port, and its own stage-1 read starts. -/
  | stage1ReadStart (p : Port)
  /-- MODULE_IDENTITY_READ (R56): The stage-1 read completes. The checks of Table 02-6 run, and the identity is
  cached or the bring-up fails. -/
  | moduleIdentityRead (p : Port) (id : ModuleId)
  /-- BRINGUP_STAGE_TIMEOUT (R59): A bring-up stage exceeds its limit; the port goes DOWN with the stage's reason
  and PHY_DOWN is raised. -/
  | bringupStageTimeout (p : Port)
  /-- CLOCK_LANE_LOCK (R60): Stage 2 measures the forwarded clock and locks to it, or fails with FREQ_MISMATCH. -/
  | clockLaneLock (p : Port) (ppb : Nat)
  /-- PHASE_LOCK (R60): Stage 3 completes the phase lock and CTLE choice of each lane, and the width is chosen
  again. -/
  | phaseLock (p : Port) (lanes : List LanePhase)
  /-- POLARITY_DETECT (R60): Stage 4 completes and decides the polarity of each lane. -/
  | polarityDetect (p : Port) (means : List Nat)
  /-- LANE_ORDER_DETECT (R60): Stage 5 completes and finds the lane mapping to be the identity or a reversal. -/
  | laneOrderDetect (p : Port) (order : List Nat)
  /-- BLOCK_LOCK_DESKEW (R60): Stage 6 completes block lock and deskew. -/
  | blockLockDeskew (p : Port) (lock : List Bool) (skew : List Nat)
  /-- PRESET_NEGOTIATION (R60): Stage 7 completes preset negotiation and PRBS31 verification. -/
  | presetNegotiation (p : Port) (errors : List Nat)
  /-- LINK_FRAME_LOCK (R60): Stage 8, or quickset step 5, locks to link frames and measures the path delay; AUTO_TO
  sets the replay timeout. -/
  | linkFrameLock (p : Port) (delay : BitVec 24)
  /-- BACKCHANNEL_WORD (R48): A back-channel word is received; its request is applied at most once and answered with
  a status word. -/
  | backchannelWord (p : Port) (w : BitVec 16)
  /-- TRAINING_CONTROL_BLOCK (R61): A training control block is received. An ACTIVE port that is sent CMD degrade or
  quickset joins QUICKSET. -/
  | trainingControlBlock (p : Port) (w : BitVec 64)
  /-- ADAPTATION_STEP (R50): Every 1,024 ticks, in-service adaptation evaluates the last step of a lane and requests
  the next. -/
  | adaptationStep (p : Port) (l : Fin 4) (tap : Bool) (up : Bool)
  /-- PHY_FOM_LOW (R52): A lane's FOM has stayed below FOM_MIN/2 for 1,024 ticks, and the event is raised once. -/
  | phyFomLow (p : Port) (l : Fin 4)
  /-- TEST_STAGE2_MEASURE (R64): In TEST 1 or 2, the clock offset is measured again every 16 ticks until it is
  within 2 ppm. -/
  | testStage2Measure (p : Port) (ppb : Option Nat)
  /-- AUTO_RESTART (R63): 1,600 ticks after a failed bring-up, a new bring-up begins when AUTO_RESTART permits. -/
  | autoRestart (p : Port)
  /-- DATA_LANE_FAILED (R67): A data lane fails in service, and the port starts a degrade with CMD degrade. -/
  | dataLaneFailed (p : Port) (x : LanePi)
  /-- CLOCK_LANE_LOST (R68): The clock lane is lost, and the port goes DOWN with CLOCK_LOST. -/
  | clockLaneLost (p : Port)
  /-- ALL_BLOCK_LOCK_LOST (R70): Every data lane loses block lock while the clock lane is good, which triggers a
  quickset retrain. -/
  | allBlockLockLost (p : Port)
  /-- QUICKSET_FAIL (R69): A quickset or degrade step exceeds its limit. The port goes DOWN with QUICKSET_FAIL and
  its saved settings are discarded. -/
  | quicksetFail (p : Port)
  /-- PHY_ENABLE (R66): Setting ENABLE moves a DISABLED port to DOWN, or to WAIT_POWER for test mode. -/
  | phyEnable (src : Src) (p : Port)
  /-- PHY_DISABLE (R66): Clearing ENABLE powers off the lanes and moves the port to DISABLED with reason ADMIN. -/
  | phyDisable (src : Src) (p : Port)
  /-- PHY_RETRAIN (R66): A write of RETRAIN takes the port DOWN with reason ADMIN and restarts bring-up. -/
  | phyRetrain (src : Src) (p : Port)
  /-- PHY_QUICKSET (R70): A write of QUICKSET starts a quickset retrain of an ACTIVE port. -/
  | phyQuickset (src : Src) (p : Port)
  /-- PHY_FORGET (R70): A write of FORGET discards the saved quickset settings. -/
  | phyForget (src : Src) (p : Port)
  /-- LINK_FRAME_SEND (R76): The port forms and sends the next sequenced, replayed, fill or init frame. -/
  | linkFrameSend (p : Port) (edge : Option (Fin 34))
  /-- LINK_FRAME_RECEIVED (R85): A frame is received whole. It is decoded, classified as accepted, out of sequence
  or duplicate, and its ack and credits are applied. -/
  | linkFrameReceived (p : Port) (lanes : List (List (BitVec 2))) (cyc : Fin 1025) (frac : Fin 125)
  /-- REPLAY_TIMEOUT (R87): The replay timer exceeds TIMEOUT, and a go-back-N replay starts from the oldest stored
  frame. -/
  | replayTimeout (p : Port) (ns : Nat)
  /-- SPILL_FETCH_DONE (R93): A spilled replay frame is read back from HBM; an uncorrectable error increments the
  epoch and forces a full retrain. -/
  | spillFetchDone (p : Port) (ok : Bool)
  /-- INIT_FRAME_RECEIVED (R101): An init frame is received. Its record is checked, and on completion the link
  becomes ACTIVE with the state of Table 03-6. -/
  | initFrameReceived (p : Port) (lanes : List (List (BitVec 2))) (cyc : Fin 1025) (frac : Fin 125)
  /-- AUDIT_WINDOW_END (R537): A credit-audit window ends at a multiple of 1,024 ticks, and the DEFICIT estimate is
  written. -/
  | auditWindowEnd (p : Port)
  /-- LNK_FLUSH (R109): A write of FLUSH in DOWN discards the stored frames and held packets and increments the own
  epoch. -/
  | lnkFlush (src : Src) (p : Port)
  /-- PACKET_HEADER_ACCEPT (R118): The first cell of a packet arrives and the acceptance checks of Table 04-5 run. -/
  | packetHeaderAccept (p : Port)
  /-- PACKET_ACCEPTED (R118): The last cell of a packet arrives. The packet is enqueued, or it is discarded by a
  content check. -/
  | packetAccepted (p : Port) (cyc : Fin 1025)
  /-- INTERNAL_PACKET_INJECT (R124): An internal source injects a packet once a permitted buffer part has room. -/
  | internalPacketInject (q : Fin 32) (cyc : Fin 1025)
  /-- CELL_TIME_MATCH (R128): A cell time elapses, and the three request-grant-accept iterations run. -/
  | cellTimeMatch (cyc : Fin 1025)
  /-- SCH_OBS_CLEAR (R137): A tick-aligned CLEAR resets every queue statistic at the applying edge. -/
  | schObsClear (src : Src) (late : Bool)
  /-- RTE_PORT_IN (R150): A removed port has been ACTIVE for HOLDDOWN ticks and re-enters the candidate sets. -/
  | rtePortIn (p : Port)
  /-- DIGEST_RECEIVED (R154): A digest is consumed and kept for installation at the next edge. -/
  | digestReceived (p : Port)
  /-- RTE_TBL_COMMIT (R164): A write of COMMIT names the version and activation tick of the staged bank. -/
  | rteTblCommit (src : Src) (version : BitVec 16)
  /-- RTE_TBL_ABORT (R165): A write of ABORT cancels the pending commit. -/
  | rteTblAbort (src : Src)
  /-- RTE_TBL_SWAP (R164): The activation tick is reached and the route banks swap atomically. -/
  | rteTblSwap
  /-- STAGED_BANK_COPY_DONE (R164): The copy of the active bank into the staged bank finishes, and COPYING clears. -/
  | stagedBankCopyDone
  /-- MANAGER_MESSAGE (R161): A heartbeat, table load or commit is received and is accepted or refused by term. -/
  | managerMessage (q : Fin 32)
  /-- HEARTBEAT_SEND (R162): Every 15,625 ticks, an active manager sends heartbeats. -/
  | heartbeatSend (devs : List (BitVec 17))
  /-- RTE_TAKEOVER (R162): A standby has missed 20 heartbeats; it raises the term and takes over. -/
  | rteTakeover
  /-- ROUTED (R439): A ROUTED message is consumed and forwarded, or taken as a peer request or result. -/
  | routed (m : RoutedMail)
  /-- OPEN (R536): An OPEN is received; it is answered again as a repeat, or accepted or refused through listen
  entries. -/
  | openReq (q : Fin 32)
  /-- OPEN_ACK (R536): An OPEN_ACK is received and makes an OPENING context READY, or is discarded and answered with
  a CLOSE. -/
  | openAck (q : Fin 32)
  /-- OPEN_NAK (R172): An OPEN_NAK returns the context to FREE with the refusal code. -/
  | openNak (q : Fin 32)
  /-- OPEN_RESEND (R172): An OPEN is resent every 1,562 ticks; after 8 unanswered OPENs the context goes FREE with
  BUSY. -/
  | openResend (n : BitVec 24)
  /-- CLOSE (R172): A CLOSE from the peer frees the context and is answered with CLOSE_ACK. -/
  | closeReq (q : Fin 32)
  /-- CLOSE_ACK (R172): A CLOSE_ACK moves a CLOSING context to FREE. -/
  | closeAck (q : Fin 32)
  /-- CLOSE_RESEND (R172): A CLOSE is resent every 1,562 ticks; after 8 unanswered CLOSEs the context goes FREE. -/
  | closeResend (n : BitVec 24)
  /-- SCT_DATA_RECEIVED (R179): An SCT_DATA packet passes the receive checks and PSN classification; PUT data is
  placed. -/
  | sctDataReceived (q : Fin 32) (feed : MemFeed)
  /-- ACK_DELAY_EXPIRED (R186): Committed PSNs have waited ACK_DELAY without an ack, so one is sent. -/
  | ackDelayExpired (n : BitVec 24) (ns : Nat)
  /-- GET_READ_DONE (R255): The memory read of a GET_REQ returns, and the GET_RESP packets are sent, poisoned if
  needed. -/
  | getReadDone (n : BitVec 24) (psn : BitVec 24) (data : List Byte) (res : MemRes)
  /-- SCT_ACK_RECEIVED (R188): An ack is used or discarded as stale; a used ack moves SND_UNA and completes
  operations. -/
  | sctAckReceived (q : Fin 32)
  /-- RESPONSE_RECEIVED (R188): A GET_RESP or ATOMIC_RESP is placed or delivered and acknowledges earlier PSNs. -/
  | responseReceived (q : Fin 32)
  /-- RTO_EXPIRED (R189): The connection timer reaches its RTO; unacknowledged PSNs are resent and a retry is
  counted. -/
  | rtoExpired (n : BitVec 24) (cyc : Fin 1025)
  /-- RECEIVER_BUSY (R191): A RECEIVER_BUSY suspends the connection for ARG ticks. -/
  | receiverBusy (q : Fin 32)
  /-- BUSY_BACKOFF_END (R191): The back-off ends, and the sender resends from the refused PSN without counting a
  retry. -/
  | busyBackoffEnd (n : BitVec 24)
  /-- LINK_NOTICE_RECEIVED (R192): A link notice is turned into LINK_DOWN for the connection's owner. -/
  | linkNoticeReceived (q : Fin 32)
  /-- NOTICE_RESEND (R192): At the second tick edge after the notice, unacknowledged PSNs are resent without
  counting a retry. -/
  | noticeResend (n : BitVec 24)
  /-- SCT_PACKET_SEND (R203): A connection sends its next packet once the window and the rate pacing allow. -/
  | sctPacketSend (n : BitVec 24) (cyc : Fin 1025)
  /-- CONTEXT_FETCH_DONE (R198): A context fetch returns; the waiting packets are processed, or the connection fails
  by R200. -/
  | contextFetchDone (n : BitVec 24) (bytes : Option (List Byte)) (res : MemRes) (feed : List (BitVec 64))
  /-- EVICT_COMMIT_REPORTED (R199): The arbiter reports the commit word of an eviction written, and the slot is
  freed. -/
  | evictCommitReported (n : BitVec 24)
  /-- XLT_PROT_EXPIRED (R261): A packet has waited 262,144 ticks in the reorder store and is discarded with its
  verdict. -/
  | xltProtExpired (n : BitVec 24) (psn : BitVec 24)
  /-- DOORBELL (R219): A doorbell write starts a scan of an ACTIVE queue, or sets the rescan flag. -/
  | doorbell (q : BitVec 16)
  /-- RING_FETCH_DONE (R220): A ring read returns, and POSTED entries are taken in order until the scan ends. -/
  | ringFetchDone (q : BitVec 16) (data : List Byte) (res : MemRes)
  /-- ENTRY_START (R225): A taken entry starts, after its connection context is resident. -/
  | entryStart (q : BitVec 16)
  /-- EQ_COAL_DELAY (R233): The coalescing DELAY expires, and the pending report is written. -/
  | eqCoalDelay (q : BitVec 16) (ns : Nat)
  /-- EQ_CONSUMED (R234): Software reports the consumer position of an event queue. -/
  | eqConsumed (q : BitVec 16) (v : Word)
  /-- EQ_CLEAR_OVF (R235): Overflow is cleared, and reporting resumes. -/
  | eqClearOvf (q : BitVec 16) (v : Word)
  /-- EQ_ARM (R236): The event queue is armed for its next MSI-X. -/
  | eqArm (q : BitVec 16) (v : Word)
  /-- WQ_ENABLE (R237): Setting ENABLE with a valid configuration moves the queue to ACTIVE. -/
  | wqEnable (src : Src) (v : Word)
  /-- WQ_RESET (R238): A write of RESET aborts every POSTED entry and returns the queue to ACTIVE. -/
  | wqReset (src : Src) (v : Word)
  /-- WQ_DISABLE (R238): Clearing ENABLE aborts the queue and moves it to DISABLED. -/
  | wqDisable (src : Src) (v : Word)
  /-- BUS_MASTER_DISABLE (R392): Bus Master Enable is cleared or host memory becomes unreachable; the dependent
  queues enter HELD. -/
  | busMasterDisable (f : Bm)
  /-- BUS_MASTER_ENABLE (R392): The hierarchy is reachable again; kept completions are written and the queues
  resume. -/
  | busMasterEnable (f : Bm)
  /-- XLT_RGN_STAGE (R258): A write of STAGE stages the field registers as one protection entry, or is refused. -/
  | xltRgnStage (src : Src) (v : Word) (late : Bool)
  /-- XLT_RGN_LOAD (R264): A write of LOAD fills the field registers from the entry in force. -/
  | xltRgnLoad (src : Src) (v : Word)
  /-- MTE_ARRIVAL (R274): A message arrives at its context and matches the oldest fitting RECV, or joins the
  unexpected list. -/
  | mteArrival (m : BitVec 16)
  /-- MTE_POSTING (R274): A RECV is posted, after waiting for a free entry if needed, and matches an unexpected
  message or joins the posted list. -/
  | mtePosting (m : BitVec 16)
  /-- MTE_SPILL_READ_DONE (R286): A match-store spill read returns, or fails and puts the context in FAILED. -/
  | mteSpillReadDone (m : BitVec 16) (ok : Bool)
  /-- FIN (R280): A FIN commits at the sender and completes its rendezvous SEND. -/
  | fin
  /-- CANCEL (R281): A CANCEL removes an unexpected RTS with a FIN carrying ABORTED, or is ignored. -/
  | cancel
  /-- MTE_CTX_ENABLE (R267): Setting ENABLE activates a matching context with empty lists. -/
  | mteCtxEnable (src : Src) (m : BitVec 16)
  /-- MTE_CTX_DISABLE (R267): Clearing ENABLE completes the posted RECVs ABORTED and discards the unexpected
  entries. -/
  | mteCtxDisable (src : Src) (m : BitVec 16)
  /-- COL_UP (R301): A COL_UP packet is received and offered to its reduction unit, or discarded as stale. -/
  | colUp (u : Fin 4)
  /-- COL_DOWN (R301): A COL_DOWN result block or END is received, placed and replicated. -/
  | colDown (u : Fin 4)
  /-- WINDOW (R302): A WINDOW raises UPTO for a child. -/
  | windowMsg
  /-- FAIL (R315): A FAIL breaks the group, is forwarded and completes the local members. -/
  | failMsg
  /-- COL_STEP (R311): An admitted block combination is made in a reduction unit. -/
  | colStep (u : Fin 4)
  /-- COL_WATCHDOG (R317): No decision has come within TIMEOUT × 1,024 ticks, so the operation fails with TIMEOUT. -/
  | colWatchdog (g : BitVec 12)
  /-- COL_GRP_FORM (R320): A write of FORM forms the group after the checks of Table 10-13. -/
  | colGrpForm (src : Src) (v : Word)
  /-- COL_GRP_DISSOLVE (R294): A write of DISSOLVE frees the group, failing a running operation with MANAGER. -/
  | colGrpDissolve (src : Src) (v : Word)
  /-- WALK_READ_DONE (R326): A table read of a walk returns; the walk continues, faults or installs the leaf. -/
  | walkReadDone (k : Fin 256) (e : BitVec 64) (res : MemRes)
  /-- XLT_INV_ISSUE (R335): A write of ISSUE starts an invalidation and assigns it a token. -/
  | xltInvIssue (src : Src) (v : Word)
  /-- INV_TOKEN_DONE (R335): An invalidation's conditions hold, and DONE reaches its token. -/
  | invTokenDone (k : Nat)
  /-- LOCK_WALK (R332): LOCK_WALK walks the address and locks the leaf. -/
  | lockWalk (src : Src) (v : Word)
  /-- LOCK_LOAD (R332): LOCK_LOAD checks and locks the written entry without a walk. -/
  | lockLoad (src : Src) (v : Word)
  /-- UNLOCK (R332): UNLOCK removes the locked entry that covers the address. -/
  | unlock (src : Src) (v : Word)
  /-- XLT_CTX_DISABLE (R337): Clearing ENABLE stops lookups and invalidates the whole context under an internal
  token. -/
  | xltCtxDisable (src : Src) (v : Word)
  /-- XLT_HR_MODE (R331): A mode write to a parked hedgerow switches SPLIT or LOCKED and empties its tiers. -/
  | xltHrMode (src : Src) (h : Hedge) (v : Word)
  /-- MEM_RD (R350): A host MemRd or MemRdData is translated and sent as a 64 B GET_REQ. -/
  | memRd (h : Hier) (off : BitVec 52) (tag : BitVec 16)
  /-- MEM_WR (R350): A host MemWr is sent as a 64 B PUT and answered with Cmp. -/
  | memWr (h : Hier) (off : BitVec 52) (tag : BitVec 16) (data : List Byte) (poison : Bool)
  /-- MEM_WR_PTL (R350): A MemWrPtl is sent as PUTs of its enabled runs. -/
  | memWrPtl (h : Hier) (off : BitVec 52) (tag : BitVec 16) (data : List Byte) (mask : BitVec 64) (poison : Bool)
  /-- MEM_SPEC_RD (R341): A MemSpecRd hint may be dropped and returns no data. -/
  | memSpecRd (h : Hier) (off : BitVec 52)
  /-- MEM_INV (R340): A MemInv, MemInvNT or MemClnEvct is answered Cmp with no effect. -/
  | memInv (h : Hier) (off : BitVec 52) (tag : BitVec 16)
  /-- MBR_DEADLINE (R353): A read not answered within DEADLINE is answered with poisoned MemData. -/
  | mbrDeadline (h : Hier) (tag : BitVec 16)
  /-- MBR_REPATH (R356): At the second edge after LINK_DOWN, outstanding bridge reads are re-issued on another
  connection. -/
  | mbrRepath (n : BitVec 24)
  /-- HIERARCHY_UP (R374): The upstream link is up and PERST_N is deasserted, so the hierarchy becomes ACTIVE. -/
  | hierarchyUp (h : Hier)
  /-- HIERARCHY_RESET (R389): PERST_N, a hot reset or a down upstream link resets the hierarchy's devices and
  functions. -/
  | hierarchyReset (h : Hier)
  /-- CONFIG_REQUEST (R396): A configuration request is answered, with Request Retry Status until firmware is ready. -/
  | configRequest (f : Func) (w : CfgAct)
  /-- P2P_REQUEST (R380): A peer request is routed inside the hierarchy, through a peer window, or is blocked. -/
  | p2pRequest (h : Hier) (v : Fin 32) (to_ : PeerTo) (write : Bool)
  /-- UNSUPPORTED_REQUEST (R391): A request to unimplemented function space gets UR, or a write is discarded. -/
  | unsupportedRequest (f : Func) (write : Bool)
  /-- COMPLETION_TIMEOUT (R394): A VX9 upstream request times out, with the effect that the request's kind gives. -/
  | completionTimeout (f : Func) (tag : BitVec 14) (r : UpReq)
  /-- LATE_COMPLETION (R395): A completion for a timed-out tag is discarded. -/
  | lateCompletion (h : Hier) (tag : BitVec 14)
  /-- TAG_QUARANTINE_END (R395): Twice the timeout has passed, and the tag may be reused. -/
  | tagQuarantineEnd (h : Hier) (tag : BitVec 14)
  /-- FUNCTION_LEVEL_RESET (R397): An FLR disables the function's queues, resets its connections and poisons its
  locks. -/
  | functionLevelReset (f : Func)
  /-- TUNNEL_TLP_SEND (R383): A TLP is written as a tunnel record and an IMM once its area has room. -/
  | tunnelTlpSend (t : Fin 64) (area : Fin 3) (tlp : List Byte)
  /-- TUNNEL_RECORD (R384): A committed data IMM hands on the records of its area in order. -/
  | tunnelRecord (t : Fin 64)
  /-- TUNNEL_REPORT (R383): A release report is sent after 8 KiB released, or 1 µs after any release. -/
  | tunnelReport (t : Fin 64) (area : Fin 3)
  /-- SECONDARY_BUS_RESET (R385): A Secondary Bus Reset or Link Disable on v is sent as a CONTROL record. -/
  | secondaryBusReset (h : Hier) (v : Fin 32) (disable : Bool)
  /-- HSW_DPC (R387): Downstream Port Containment is triggered on a port. -/
  | hswDpc (p : DpcAt)
  /-- DPC_STATUS_CLEAR (R386): The host clears DPC Trigger Status, and firmware re-opens the failed tunnel. -/
  | dpcStatusClear (p : DpcAt)
  /-- HSW_LINK (R401): A host-lane port's link goes up or down. -/
  | hswLink (n : Fin 48) (l : HostLink)
  /-- DISPATCH_START (R404): A queued work item starts on an idle engine once the grant covers its cost. -/
  | dispatchStart (h : Hedge) (cls : Fin 16)
  /-- DISPATCH_END (R402): A dispatch finishes; a DRAINING package slot may become EMPTY. -/
  | dispatchEnd (e : Fin 1024) (x : HandlerEnd)
  /-- DISPATCH_WATCHDOG (R405): A dispatch exceeds CYCLE_MAX × 1,024 cycles, which is a WATCHDOG fault. -/
  | dispatchWatchdog (e : Fin 1024)
  /-- ENG_FAULT (R408): An engine faults. It stops and is recorded and reset, and its item ends once. -/
  | engFault (e : Fin 1024) (cause : Fin 7)
  /-- ENGINE_RESET_DONE (R409): An engine reset completes, and the engine takes work again. -/
  | engineResetDone (e : Fin 1024)
  /-- HANDLER_TIMER (R403): A timer set by a handler expires and dispatches a work item. -/
  | handlerTimer (k : Fin 6)
  /-- RAMP_DONE (R421): After 8 ticks in RAMP, the hedgerow enters F16. -/
  | rampDone (h : Hedge)
  /-- HEDGEROW_WAKE (R422): A parked hedgerow wakes to F12 within 8 ticks, and waiting work proceeds. -/
  | hedgerowWake (h : Hedge)
  /-- FORCE_PARK (R422): A write of FORCE_PARK parks the hedgerow at the next edge, or is refused. -/
  | forcePark (src : Src) (h : Hedge)
  /-- MBX_DOORBELL (R429): A doorbell snapshots the request and makes the channel PENDING, or gets BUSY during a
  restart. -/
  | mbxDoorbell (ch : Chan) (v : Word)
  /-- MBX_CONSUME (R429): Consuming the result's SEQ returns the channel to IDLE. -/
  | mbxConsume (ch : Chan) (v : Word)
  /-- COMMAND_FINISH (R429): An ACCEPTED command finishes, and its final result is written. -/
  | commandFinish (ch : Chan)
  /-- MBX_BULK_OWN (R434): The host hands bulk pages to firmware. -/
  | mbxBulkOwn (src : Src) (page : Fin 8) (v : Word)
  /-- BMC_MESSAGE (R428): An MCTP message from the BMC is bound to a channel and handled. -/
  | bmcMessage (eid : Byte) (m : BmcMail)
  /-- SPDM_REQUEST (R498): An SPDM request is answered over MCTP or DOE. -/
  | spdmRequest (req : SpdmReq)
  /-- PEER_REQ (R440): A peer request is taken on its channel, re-answered, or ignored as a repeat. -/
  | peerReq (m : PeerMail)
  /-- PEER_RESULT (R440): A peer result completes the sender's request. -/
  | peerResult (q : Fin 32)
  /-- PEER_REQ_RESEND (R440): A PEER_REQ is resent after 1,562 ticks; after 8 sends it fails with BUSY. -/
  | peerReqResend (k : BitVec 18)
  /-- DESCRIBE (R436): DESCRIBE returns an identity, endpoint, package or pool-source page. -/
  | describe (ch : Chan)
  /-- FW_STAGE (R489): FW_STAGE writes and verifies an image in the inactive bank. -/
  | fwStage (ch : Chan) (img : Image)
  /-- FW_ACTIVATE (R456): FW_ACTIVATE starts a hitless restart into the staged image. -/
  | fwActivate (ch : Chan)
  /-- REG_READ (R436): REG_READ returns a BAR0 register at L0. -/
  | regRead (ch : Chan)
  /-- REG_WRITE (R436): REG_WRITE writes masked bits of a BAR0 register at L0. -/
  | regWrite (ch : Chan) (late : Bool)
  /-- POWER_LIMIT (R417): POWER_LIMIT sets the power limit and returns the clamped value and tick. -/
  | powerLimit (ch : Chan)
  /-- POWER_QUERY (R436): POWER_QUERY returns the power status, budget and die registers. -/
  | powerQuery (ch : Chan)
  /-- RES_ASSIGN (R540): RES_ASSIGN assigns queues, domains, contexts, locks or protection entries to a function. -/
  | resAssign (ch : Chan)
  /-- RES_RELEASE (R436): RES_RELEASE releases assigned resources. -/
  | resRelease (ch : Chan)
  /-- PORT_SET (R436): PORT_SET sets a port's enable, width and restart policy. -/
  | portSet (ch : Chan)
  /-- PORT_QUERY (R436): PORT_QUERY returns the PHY, LNK and delay state of a port. -/
  | portQuery (ch : Chan)
  /-- PORT_FLUSH (R109): PORT_FLUSH flushes a DOWN link. -/
  | portFlush (ch : Chan)
  /-- RTE_LOAD (R164): RTE_LOAD writes route-table entries into the staged bank. -/
  | rteLoad (ch : Chan)
  /-- RTE_COMMIT (R164): RTE_COMMIT commits the staged bank at tick T. -/
  | rteCommit (ch : Chan)
  /-- RTE_ABORT (R165): RTE_ABORT cancels the pending commit. -/
  | rteAbort (ch : Chan)
  /-- CONN_OPEN (R172): CONN_OPEN allocates a context and sends OPEN. -/
  | connOpen (ch : Chan)
  /-- CONN_CLOSE (R172): CONN_CLOSE drains and closes a connection. -/
  | connClose (ch : Chan)
  /-- CONN_RESET (R172): CONN_RESET frees the context, aborting its descriptors. -/
  | connReset (ch : Chan)
  /-- CONN_QUERY (R436): CONN_QUERY returns a quarter of a context record. -/
  | connQuery (ch : Chan)
  /-- CONN_LISTEN (R437): CONN_LISTEN adds a listen entry for an endpoint. -/
  | connListen (ch : Chan)
  /-- CONN_UNLISTEN (R437): CONN_UNLISTEN removes a listen entry. -/
  | connUnlisten (ch : Chan)
  /-- WINDOW_BIND (R541): WINDOW_BIND stages a window on the function's lowest free entry and returns its key. -/
  | windowBind (ch : Chan)
  /-- WINDOW_UNBIND (R436): WINDOW_UNBIND retires a window that this function bound. -/
  | windowUnbind (ch : Chan)
  /-- COL_FORM (R320): COL_FORM writes and forms a group entry. -/
  | colForm (ch : Chan)
  /-- COL_DISSOLVE (R294): COL_DISSOLVE dissolves a group. -/
  | colDissolve (ch : Chan)
  /-- LOCK_OP (R441): LOCK_OP performs a lock operation for a virtual function. -/
  | lockOp (ch : Chan)
  /-- LOCK_QUERY (R441): LOCK_QUERY returns a lock's state for a virtual function. -/
  | lockQuery (ch : Chan)
  /-- BRIDGE_WINDOW (R343): BRIDGE_WINDOW sets a hierarchy's window size, context and enable. -/
  | bridgeWindow (ch : Chan)
  /-- POOL_EXPORT (R347): POOL_EXPORT stages a pool region over a host range. -/
  | poolExport (ch : Chan) (entry : BitVec 17) (ctx : BitVec 16)
  /-- POOL_UNEXPORT (R367): POOL_UNEXPORT retires an exported range once it is unused and settled. -/
  | poolUnexport (ch : Chan) (step : Unexport)
  /-- POOL_CLAIM_EXPANDER (R347): POOL_CLAIM_EXPANDER takes a host-lane port's expander as a pool source. -/
  | poolClaimExpander (ch : Chan) (x : Option Expander)
  /-- POOL_PATH_SET (R349): POOL_PATH_SET opens or closes the bridge connections of a path set. -/
  | poolPathSet (ch : Chan)
  /-- POOL_DIR_SET (R365): POOL_DIR_SET writes one extent directory entry, tick-aligned. -/
  | poolDirSet (ch : Chan)
  /-- POOL_EXTENT_CLEAR (R364): POOL_EXTENT_CLEAR clears FAILED on an extent. -/
  | poolExtentClear (ch : Chan)
  /-- HSW_ASSIGN_PORT (R378): HSW_ASSIGN_PORT gives a downstream device whole to a hierarchy. -/
  | hswAssignPort (ch : Chan) (fns : BitVec 9)
  /-- HSW_ASSIGN_VF (R378): HSW_ASSIGN_VF gives one device virtual function to a hierarchy. -/
  | hswAssignVf (ch : Chan) (pf : Bool)
  /-- HSW_ASSIGN_LD (R378): HSW_ASSIGN_LD gives one logical device to a hierarchy. -/
  | hswAssignLd (ch : Chan) (mld : Bool)
  /-- HSW_RELEASE (R399): HSW_RELEASE withdraws an assigned device or function. -/
  | hswRelease (ch : Chan)
  /-- HSW_VF_POOL (R379): HSW_VF_POOL sets a management function's TotalVFs. -/
  | hswVfPool (ch : Chan) (enabled : Bool)
  /-- HSW_P2P_SET (R380): HSW_P2P_SET writes HSW_P2P and one peer window. -/
  | hswP2pSet (ch : Chan)
  /-- HSW_TUNNEL_OPEN (R386): HSW_TUNNEL_OPEN opens one side of a tunnel. -/
  | hswTunnelOpen (ch : Chan)
  /-- HSW_TUNNEL_CLOSE (R386): HSW_TUNNEL_CLOSE closes one side of a tunnel. -/
  | hswTunnelClose (ch : Chan)
  /-- ENG_PKG_LOAD (R413): ENG_PKG_LOAD verifies and loads a handler package into a slot. -/
  | engPkgLoad (ch : Chan) (pkg : Pkg)
  /-- ENG_PKG_ENABLE (R414): ENG_PKG_ENABLE enables a package and assigns its SERVICE endpoint. -/
  | engPkgEnable (ch : Chan) (x : PkgUnits)
  /-- ENG_PKG_DISABLE (R415): ENG_PKG_DISABLE makes the package DRAINING. -/
  | engPkgDisable (ch : Chan)
  /-- SEC_SVN_COMMIT (R496): SEC_SVN_COMMIT raises a fuse anti-rollback counter. -/
  | secSvnCommit (ch : Chan)
  /-- SEC_KEY_PROGRAM (R495): SEC_KEY_PROGRAM fuses the customer key hash. -/
  | secKeyProgram (ch : Chan) (signed : Bool)
  /-- SEC_DEBUG_UNLOCK (R497): SEC_DEBUG_UNLOCK verifies a token and enables debug. -/
  | secDebugUnlock (ch : Chan) (valid : Bool)
  /-- ACQUIRE (R441): ACQUIRE grants a free lock, queues the requester, or reports QUEUE_FULL. -/
  | acquire (src : Src) (l : Fin 4096) (prio : Fin 8)
  /-- RELEASE (R442): RELEASE passes the lock to the highest-priority waiter, or frees it. -/
  | release (src : Src) (l : Fin 4096)
  /-- FORCE_RELEASE (R441): FORCE_RELEASE releases the lock from the named holder. -/
  | forceRelease (src : Src) (l : Fin 4096) (target : BitVec 13)
  /-- CLEAR_POISON (R441): CLEAR_POISON clears a lock's POISON flag. -/
  | clearPoison (src : Src) (l : Fin 4096)
  /-- GLB_F4 (R450): An F4 cause stops the device: all sending stops, containment is triggered, FAULT_N is asserted
  and a record is written. -/
  | glbF4 (cause : Fin 10)
  /-- RAIL_FAULT (R518): A rail stays outside its range for more than 16 ticks, which is F4 with cause RAIL. -/
  | railFault (x : RailLoss)
  /-- THERMAL_TRIP (R513): A sensor reads 115 °C or more; THERMTRIP_N is asserted and F4 follows. -/
  | thermalTrip (temp : Nat)
  /-- GLB_FAULT_INJECT_FATAL (R464): A write of FATAL declares F4 with cause MANUAL. -/
  | glbFaultInjectFatal (src : Src)
  /-- GLB_FAULT_INJECT_RESTART (R464): A write of RESTART begins a control-complex restart. -/
  | glbFaultInjectRestart (src : Src)
  /-- COPPICE_POINT (R451): At a tick that is a multiple of 1,024, firmware starts capturing a coppice point. -/
  | coppicePoint
  /-- COPPICE_POINT_DONE (R451): A coppice point finishes with its sequence word written. -/
  | coppicePointDone
  /-- GLB_CC_RESTART (R453): A lockstep mismatch or an uncorrectable memory error starts a control-complex restart. -/
  | glbCcRestart
  /-- FW_WATCHDOG_EXPIRED (R453): The firmware watchdog expires and starts a restart. -/
  | fwWatchdogExpired
  /-- GLB_CC_READY (R454): Step 5 of a restart completes, and held commands and mail are resumed. -/
  | glbCcReady
  /-- GLB_FW_FALLBACK (R457): A new image fails during activation; the previous image is restored. -/
  | glbFwFallback
  /-- SNAPSHOT_DUE (R468): A snapshot falls due at a PERIOD edge and all selected counters are latched. -/
  | snapshotDue
  /-- PMC_NOW (R468): A tick-aligned NOW makes a snapshot fall due. -/
  | pmcNow (src : Src) (late : Bool)
  /-- SNAPSHOT_WRITE_DONE (R470): A snapshot slot is written with its SEQ last, or fails, and the counter pages are
  refreshed. -/
  | snapshotWriteDone (res : MemRes)
  /-- EVR_FREEZE (R478): A write of FREEZE stops or resumes recording. -/
  | evrFreeze (src : Src) (on : Bool)
  /-- EVR_FREEZE_TIMEOUT (R478): A freeze lasting 2 s is released. -/
  | evrFreezeTimeout
  /-- CLEAR_PERM (R476): CLEAR_PERM empties the permanent area. -/
  | clearPerm (src : Src)
  /-- CLEAR_CIRC (R474): CLEAR_CIRC empties the circulating area. -/
  | clearCirc (src : Src)
  /-- COLD_RESET (R483): PWRGOOD rises. The straps are latched and boot begins. -/
  | coldReset (role : BitVec 2) (boot : BitVec 2)
  /-- WARM_RESET (R485): SYS_RST_N low silences the fabric ports and resets the device state. -/
  | warmReset
  /-- WARM_RESET_RELEASE (R485): SYS_RST_N rises, and boot begins at step 2. -/
  | warmResetRelease
  /-- POWER_DOWN (R517): PWRGOOD falls, and the queued persistent writes complete. -/
  | powerDown (held : Bool)
  /-- BOOT_IMAGE_LOADED (R492): A first-stage or firmware image is read and checked, and boot proceeds, falls back
  or enters recovery. -/
  | bootImageLoaded (x : BootLoad)
  /-- HBM_TRAINING_DONE (R492): The HBM stacks are trained, and the host-switch settings are applied. -/
  | hbmTrainingDone (x : Training)
  /-- SEC_RECOVERY (R494): A recovery image received over MCTP is checked, and boot continues. -/
  | secRecovery (img : Image)
  /-- NVS_WRITE (R501): A write to an RWP field enters the persistent write queue, or is dropped. -/
  | nvsWrite (src : Src) (n : Fin 512) (v : Word)
  /-- NVS_PROGRAM_DONE (R501): A queued persistent write is programmed, and its wear count rises. -/
  | nvsProgramDone
  /-- SHADOW_LO_READ (R110): A read of a _LO word latches its _HI word into the function's shadow. -/
  | shadowLoRead (src : Src) (off : BitVec 25)
  /-- READ_CLEAR (R525): A read of an RC register returns its value and clears it. -/
  | readClear (src : Src) (off : BitVec 25) (size : Nat)
  /-- REGISTER_WRITE (R525): A write to a register without its own row is applied, staged or ignored by its level,
  state and access code. -/
  | registerWrite (src : Src) (tgt : Tgt) (late : Bool)
  /-- QUICKSET_STEP_COMPLETE (R70): Step 2, 3 or 4 of a quickset retrain or degrade completes: the restore and phase
  reacquisition, block lock with the check against the saved mapping, or the FOM check, and the port moves to
  the next step of Table 02-11. -/
  | quicksetStepComplete (p : Port) (res : QsRes)
  /-- SOURCE_DATA_READ_DONE (R394): A read of a descriptor's local source data returns from host memory or HBM, for
  a first send, a resend (R542) or a collective source vector, and the packets that carry it may be sent. -/
  | sourceDataReadDone (x : SrcOf) (data : List Byte) (res : MemRes)
  /-- EXTENT_DIRECTORY_READ_DONE (R348): An extent directory entry read from HBM after a miss in the on-die cache
  returns; the bridge request is built, or a map fault follows when the entry is invalid or fails its CHECK
  (R355). -/
  | extentDirectoryReadDone (x : Nat) (ok : Bool)
  deriving DecidableEq, Repr

end Sys2Proof
end

