-- ==== Sys2Proof/Decode.lean ====
section
/-!
DEFINITION. The words that spell a command. The rows of the opcode table name steps of the block and give no bits, so no word
spells one.
-/

namespace Sys2Proof

/-- The command that a word spells by the table's bits: none, since the table gives no row any bits. -/
def decodeTableWord (nbits w : Nat) : Option Instr :=
  match nbits, w with
  | _, _ => none

end Sys2Proof
end

