-- ==== Sys2Proof/Machine/Codes.lean ====
section
/-!
DEFINITION. The check codes the spec defines: the CRC-16 of R115, the CRC-32C of Table 04-3, the CRC-64 of R80, and the
Reed-Solomon parity of R81; and the little-endian byte order of R12 and R474.
-/

namespace Sys2Proof.Machine

/-- The `n` low bytes of `v`, lowest first. -/
def leBytes : Nat → Nat → List Byte
  | 0, _ => []
  | n + 1, v => BitVec.ofNat 8 v :: leBytes n (v / 256)

/-- The number whose bytes, lowest first, are `bs`. -/
def leNat : List Byte → Nat
  | [] => 0
  | b :: bs => b.toNat + 256 * leNat bs

/-- One shift of a reflected CRC register with polynomial `poly`. -/
def crcShift {w : Nat} (poly crc : BitVec w) : BitVec w :=
  if crc.getLsbD 0 then (crc >>> 1) ^^^ poly else crc >>> 1

/-- Takes one byte, bit 0 first, into a reflected CRC register. -/
def crcByte {w : Nat} (poly crc : BitVec w) (b : Byte) : BitVec w :=
  (List.range 8).foldl (fun c _ => crcShift poly c) (crc ^^^ b.setWidth w)

/-- The CRC-16 of R115. -/
def crc16 (bs : List Byte) : BitVec 16 := bs.foldl (crcByte 0x8408#16) 0xFFFF#16

/-- The CRC-32C of Table 04-3. -/
def crc32c (bs : List Byte) : BitVec 32 := ~~~(bs.foldl (crcByte 0x82F63B78#32) 0xFFFFFFFF#32)

/-- Takes one bit into the CRC-64 register of R80. -/
def crc64Bit (crc : BitVec 64) (bit : Bool) : BitVec 64 :=
  if crc.getLsbD 63 == bit then crc <<< 1 else (crc <<< 1) ^^^ 0x42F0E1EBA9EA3693#64

/-- The CRC-64 of R80 over 64-bit payloads in transmission order: bit 0 of each payload first (R76). -/
def crc64 (blocks : List (BitVec 64)) : BitVec 64 :=
  ~~~(blocks.foldl (fun c b => (List.range 64).foldl (fun c i => crc64Bit c (b.getLsbD i)) c) (~~~0#64))

/-- Multiplication by α in GF(2^10) with x^10 + x^3 + 1 (R81). -/
def gfDouble (a : BitVec 10) : BitVec 10 :=
  if a.getLsbD 9 then (a <<< 1) ^^^ 9#10 else a <<< 1

/-- Multiplication in GF(2^10). -/
def gfMul (a b : BitVec 10) : BitVec 10 :=
  (List.range 10).foldl
    (fun acc i => let d := gfDouble acc; if b.getLsbD (9 - i) then d ^^^ a else d) 0#10

/-- α to the power `i`. -/
def gfPow : Nat → BitVec 10
  | 0 => 1#10
  | i + 1 => gfDouble (gfPow i)

/-- Multiplies a polynomial, highest coefficient first, by x + α^`i`. -/
def gfMulRoot (p : List (BitVec 10)) (i : Nat) : List (BitVec 10) :=
  List.zipWith (· ^^^ ·) (p ++ [0#10]) (0#10 :: p.map (gfMul (gfPow i)))

/-- The generator of R81, highest coefficient first: the product of x + α^i for i = 0 to 11. -/
def rsGenerator : List (BitVec 10) := (List.range 12).foldl gfMulRoot [1#10]

/-- One step of the division that leaves the parity: `reg` holds the 12 symbols of the remainder. -/
def rsStep (reg : List (BitVec 10)) (sym : BitVec 10) : List (BitVec 10) :=
  let f := sym ^^^ reg.headD 0#10
  List.zipWith (· ^^^ ·) (reg.tail ++ [0#10]) ((rsGenerator.drop 1).map (gfMul f))

/-- Bits taken ten at a time, the first bit most significant (R81). -/
def symbols : Nat → List Bool → List (BitVec 10)
  | 0, _ => []
  | n + 1, bits => (bits.take 10).foldl (fun s b => (s <<< 1) ||| (BitVec.ofBool b).setWidth 10) 0#10 ::
      symbols n (bits.drop 10)

/-- The 12 parity symbols of R81 over the payload bits of blocks 0 to 65. -/
def rsParity (blocks : List (BitVec 64)) : List (BitVec 10) :=
  let bits := List.replicate 6 false ++ blocks.flatMap fun b => (List.range 64).map fun i => b.getLsbD i
  (symbols 423 bits).foldl rsStep (List.replicate 12 0#10)

/-- The parity bits in transmission order, as blocks 66 and 67 (Table 03-1). -/
def rsBlocks (blocks : List (BitVec 64)) : List (BitVec 64) :=
  let bits := (rsParity blocks).flatMap fun s => (List.range 10).map fun i => s.getLsbD (9 - i)
  let word := fun (bs : List Bool) => bs.foldr (fun b (w : BitVec 64) => (w <<< 1) ||| (BitVec.ofBool b).setWidth 64) 0#64
  [word (bits.take 64), word (bits.drop 64)]

/-! Decoding (R81, R82). -/

/-- The inverse of a nonzero element of GF(2^10): its power 1,022. -/
def gfInv (a : BitVec 10) : BitVec 10 :=
  ((List.range 9).foldl (fun (x : BitVec 10 × BitVec 10) _ => (gfMul x.1 x.1, gfMul x.2 (gfMul x.1 x.1))) (a, 1#10)).2

/-- The value of a polynomial, lowest coefficient first. -/
def gfEval (p : List (BitVec 10)) (x : BitVec 10) : BitVec 10 := p.foldr (fun c v => gfMul v x ^^^ c) 0#10

/-- Adds two polynomials, lowest coefficient first. -/
def gfAddPoly : List (BitVec 10) → List (BitVec 10) → List (BitVec 10)
  | [], ys => ys
  | xs, [] => xs
  | x :: xs, y :: ys => (x ^^^ y) :: gfAddPoly xs ys

/-- The 435 symbols of a frame, the six unsent zero bits first (R81). -/
def frameSymbols (ws : List (BitVec 64)) : List (BitVec 10) :=
  symbols 435 (List.replicate 6 false ++ ws.flatMap fun b => (List.range 64).map fun i => b.getLsbD i)

/-- The 12 syndromes of received symbols: their polynomial's values at α^0 to α^11. -/
def rsSyndromes (ss : List (BitVec 10)) : List (BitVec 10) :=
  (List.range 12).map fun j => gfEval ss.reverse (gfPow j)

/-- A step of the shortest-recurrence search over the syndromes: the locator, the one before its last change of length, its
length, the distance of that change and the discrepancy then. -/
structure RsState where
  loc : List (BitVec 10)
  old : List (BitVec 10)
  len : Nat
  gap : Nat
  disc : BitVec 10

/-- Takes syndrome `n` into the search. -/
def rsSearch (syn : List (BitVec 10)) (x : RsState) (n : Nat) : RsState :=
  let delta := (List.range (x.len + 1)).foldl (fun v i => v ^^^ gfMul (x.loc.getD i 0#10) (if i ≤ n then syn.getD (n - i) 0#10 else 0#10))
    0#10
  let next := gfAddPoly x.loc (List.replicate x.gap 0#10 ++ x.old.map (gfMul (gfMul delta (gfInv x.disc))))
  if delta = 0#10 then { x with gap := x.gap + 1 }
  else if 2 * x.len ≤ n then { loc := next, old := x.loc, len := n + 1 - x.len, gap := 1, disc := delta }
  else { x with loc := next, gap := x.gap + 1 }

/-- The symbols with the errors taken out that the syndromes locate. -/
def rsCorrect (ss : List (BitVec 10)) : List (BitVec 10) :=
  let syn := rsSyndromes ss
  let loc := ((List.range 12).foldl (rsSearch syn) { loc := [1#10], old := [1#10], len := 0, gap := 1, disc := 1#10 }).loc
  let mag := (List.range 12).map fun k =>
    (List.range (k + 1)).foldl (fun v i => v ^^^ gfMul (loc.getD i 0#10) (syn.getD (k - i) 0#10)) 0#10
  let der := loc.zipIdx.tail.map fun c => if c.2 % 2 = 1 then c.1 else 0#10
  ss.zipIdx.map fun c =>
    let e := 434 - c.2
    let inv := gfPow ((1023 - e) % 1023)
    if gfEval loc inv = 0#10 ∧ gfEval der inv ≠ 0#10 then
      c.1 ^^^ gfMul (gfMul (gfPow e) (gfEval mag inv)) (gfInv (gfEval der inv))
    else c.1

/-- The 68 payloads of 435 symbols; the reserved bits of block 67 are 0. -/
def symbolBlocks (ss : List (BitVec 10)) : List (BitVec 64) :=
  let bits := (ss.flatMap fun s => (List.range 10).map fun i => s.getLsbD (9 - i)).drop 6
  let word := fun (bs : List Bool) => bs.foldr (fun b (w : BitVec 64) => (w <<< 1) ||| (BitVec.ofBool b).setWidth 64) 0#64
  (List.range 68).map fun k => word ((bits.drop (64 * k)).take 64)

end Sys2Proof.Machine
end

