-- ==== Sys2Proof/Machine/Regs.lean ====
section
/-!
DEFINITION. The registers of the first BAR, field by field, as the register tables of the spec give them: one
constructor of `Reg` for each register name of Table 20-15, its fields with their access codes (Table 20-1), its
reset word (R526), and the offsets of Table 20-6. An index selects one element of an array, or one copy of a
register that is held per function (R529) or per selected object.
-/

namespace Sys2Proof.Machine

/-- Access codes of Table 20-1 (R525). -/
inductive Acc where
  | ro | rw | rw1c | rw1s | wo | rc | rwp
  deriving DecidableEq, Repr

/-- The registers of Table 20-15, by the spec's own names. -/
inductive Reg where
  | TCK_NOW_LO
  | TCK_NOW_HI
  | TCK_STATUS
  | TCK_PARENT
  | TCK_HOLD
  | TCK_OVR_CNT
  | TCK_PDLY
  | PHY_CTRL
  | PHY_CFG
  | PHY_STATUS
  | PHY_LANE_STATUS
  | PHY_TXEQ
  | PHY_PRBS_ERR
  | PHY_CORR_LO
  | PHY_CORR_HI
  | PHY_MODULE
  | PHY_BRINGUP_TIME
  | PHY_COUNTS
  | LNK_CTRL
  | LNK_CFG
  | LNK_REPLAY_TO
  | LNK_STATUS
  | LNK_SEQ
  | LNK_STORE
  | LNK_PEER
  | LNK_EPOCH
  | LNK_VC_ALLOC
  | LNK_VC_CREDIT
  | LNK_VC_PEER
  | SWC_CFG
  | SWC_BUF
  | SWC_BUF_FREE
  | SWC_STATUS
  | SWC_RSV
  | SWC_FAB_RSV
  | SWC_OCC
  | SCH_CLASS
  | SCH_MARK
  | SCH_SHAPE
  | SCH_TOKENS
  | SCH_DEPTH
  | SCH_OBS_CTRL
  | SCH_DEPTH_RANGE
  | SCH_DEPTH_MEAN
  | SCH_DELAY_MIN
  | SCH_DELAY_MAX
  | SCH_DELAY_MEAN
  | SCH_DELAY_SAMPLES
  | SCH_DEPTH_HIST
  | SCH_DELAY_HIST
  | RTE_ID
  | RTE_CFG
  | RTE_BIAS
  | RTE_ROLE
  | RTE_TERM
  | RTE_TBL_CTRL
  | RTE_TBL_STATUS
  | RTE_ACT_LO
  | RTE_ACT_HI
  | RTE_LIVE
  | RTE_ADMIN_OUT
  | RTE_PORT
  | RTE_EP
  | RTE_DIGEST_OUT_LO
  | RTE_DIGEST_OUT_HI
  | RTE_DIGEST_IN_LO
  | RTE_DIGEST_IN_HI
  | TRN_CFG
  | TRN_DEFAULTS
  | TRN_STATUS
  | TRN_CACHE
  | TRN_MISS
  | TRN_REORDER
  | TRN_CTX_TIER_LO
  | TRN_CTX_TIER_HI
  | TRN_RC
  | TRN_RC_RATE
  | WQ_SEL
  | WQ_STATUS
  | WQ_Q_BASE_LO
  | WQ_Q_BASE_HI
  | WQ_Q_CFG
  | WQ_Q_BIND
  | WQ_Q_CTRL
  | WQ_Q_STATUS
  | WQ_Q_INFLIGHT
  | WQ_EQ_COAL
  | XLT_RGN_SEL
  | XLT_RGN_RANGE
  | XLT_RGN_ATTR
  | XLT_RGN_OWNER
  | XLT_RGN_BASE_LO
  | XLT_RGN_BASE_HI
  | XLT_RGN_LEN_LO
  | XLT_RGN_LEN_HI
  | XLT_RGN_PARENT
  | XLT_RGN_CMD
  | XLT_PROT_STATUS
  | XLT_PROT_SETTLED_LO
  | XLT_PROT_SETTLED_HI
  | MTE_CFG
  | MTE_STATUS
  | MTE_SPILL_LO
  | MTE_SPILL_HI
  | MTE_SPILL_SIZE
  | MTE_SPILL_OCC
  | MTE_SEL
  | MTE_CTX_CFG
  | MTE_CTX_UX_LO
  | MTE_CTX_UX_HI
  | MTE_CTX_SLOTS
  | MTE_CTX_LIMIT
  | MTE_CTX_CTRL
  | MTE_CTX_STATUS
  | MTE_CTX_UX_USED
  | MTE_HR_OCC
  | MTE_RDV
  | COL_CAPS
  | COL_STATUS
  | COL_GRP_SEL
  | COL_GRP_CFG
  | COL_GRP_MEMBERS
  | COL_GRP_CHILD
  | COL_GRP_CTRL
  | COL_GRP_STATUS
  | COL_GRP_FLOW
  | COL_UNIT
  | XLT_CTX_SEL
  | XLT_CTX_CFG
  | XLT_CTX_ROOT_LO
  | XLT_CTX_ROOT_HI
  | XLT_CTX_STATUS
  | XLT_INV_CTRL
  | XLT_INV_ADDR_LO
  | XLT_INV_ADDR_HI
  | XLT_INV_TOKEN
  | XLT_STATUS
  | XLT_LOCK_CTRL
  | XLT_LOCK_ADDR_LO
  | XLT_LOCK_ADDR_HI
  | XLT_LOCK_ENTRY_LO
  | XLT_LOCK_ENTRY_HI
  | XLT_LOCK_COUNT
  | XLT_FAULT_INFO
  | XLT_FAULT_VA_LO
  | XLT_FAULT_VA_HI
  | XLT_FAULT_TBL_LO
  | XLT_FAULT_TBL_HI
  | XLT_HR_MODE
  | XLT_HMEM_BASE_LO
  | XLT_HMEM_BASE_HI
  | XLT_HMEM_LIMIT_LO
  | XLT_HMEM_LIMIT_HI
  | MBR_CAPS
  | MBR_CFG
  | MBR_STATUS
  | MBR_DIR_LO
  | MBR_DIR_HI
  | MBR_HIER_SEL
  | MBR_HIER_WIN
  | MBR_HIER_CTX
  | MBR_HIER_STATUS
  | MBR_PSET_SEL
  | MBR_PSET_HOME
  | MBR_PSET_CONN
  | MBR_PSET_STATUS
  | HSW_CAPS
  | HSW_CFG
  | HSW_STATUS
  | HSW_GRP_CFG
  | HSW_PORT_CFG
  | HSW_PORT_STATUS
  | HSW_HIER
  | HSW_P2P_LO
  | HSW_P2P_HI
  | HSW_TUN_SEL
  | HSW_TUN_STATUS
  | HSW_TUN_PEER
  | HSW_TUN_CONN
  | ENG_CAPS
  | ENG_CFG
  | ENG_STATUS
  | ENG_PKG_SEL
  | ENG_PKG_STATUS
  | ENG_PKG_ID
  | ENG_PKG_HR_LO
  | ENG_PKG_HR_HI
  | ENG_PKG_COST
  | ENG_HR_ENG
  | ENG_FAULT_INFO
  | ENG_FAULT_TICK_LO
  | ENG_FAULT_TICK_HI
  | PWR_LIMIT
  | PWR_BUDGET
  | PWR_STATUS
  | PWR_CFG
  | PWR_COST
  | PWR_GRANT
  | PWR_DIE
  | PWR_HR
  | MBX_DOORBELL
  | MBX_CONSUME
  | MBX_ACK
  | MBX_RESULT
  | MBX_BULK_OWN
  | MBX_ROOT_MASK
  | MBX_STATUS
  | GLB_FAULT
  | GLB_FAULT_TICK_LO
  | GLB_FAULT_TICK_HI
  | GLB_FAULT_INJECT
  | GLB_CC_STATUS
  | PMC_CFG
  | PMC_GROUPS
  | PMC_BASE_LO
  | PMC_BASE_HI
  | PMC_CTRL
  | PMC_STATUS
  | PMC_SEQ_LO
  | PMC_SEQ_HI
  | PMC_SLOT_SIZE
  | PMC_USER_EN
  | EVR_CTRL
  | EVR_STATUS
  | EVR_FROZEN_CNT
  | EVR_RD_SEL
  | EVR_RATE
  | EVR_SUPP_CNT
  | EVR_RD_DATA
  | EVR_PROF_MATCH
  | EVR_PROF_CFG
  | EVR_PROF_REG
  | NVS_STATUS
  | NVS_WORN_IDX
  | NVS_WORD
  | NVS_WEAR
  | SEC_STATUS
  | SEC_SVN
  | SEC_UID
  | SEC_NONCE_LO
  | SEC_NONCE_HI
  | GLB_ID
  | GLB_FW_VERSION
  | GLB_CAPS0
  | GLB_CAPS1
  | GLB_ERR
  | GLB_ERR_ADDR
  | MBX_A
  | MBX_B
  deriving DecidableEq, Repr

/-- The key a register has in the register file: its place in the list above. -/
def Reg.code (r : Reg) : Nat := r.ctorIdx

/-- A field: bits `lo` to `lo + w - 1` of a register. -/
structure Fld where
  reg : Reg
  lo : Nat
  w : Nat
  deriving DecidableEq, Repr

/-- The fields of each register: lowest bit, width, access code. Reserved bits (R12) are not listed. -/
def Reg.fields : Reg → List (Nat × Nat × Acc)
  | .TCK_NOW_LO => [(0, 32, .ro)]
  | .TCK_NOW_HI => [(0, 32, .ro)]
  | .TCK_STATUS => [(28, 4, .ro), (16, 4, .ro), (8, 8, .ro), (7, 1, .ro), (6, 1, .ro), (5, 1, .rw1c), (4, 1, .rw1c), (3, 1, .rw1c)]
  | .TCK_PARENT => [(31, 1, .rw), (30, 1, .rw), (16, 8, .rw), (8, 8, .rw), (0, 8, .ro)]
  | .TCK_HOLD => [(0, 1, .rw)]
  | .TCK_OVR_CNT => [(0, 32, .rc)]
  | .TCK_PDLY => [(24, 8, .rw), (0, 24, .ro)]
  | .PHY_CTRL => [(31, 1, .wo), (24, 4, .rw), (16, 2, .rw), (9, 1, .wo), (8, 1, .wo), (0, 1, .rw)]
  | .PHY_CFG => [(31, 1, .rw), (30, 1, .rw), (29, 1, .rw), (24, 2, .rw), (20, 4, .rw), (8, 8, .rw), (0, 8, .rw)]
  | .PHY_STATUS => [(28, 4, .ro), (24, 4, .ro), (16, 8, .ro), (12, 4, .ro), (8, 4, .ro), (6, 2, .ro), (5, 1, .ro), (4, 1, .ro), (3, 1, .rw1c), (2, 1, .ro)]
  | .PHY_LANE_STATUS => [(24, 8, .ro), (20, 4, .ro), (19, 1, .ro), (17, 2, .ro), (16, 1, .ro), (8, 8, .ro), (0, 8, .ro)]
  | .PHY_TXEQ => [(16, 5, .rw), (8, 4, .rw), (0, 7, .ro)]
  | .PHY_PRBS_ERR => [(0, 32, .rc)]
  | .PHY_CORR_LO => [(0, 32, .ro)]
  | .PHY_CORR_HI => [(0, 16, .ro)]
  | .PHY_MODULE => [(16, 16, .ro), (12, 4, .ro), (8, 4, .ro), (5, 3, .ro), (0, 1, .ro)]
  | .PHY_BRINGUP_TIME => [(0, 32, .ro)]
  | .PHY_COUNTS => [(16, 16, .rc), (0, 16, .rc)]
  | .LNK_CTRL => [(31, 1, .wo)]
  | .LNK_CFG => [(31, 1, .rw), (30, 1, .rw), (29, 1, .rw), (24, 5, .rw), (20, 4, .rw), (0, 16, .rw)]
  | .LNK_REPLAY_TO => [(16, 16, .ro), (0, 16, .rw)]
  | .LNK_STATUS => [(30, 2, .ro), (29, 1, .ro), (28, 1, .ro), (27, 1, .ro), (26, 1, .rw1c), (25, 1, .rw1c)]
  | .LNK_SEQ => [(16, 16, .ro), (0, 16, .ro)]
  | .LNK_STORE => [(16, 14, .ro), (0, 10, .ro)]
  | .LNK_PEER => [(31, 1, .ro), (17, 8, .ro), (0, 17, .ro)]
  | .LNK_EPOCH => [(16, 16, .ro), (0, 16, .ro)]
  | .LNK_VC_ALLOC => [(16, 16, .ro), (0, 16, .rw)]
  | .LNK_VC_CREDIT => [(0, 17, .ro)]
  | .LNK_VC_PEER => [(16, 16, .ro), (0, 16, .ro)]
  | .SWC_CFG => [(0, 5, .rw)]
  | .SWC_BUF => [(0, 20, .ro)]
  | .SWC_BUF_FREE => [(0, 20, .ro)]
  | .SWC_STATUS => [(2, 1, .rw1c), (1, 1, .rw1c), (0, 1, .rw1c)]
  | .SWC_RSV => [(16, 16, .rw), (0, 16, .rw)]
  | .SWC_FAB_RSV => [(0, 20, .ro)]
  | .SWC_OCC => [(0, 20, .ro)]
  | .SCH_CLASS => [(8, 8, .rw), (0, 8, .rw)]
  | .SCH_MARK => [(0, 16, .rw)]
  | .SCH_SHAPE => [(31, 1, .rw), (30, 1, .wo), (14, 14, .rw), (0, 12, .rw)]
  | .SCH_TOKENS => [(0, 24, .ro)]
  | .SCH_DEPTH => [(0, 20, .ro)]
  | .SCH_OBS_CTRL => [(0, 1, .wo)]
  | .SCH_DEPTH_RANGE => [(16, 16, .ro), (0, 16, .ro)]
  | .SCH_DEPTH_MEAN => [(0, 24, .ro)]
  | .SCH_DELAY_MIN => [(0, 24, .ro)]
  | .SCH_DELAY_MAX => [(0, 24, .ro)]
  | .SCH_DELAY_MEAN => [(0, 32, .ro)]
  | .SCH_DELAY_SAMPLES => [(0, 32, .ro)]
  | .SCH_DEPTH_HIST => [(0, 32, .ro)]
  | .SCH_DELAY_HIST => [(0, 32, .ro)]
  | .RTE_ID => [(31, 1, .rw), (0, 17, .rw)]
  | .RTE_CFG => [(30, 2, .rw), (27, 3, .rw), (24, 3, .rw), (20, 4, .rw), (0, 16, .rw)]
  | .RTE_BIAS => [(16, 8, .rw), (8, 8, .rw), (0, 8, .rw)]
  | .RTE_ROLE => [(30, 2, .ro), (29, 1, .ro), (0, 17, .ro)]
  | .RTE_TERM => [(0, 32, .ro)]
  | .RTE_TBL_CTRL => [(31, 1, .wo), (30, 1, .wo), (0, 16, .rw)]
  | .RTE_TBL_STATUS => [(16, 16, .ro), (3, 1, .rw1c), (2, 1, .ro), (1, 1, .ro), (0, 1, .ro)]
  | .RTE_ACT_LO => [(0, 32, .rw)]
  | .RTE_ACT_HI => [(0, 32, .rw)]
  | .RTE_LIVE => [(0, 32, .ro)]
  | .RTE_ADMIN_OUT => [(0, 32, .rw)]
  | .RTE_PORT => [(16, 4, .rw), (0, 1, .rw)]
  | .RTE_EP => [(0, 8, .rw)]
  | .RTE_DIGEST_OUT_LO => [(0, 32, .ro)]
  | .RTE_DIGEST_OUT_HI => [(0, 32, .ro)]
  | .RTE_DIGEST_IN_LO => [(0, 32, .ro)]
  | .RTE_DIGEST_IN_HI => [(0, 32, .ro)]
  | .TRN_CFG => [(24, 8, .rw), (16, 8, .rw), (0, 16, .rw)]
  | .TRN_DEFAULTS => [(14, 4, .rw), (0, 14, .rw)]
  | .TRN_STATUS => [(3, 1, .rw1c), (2, 1, .rw1c), (1, 1, .rw1c), (0, 1, .rw1c)]
  | .TRN_CACHE => [(17, 15, .ro), (0, 17, .ro)]
  | .TRN_MISS => [(16, 13, .rc), (0, 13, .ro)]
  | .TRN_REORDER => [(16, 16, .rc), (0, 16, .ro)]
  | .TRN_CTX_TIER_LO => [(12, 20, .rw), (3, 5, .rw), (1, 2, .rw)]
  | .TRN_CTX_TIER_HI => [(0, 25, .rw)]
  | .TRN_RC => [(31, 1, .rw), (16, 8, .rw), (0, 12, .rw)]
  | .TRN_RC_RATE => [(16, 16, .rw), (0, 16, .rw)]
  | .WQ_SEL => [(31, 1, .ro), (0, 16, .rw)]
  | .WQ_STATUS => [(1, 1, .rw1c), (0, 1, .rw1c)]
  | .WQ_Q_BASE_LO => [(12, 20, .rw)]
  | .WQ_Q_BASE_HI => [(0, 25, .rw)]
  | .WQ_Q_CFG => [(30, 2, .rw), (29, 1, .rw), (24, 5, .rw), (23, 1, .rw), (0, 16, .rw)]
  | .WQ_Q_BIND => [(16, 16, .rw), (0, 16, .rw)]
  | .WQ_Q_CTRL => [(31, 1, .rw), (30, 1, .wo)]
  | .WQ_Q_STATUS => [(29, 3, .ro), (28, 1, .ro), (0, 17, .ro)]
  | .WQ_Q_INFLIGHT => [(0, 17, .ro)]
  | .WQ_EQ_COAL => [(21, 11, .rw), (16, 5, .rw), (0, 16, .rw)]
  | .XLT_RGN_SEL => [(31, 1, .ro), (0, 17, .rw)]
  | .XLT_RGN_RANGE => [(8, 8, .rw), (0, 7, .rw)]
  | .XLT_RGN_ATTR => [(31, 1, .rw), (30, 1, .rw), (15, 15, .rw), (7, 8, .rw), (0, 6, .rw)]
  | .XLT_RGN_OWNER => [(16, 16, .rw), (0, 16, .rw)]
  | .XLT_RGN_BASE_LO => [(0, 32, .rw)]
  | .XLT_RGN_BASE_HI => [(0, 25, .rw)]
  | .XLT_RGN_LEN_LO => [(0, 32, .rw)]
  | .XLT_RGN_LEN_HI => [(0, 16, .rw)]
  | .XLT_RGN_PARENT => [(24, 8, .rw), (0, 17, .rw)]
  | .XLT_RGN_CMD => [(31, 1, .wo), (30, 1, .wo)]
  | .XLT_PROT_STATUS => [(16, 13, .ro), (2, 1, .rw1c), (1, 1, .rw1c)]
  | .XLT_PROT_SETTLED_LO => [(0, 32, .ro)]
  | .XLT_PROT_SETTLED_HI => [(0, 32, .ro)]
  | .MTE_CFG => [(0, 17, .rw)]
  | .MTE_STATUS => [(3, 1, .rw1c), (2, 1, .rw1c), (1, 1, .rw1c), (0, 1, .rw1c)]
  | .MTE_SPILL_LO => [(12, 20, .rw), (3, 5, .rw), (1, 2, .rw)]
  | .MTE_SPILL_HI => [(0, 25, .rw)]
  | .MTE_SPILL_SIZE => [(0, 9, .rw)]
  | .MTE_SPILL_OCC => [(0, 25, .ro)]
  | .MTE_SEL => [(31, 1, .ro), (0, 16, .rw)]
  | .MTE_CTX_CFG => [(31, 1, .rw), (26, 5, .rw), (16, 4, .rw), (0, 16, .rw)]
  | .MTE_CTX_UX_LO => [(12, 20, .rw)]
  | .MTE_CTX_UX_HI => [(0, 25, .rw)]
  | .MTE_CTX_SLOTS => [(0, 16, .rw)]
  | .MTE_CTX_LIMIT => [(0, 25, .rw)]
  | .MTE_CTX_CTRL => [(31, 1, .rw)]
  | .MTE_CTX_STATUS => [(30, 2, .ro), (0, 25, .ro)]
  | .MTE_CTX_UX_USED => [(0, 16, .ro)]
  | .MTE_HR_OCC => [(0, 13, .ro)]
  | .MTE_RDV => [(0, 17, .ro)]
  | .COL_CAPS => [(16, 1, .ro), (0, 13, .ro)]
  | .COL_STATUS => [(3, 1, .rw1c), (2, 1, .rw1c), (1, 1, .rw1c), (0, 1, .rw1c)]
  | .COL_GRP_SEL => [(0, 12, .rw)]
  | .COL_GRP_CFG => [(31, 1, .rw), (30, 1, .rw), (22, 8, .rw), (14, 8, .rw), (0, 14, .rw)]
  | .COL_GRP_MEMBERS => [(0, 31, .rw)]
  | .COL_GRP_CHILD => [(0, 32, .rw)]
  | .COL_GRP_CTRL => [(31, 1, .wo), (30, 1, .wo), (16, 5, .rw), (0, 16, .rw)]
  | .COL_GRP_STATUS => [(30, 2, .ro), (16, 8, .ro), (0, 16, .ro)]
  | .COL_GRP_FLOW => [(0, 24, .ro)]
  | .COL_UNIT => [(16, 13, .ro), (0, 11, .ro)]
  | .XLT_CTX_SEL => [(31, 1, .ro), (0, 16, .rw)]
  | .XLT_CTX_CFG => [(31, 1, .rw), (29, 2, .rw), (28, 1, .rw), (26, 2, .rw), (25, 1, .rw), (20, 5, .rw)]
  | .XLT_CTX_ROOT_LO => [(12, 20, .rw)]
  | .XLT_CTX_ROOT_HI => [(0, 25, .rw)]
  | .XLT_CTX_STATUS => [(30, 2, .ro), (0, 11, .ro)]
  | .XLT_INV_CTRL => [(30, 2, .rw), (29, 1, .wo), (16, 6, .rw), (0, 16, .rw)]
  | .XLT_INV_ADDR_LO => [(12, 20, .rw)]
  | .XLT_INV_ADDR_HI => [(0, 25, .rw)]
  | .XLT_INV_TOKEN => [(16, 16, .ro), (0, 16, .ro)]
  | .XLT_STATUS => [(2, 1, .rw1c), (1, 1, .rw1c), (0, 1, .rw1c)]
  | .XLT_LOCK_CTRL => [(30, 2, .rw), (29, 1, .wo), (28, 1, .rw), (24, 4, .ro), (22, 2, .rw), (0, 16, .rw)]
  | .XLT_LOCK_ADDR_LO => [(12, 20, .rw)]
  | .XLT_LOCK_ADDR_HI => [(0, 25, .rw)]
  | .XLT_LOCK_ENTRY_LO => [(0, 32, .rw)]
  | .XLT_LOCK_ENTRY_HI => [(0, 32, .rw)]
  | .XLT_LOCK_COUNT => [(0, 11, .ro)]
  | .XLT_FAULT_INFO => [(31, 1, .rw1c), (30, 1, .rw1c), (29, 1, .ro), (27, 2, .ro), (24, 3, .ro), (20, 4, .ro), (0, 16, .ro)]
  | .XLT_FAULT_VA_LO => [(0, 32, .ro)]
  | .XLT_FAULT_VA_HI => [(0, 25, .ro)]
  | .XLT_FAULT_TBL_LO => [(12, 20, .ro)]
  | .XLT_FAULT_TBL_HI => [(0, 25, .ro)]
  | .XLT_HR_MODE => [(4, 5, .ro), (0, 1, .rw)]
  | .XLT_HMEM_BASE_LO => [(12, 20, .rw), (0, 1, .rw)]
  | .XLT_HMEM_BASE_HI => [(0, 25, .rw)]
  | .XLT_HMEM_LIMIT_LO => [(12, 20, .rw)]
  | .XLT_HMEM_LIMIT_HI => [(0, 25, .rw)]
  | .MBR_CAPS => [(22, 5, .ro), (16, 6, .ro), (0, 16, .ro)]
  | .MBR_CFG => [(31, 1, .rw), (16, 12, .rw), (0, 16, .rw)]
  | .MBR_STATUS => [(3, 1, .rw1c), (2, 1, .rw1c), (1, 1, .rw1c), (0, 1, .rw1c)]
  | .MBR_DIR_LO => [(12, 20, .rw), (0, 5, .rw)]
  | .MBR_DIR_HI => [(0, 25, .rw)]
  | .MBR_HIER_SEL => [(31, 1, .ro), (0, 5, .rw)]
  | .MBR_HIER_WIN => [(31, 1, .rw), (0, 19, .rw)]
  | .MBR_HIER_CTX => [(0, 16, .rw)]
  | .MBR_HIER_STATUS => [(30, 2, .ro), (15, 15, .ro), (0, 15, .ro)]
  | .MBR_PSET_SEL => [(0, 12, .rw)]
  | .MBR_PSET_HOME => [(0, 22, .ro)]
  | .MBR_PSET_CONN => [(31, 1, .ro), (0, 24, .ro)]
  | .MBR_PSET_STATUS => [(30, 2, .ro), (0, 4, .ro)]
  | .HSW_CAPS => [(16, 2, .ro), (0, 13, .ro)]
  | .HSW_CFG => [(16, 5, .rwp), (0, 16, .rw)]
  | .HSW_STATUS => [(4, 1, .rw1c), (3, 1, .rw1c), (2, 1, .rw1c), (1, 1, .rw1c), (0, 1, .rw1c)]
  | .HSW_GRP_CFG => [(31, 1, .rwp), (16, 4, .rwp), (0, 2, .rwp)]
  | .HSW_PORT_CFG => [(30, 2, .rwp), (25, 5, .rwp)]
  | .HSW_PORT_STATUS => [(29, 3, .ro), (25, 4, .ro), (20, 5, .ro), (19, 1, .ro), (18, 1, .ro), (17, 1, .ro), (16, 1, .ro), (0, 7, .ro)]
  | .HSW_HIER => [(31, 1, .ro), (30, 1, .ro), (24, 6, .ro), (16, 8, .rw), (0, 6, .ro)]
  | .HSW_P2P_LO => [(0, 32, .rw)]
  | .HSW_P2P_HI => [(0, 16, .rw)]
  | .HSW_TUN_SEL => [(0, 6, .rw)]
  | .HSW_TUN_STATUS => [(30, 2, .ro), (29, 1, .ro), (24, 5, .ro), (16, 5, .ro), (0, 6, .ro)]
  | .HSW_TUN_PEER => [(22, 6, .ro), (0, 22, .ro)]
  | .HSW_TUN_CONN => [(0, 24, .ro)]
  | .ENG_CAPS => [(24, 3, .ro), (16, 8, .ro), (0, 11, .ro)]
  | .ENG_CFG => [(16, 16, .rw), (0, 4, .rw)]
  | .ENG_STATUS => [(2, 1, .rw1c), (1, 1, .rw1c), (0, 1, .rw1c)]
  | .ENG_PKG_SEL => [(0, 3, .rw)]
  | .ENG_PKG_STATUS => [(30, 2, .ro), (8, 5, .ro), (0, 8, .ro)]
  | .ENG_PKG_ID => [(16, 16, .ro), (0, 16, .ro)]
  | .ENG_PKG_HR_LO => [(0, 32, .ro)]
  | .ENG_PKG_HR_HI => [(0, 32, .ro)]
  | .ENG_PKG_COST => [(0, 16, .ro)]
  | .ENG_HR_ENG => [(16, 16, .ro), (0, 16, .ro)]
  | .ENG_FAULT_INFO => [(31, 1, .rw1c), (30, 1, .rw1c), (24, 3, .ro), (20, 4, .ro), (0, 10, .ro)]
  | .ENG_FAULT_TICK_LO => [(0, 32, .ro)]
  | .ENG_FAULT_TICK_HI => [(0, 32, .ro)]
  | .PWR_LIMIT => [(0, 10, .rw)]
  | .PWR_BUDGET => [(20, 9, .ro), (0, 20, .ro)]
  | .PWR_STATUS => [(31, 1, .rw1c), (30, 1, .rw1c), (29, 1, .rw1c), (0, 20, .ro)]
  | .PWR_CFG => [(16, 16, .rw), (8, 8, .rw), (0, 8, .rw)]
  | .PWR_COST => [(0, 16, .rw)]
  | .PWR_GRANT => [(16, 16, .ro), (0, 16, .ro)]
  | .PWR_DIE => [(28, 4, .ro), (0, 8, .ro)]
  | .PWR_HR => [(30, 2, .ro), (28, 2, .rw), (27, 1, .rw), (24, 3, .ro), (0, 9, .ro)]
  | .MBX_DOORBELL => [(16, 16, .wo), (0, 5, .wo)]
  | .MBX_CONSUME => [(16, 16, .wo)]
  | .MBX_ACK => [(16, 16, .ro), (15, 1, .ro), (0, 8, .ro)]
  | .MBX_RESULT => [(31, 1, .ro), (29, 2, .ro), (24, 5, .ro), (16, 8, .ro), (0, 16, .ro)]
  | .MBX_BULK_OWN => [(0, 32, .rw1s)]
  | .MBX_ROOT_MASK => [(0, 24, .rwp)]
  | .MBX_STATUS => [(1, 1, .rw1c), (0, 1, .rw1c)]
  | .GLB_FAULT => [(31, 1, .ro), (30, 1, .rw1c), (29, 1, .rw1c), (28, 1, .rw1c), (16, 8, .ro), (0, 16, .ro)]
  | .GLB_FAULT_TICK_LO => [(0, 32, .ro)]
  | .GLB_FAULT_TICK_HI => [(0, 32, .ro)]
  | .GLB_FAULT_INJECT => [(1, 1, .wo), (0, 1, .wo)]
  | .GLB_CC_STATUS => [(30, 2, .ro), (27, 3, .ro), (16, 11, .rc), (8, 8, .ro), (0, 8, .ro)]
  | .PMC_CFG => [(31, 1, .rw), (30, 1, .rw), (25, 5, .rw), (16, 4, .rw), (0, 16, .rw)]
  | .PMC_GROUPS => [(0, 13, .rw)]
  | .PMC_BASE_LO => [(12, 20, .rw)]
  | .PMC_BASE_HI => [(0, 25, .rw)]
  | .PMC_CTRL => [(31, 1, .wo)]
  | .PMC_STATUS => [(2, 1, .ro), (1, 1, .rw1c), (0, 1, .rw1c)]
  | .PMC_SEQ_LO => [(0, 32, .ro)]
  | .PMC_SEQ_HI => [(0, 32, .ro)]
  | .PMC_SLOT_SIZE => [(0, 32, .ro)]
  | .PMC_USER_EN => [(1, 1, .rw), (0, 1, .rw)]
  | .EVR_CTRL => [(31, 1, .rw), (30, 1, .wo), (29, 1, .wo)]
  | .EVR_STATUS => [(31, 1, .ro), (30, 1, .rw1c), (16, 8, .ro), (0, 16, .ro)]
  | .EVR_FROZEN_CNT => [(0, 32, .rc)]
  | .EVR_RD_SEL => [(31, 1, .rw), (0, 12, .rw)]
  | .EVR_RATE => [(16, 16, .rw), (0, 16, .rw)]
  | .EVR_SUPP_CNT => [(0, 32, .rc)]
  | .EVR_RD_DATA => [(0, 32, .ro)]
  | .EVR_PROF_MATCH => [(16, 16, .rw), (0, 16, .rw)]
  | .EVR_PROF_CFG => [(31, 1, .rw), (30, 1, .rw), (29, 1, .rw), (0, 5, .rw)]
  | .EVR_PROF_REG => [(2, 23, .rw)]
  | .NVS_STATUS => [(31, 1, .ro), (30, 1, .rw1c), (29, 1, .rw1c), (0, 5, .ro)]
  | .NVS_WORN_IDX => [(31, 1, .ro), (0, 9, .ro)]
  | .NVS_WORD => [(0, 32, .rwp)]
  | .NVS_WEAR => [(0, 17, .ro)]
  | .SEC_STATUS => [(30, 2, .ro), (29, 1, .ro), (28, 1, .ro), (27, 1, .ro), (26, 1, .ro), (24, 2, .ro), (16, 8, .ro), (8, 8, .ro), (2, 2, .ro), (0, 2, .ro)]
  | .SEC_SVN => [(0, 7, .ro)]
  | .SEC_UID => [(0, 32, .ro)]
  | .SEC_NONCE_LO => [(0, 32, .ro)]
  | .SEC_NONCE_HI => [(0, 32, .ro)]
  | .GLB_ID => [(16, 16, .ro), (12, 4, .ro), (8, 4, .ro), (0, 2, .ro)]
  | .GLB_FW_VERSION => [(24, 8, .ro), (16, 8, .ro), (0, 16, .ro)]
  | .GLB_CAPS0 => [(31, 1, .ro), (30, 1, .ro), (29, 1, .ro), (24, 4, .ro), (22, 2, .ro), (8, 8, .ro), (0, 8, .ro)]
  | .GLB_CAPS1 => [(27, 5, .ro), (14, 13, .ro), (8, 6, .ro), (4, 4, .ro), (3, 1, .ro), (2, 1, .ro)]
  | .GLB_ERR => [(1, 1, .rw1c), (0, 1, .rw1c)]
  | .GLB_ERR_ADDR => [(31, 1, .ro), (0, 25, .ro)]
  | .MBX_A => [(0, 32, .rw)]
  | .MBX_B => [(0, 32, .ro)]

/-- The word a register resets to (R526). Strap, Stored and Fuse fields are 0 here: boot fills them, or
the log says what stands there; the nonce is a free value. `i` is the index within the array. -/
def Reg.resetWord (part : Part) (i : Nat) : Reg → Word
  | .TCK_NOW_LO => 0#32
  | .TCK_NOW_HI => 0#32
  | .TCK_STATUS => 0#32
  | .TCK_PARENT => 0xffffff#32
  | .TCK_HOLD => 0#32
  | .TCK_OVR_CNT => 0#32
  | .TCK_PDLY => 0#32
  | .PHY_CTRL => 0#32
  | .PHY_CFG => 0x62804086#32
  | .PHY_STATUS => 0#32
  | .PHY_LANE_STATUS => 0#32
  | .PHY_TXEQ => 0x40#32
  | .PHY_PRBS_ERR => 0#32
  | .PHY_CORR_LO => 0#32
  | .PHY_CORR_HI => 0#32
  | .PHY_MODULE => 0#32
  | .PHY_BRINGUP_TIME => 0#32
  | .PHY_COUNTS => 0#32
  | .LNK_CTRL => 0#32
  | .LNK_CFG => 0xd0800004#32
  | .LNK_REPLAY_TO => 0x7d0#32
  | .LNK_STATUS => 0#32
  | .LNK_SEQ => 0#32
  | .LNK_STORE => 0#32
  | .LNK_PEER => 0#32
  | .LNK_EPOCH => 0#32
  | .LNK_VC_ALLOC => 0x40#32
  | .LNK_VC_CREDIT => 0#32
  | .LNK_VC_PEER => 0#32
  | .SWC_CFG => 0xc#32
  | .SWC_BUF => BitVec.ofNat 32 part.poolReset
  | .SWC_BUF_FREE => BitVec.ofNat 32 part.poolReset
  | .SWC_STATUS => 0#32
  | .SWC_RSV => 0x1000800#32
  | .SWC_FAB_RSV => 0#32
  | .SWC_OCC => 0#32
  | .SCH_CLASS => 0x101#32
  | .SCH_MARK => 0x100#32
  | .SCH_SHAPE => 0x24#32
  | .SCH_TOKENS => 0x2400#32
  | .SCH_DEPTH => 0#32
  | .SCH_OBS_CTRL => 0#32
  | .SCH_DEPTH_RANGE => 0xffff#32
  | .SCH_DEPTH_MEAN => 0#32
  | .SCH_DELAY_MIN => 0xffffff#32
  | .SCH_DELAY_MAX => 0#32
  | .SCH_DELAY_MEAN => 0#32
  | .SCH_DELAY_SAMPLES => 0#32
  | .SCH_DEPTH_HIST => 0#32
  | .SCH_DELAY_HIST => 0#32
  | .RTE_ID => 0#32
  | .RTE_CFG => 0x3670061a#32
  | .RTE_BIAS => 0x40201#32
  | .RTE_ROLE => 0#32
  | .RTE_TERM => 0#32
  | .RTE_TBL_CTRL => 0#32
  | .RTE_TBL_STATUS => 0x1#32
  | .RTE_ACT_LO => 0#32
  | .RTE_ACT_HI => 0#32
  | .RTE_LIVE => 0#32
  | .RTE_ADMIN_OUT => 0#32
  | .RTE_PORT => 0#32
  | .RTE_EP => if i = 31 then 156#32 else 255#32
  | .RTE_DIGEST_OUT_LO => 0#32
  | .RTE_DIGEST_OUT_HI => 0#32
  | .RTE_DIGEST_IN_LO => 0#32
  | .RTE_DIGEST_IN_HI => 0#32
  | .TRN_CFG => 0x101003e8#32
  | .TRN_DEFAULTS => 0x1c096#32
  | .TRN_STATUS => 0#32
  | .TRN_CACHE => 0#32
  | .TRN_MISS => 0#32
  | .TRN_REORDER => 0#32
  | .TRN_CTX_TIER_LO => 0#32
  | .TRN_CTX_TIER_HI => 0#32
  | .TRN_RC => 0x200040#32 ||| (if i < 3 then 2147483648#32 else 0#32)
  | .TRN_RC_RATE => 0xf2800040#32
  | .WQ_SEL => 0#32
  | .WQ_STATUS => 0#32
  | .WQ_Q_BASE_LO => 0#32
  | .WQ_Q_BASE_HI => 0#32
  | .WQ_Q_CFG => 0#32
  | .WQ_Q_BIND => 0#32
  | .WQ_Q_CTRL => 0#32
  | .WQ_Q_STATUS => 0#32
  | .WQ_Q_INFLIGHT => 0#32
  | .WQ_EQ_COAL => 0x10000#32
  | .XLT_RGN_SEL => 0#32
  | .XLT_RGN_RANGE => 0#32
  | .XLT_RGN_ATTR => 0#32
  | .XLT_RGN_OWNER => 0#32
  | .XLT_RGN_BASE_LO => 0#32
  | .XLT_RGN_BASE_HI => 0#32
  | .XLT_RGN_LEN_LO => 0#32
  | .XLT_RGN_LEN_HI => 0#32
  | .XLT_RGN_PARENT => 0#32
  | .XLT_RGN_CMD => 0#32
  | .XLT_PROT_STATUS => 0#32
  | .XLT_PROT_SETTLED_LO => 0#32
  | .XLT_PROT_SETTLED_HI => 0#32
  | .MTE_CFG => 0x2000#32
  | .MTE_STATUS => 0#32
  | .MTE_SPILL_LO => 0#32
  | .MTE_SPILL_HI => 0#32
  | .MTE_SPILL_SIZE => 0#32
  | .MTE_SPILL_OCC => 0#32
  | .MTE_SEL => 0#32
  | .MTE_CTX_CFG => 0xc0000#32
  | .MTE_CTX_UX_LO => 0#32
  | .MTE_CTX_UX_HI => 0#32
  | .MTE_CTX_SLOTS => 0#32
  | .MTE_CTX_LIMIT => 0x1000#32
  | .MTE_CTX_CTRL => 0#32
  | .MTE_CTX_STATUS => 0#32
  | .MTE_CTX_UX_USED => 0#32
  | .MTE_HR_OCC => 0#32
  | .MTE_RDV => 0#32
  | .COL_CAPS => 0x1000#32 ||| (if part.hasXac then 65536#32 else 0#32)
  | .COL_STATUS => 0#32
  | .COL_GRP_SEL => 0#32
  | .COL_GRP_CFG => 0x3fd00000#32
  | .COL_GRP_MEMBERS => 0#32
  | .COL_GRP_CHILD => 0#32
  | .COL_GRP_CTRL => 0#32
  | .COL_GRP_STATUS => 0#32
  | .COL_GRP_FLOW => 0#32
  | .COL_UNIT => 0#32
  | .XLT_CTX_SEL => 0#32
  | .XLT_CTX_CFG => 0#32
  | .XLT_CTX_ROOT_LO => 0#32
  | .XLT_CTX_ROOT_HI => 0#32
  | .XLT_CTX_STATUS => 0#32
  | .XLT_INV_CTRL => 0#32
  | .XLT_INV_ADDR_LO => 0#32
  | .XLT_INV_ADDR_HI => 0#32
  | .XLT_INV_TOKEN => 0#32
  | .XLT_STATUS => 0#32
  | .XLT_LOCK_CTRL => 0#32
  | .XLT_LOCK_ADDR_LO => 0#32
  | .XLT_LOCK_ADDR_HI => 0#32
  | .XLT_LOCK_ENTRY_LO => 0#32
  | .XLT_LOCK_ENTRY_HI => 0#32
  | .XLT_LOCK_COUNT => 0#32
  | .XLT_FAULT_INFO => 0#32
  | .XLT_FAULT_VA_LO => 0#32
  | .XLT_FAULT_VA_HI => 0#32
  | .XLT_FAULT_TBL_LO => 0#32
  | .XLT_FAULT_TBL_HI => 0#32
  | .XLT_HR_MODE => 0#32
  | .XLT_HMEM_BASE_LO => 0#32
  | .XLT_HMEM_BASE_HI => 0#32
  | .XLT_HMEM_LIMIT_LO => 0#32
  | .XLT_HMEM_LIMIT_HI => 0#32
  | .MBR_CAPS => 0x5a04000#32
  | .MBR_CFG => 0xc350000#32
  | .MBR_STATUS => 0#32
  | .MBR_DIR_LO => 0#32
  | .MBR_DIR_HI => 0#32
  | .MBR_HIER_SEL => 0#32
  | .MBR_HIER_WIN => 0#32
  | .MBR_HIER_CTX => 0#32
  | .MBR_HIER_STATUS => 0#32
  | .MBR_PSET_SEL => 0#32
  | .MBR_PSET_HOME => 0#32
  | .MBR_PSET_CONN => 0#32
  | .MBR_PSET_STATUS => 0#32
  | .HSW_CAPS => 0x1000#32 ||| BitVec.ofNat 32 (part.hlDies * 65536)
  | .HSW_CFG => 0#32
  | .HSW_STATUS => 0#32
  | .HSW_GRP_CFG => 0#32
  | .HSW_PORT_CFG => 0#32
  | .HSW_PORT_STATUS => 0x7f#32
  | .HSW_HIER => 0x3f000000#32
  | .HSW_P2P_LO => 0#32
  | .HSW_P2P_HI => 0#32
  | .HSW_TUN_SEL => 0#32
  | .HSW_TUN_STATUS => 0#32
  | .HSW_TUN_PEER => 0#32
  | .HSW_TUN_CONN => 0#32
  | .ENG_CAPS => 0x6400400#32
  | .ENG_CFG => 0x400008#32
  | .ENG_STATUS => 0#32
  | .ENG_PKG_SEL => 0#32
  | .ENG_PKG_STATUS => 0#32
  | .ENG_PKG_ID => 0#32
  | .ENG_PKG_HR_LO => 0#32
  | .ENG_PKG_HR_HI => 0#32
  | .ENG_PKG_COST => 0#32
  | .ENG_HR_ENG => 0#32
  | .ENG_FAULT_INFO => 0#32
  | .ENG_FAULT_TICK_LO => 0#32
  | .ENG_FAULT_TICK_HI => 0#32
  | .PWR_LIMIT => 0x230#32
  | .PWR_BUDGET => 0#32
  | .PWR_STATUS => 0#32
  | .PWR_CFG => 0x61a405f#32
  | .PWR_COST => Part.costReset i
  | .PWR_GRANT => 0#32
  | .PWR_DIE => 0x80000000#32
  | .PWR_HR => 0x20000000#32
  | .MBX_DOORBELL => 0#32
  | .MBX_CONSUME => 0#32
  | .MBX_ACK => 0#32
  | .MBX_RESULT => 0#32
  | .MBX_BULK_OWN => 0#32
  | .MBX_ROOT_MASK => 0#32
  | .MBX_STATUS => 0#32
  | .GLB_FAULT => 0#32
  | .GLB_FAULT_TICK_LO => 0#32
  | .GLB_FAULT_TICK_HI => 0#32
  | .GLB_FAULT_INJECT => 0#32
  | .GLB_CC_STATUS => 0#32
  | .PMC_CFG => 0x2061a#32
  | .PMC_GROUPS => 0x1fff#32
  | .PMC_BASE_LO => 0#32
  | .PMC_BASE_HI => 0#32
  | .PMC_CTRL => 0#32
  | .PMC_STATUS => 0#32
  | .PMC_SEQ_LO => 0#32
  | .PMC_SEQ_HI => 0#32
  | .PMC_SLOT_SIZE => 0x7000#32
  | .PMC_USER_EN => 0#32
  | .EVR_CTRL => 0#32
  | .EVR_STATUS => 0#32
  | .EVR_FROZEN_CNT => 0#32
  | .EVR_RD_SEL => 0#32
  | .EVR_RATE => 0x100010#32
  | .EVR_SUPP_CNT => 0#32
  | .EVR_RD_DATA => 0#32
  | .EVR_PROF_MATCH => 0#32
  | .EVR_PROF_CFG => 0#32
  | .EVR_PROF_REG => 0#32
  | .NVS_STATUS => 0#32
  | .NVS_WORN_IDX => 0#32
  | .NVS_WORD => 0#32
  | .NVS_WEAR => 0#32
  | .SEC_STATUS => 0xa0a00#32
  | .SEC_SVN => 0#32
  | .SEC_UID => 0#32
  | .SEC_NONCE_LO => (Config.freeWord (2 ^ 33)).setWidth 32
  | .SEC_NONCE_HI => (Config.freeWord (2 ^ 33 + 1)).setWidth 32
  | .GLB_ID => part.glbId
  | .GLB_FW_VERSION => 0#32
  | .GLB_CAPS0 => part.glbCaps0
  | .GLB_CAPS1 => part.glbCaps1
  | .GLB_ERR => 0#32
  | .GLB_ERR_ADDR => 0#32
  | .MBX_A => 0#32
  | .MBX_B => 0#32

/-- How the index of a register copy is found. -/
inductive Home where
  /-- One copy in the device. -/
  | device
  /-- One copy in each function (Table 20-4). -/
  | perFn
  /-- The copy of the object that a selector field of the reading function names. -/
  | sel (f : Fld)
  deriving DecidableEq, Repr

/-- Table 20-4 and the selector rules of the owning chapters. -/
def Reg.home : Reg → Home
  | .TCK_NOW_LO => .device
  | .TCK_NOW_HI => .device
  | .TCK_STATUS => .device
  | .TCK_PARENT => .device
  | .TCK_HOLD => .perFn
  | .TCK_OVR_CNT => .device
  | .TCK_PDLY => .device
  | .PHY_CTRL => .device
  | .PHY_CFG => .device
  | .PHY_STATUS => .device
  | .PHY_LANE_STATUS => .device
  | .PHY_TXEQ => .device
  | .PHY_PRBS_ERR => .device
  | .PHY_CORR_LO => .device
  | .PHY_CORR_HI => .device
  | .PHY_MODULE => .device
  | .PHY_BRINGUP_TIME => .device
  | .PHY_COUNTS => .device
  | .LNK_CTRL => .device
  | .LNK_CFG => .device
  | .LNK_REPLAY_TO => .device
  | .LNK_STATUS => .device
  | .LNK_SEQ => .device
  | .LNK_STORE => .device
  | .LNK_PEER => .device
  | .LNK_EPOCH => .device
  | .LNK_VC_ALLOC => .device
  | .LNK_VC_CREDIT => .device
  | .LNK_VC_PEER => .device
  | .SWC_CFG => .device
  | .SWC_BUF => .device
  | .SWC_BUF_FREE => .device
  | .SWC_STATUS => .device
  | .SWC_RSV => .device
  | .SWC_FAB_RSV => .device
  | .SWC_OCC => .device
  | .SCH_CLASS => .device
  | .SCH_MARK => .device
  | .SCH_SHAPE => .device
  | .SCH_TOKENS => .device
  | .SCH_DEPTH => .device
  | .SCH_OBS_CTRL => .device
  | .SCH_DEPTH_RANGE => .device
  | .SCH_DEPTH_MEAN => .device
  | .SCH_DELAY_MIN => .device
  | .SCH_DELAY_MAX => .device
  | .SCH_DELAY_MEAN => .device
  | .SCH_DELAY_SAMPLES => .device
  | .SCH_DEPTH_HIST => .device
  | .SCH_DELAY_HIST => .device
  | .RTE_ID => .device
  | .RTE_CFG => .device
  | .RTE_BIAS => .device
  | .RTE_ROLE => .device
  | .RTE_TERM => .device
  | .RTE_TBL_CTRL => .device
  | .RTE_TBL_STATUS => .device
  | .RTE_ACT_LO => .device
  | .RTE_ACT_HI => .device
  | .RTE_LIVE => .device
  | .RTE_ADMIN_OUT => .device
  | .RTE_PORT => .device
  | .RTE_EP => .device
  | .RTE_DIGEST_OUT_LO => .device
  | .RTE_DIGEST_OUT_HI => .device
  | .RTE_DIGEST_IN_LO => .device
  | .RTE_DIGEST_IN_HI => .device
  | .TRN_CFG => .device
  | .TRN_DEFAULTS => .device
  | .TRN_STATUS => .device
  | .TRN_CACHE => .device
  | .TRN_MISS => .device
  | .TRN_REORDER => .device
  | .TRN_CTX_TIER_LO => .device
  | .TRN_CTX_TIER_HI => .device
  | .TRN_RC => .device
  | .TRN_RC_RATE => .device
  | .WQ_SEL => .perFn
  | .WQ_STATUS => .perFn
  | .WQ_Q_BASE_LO => .sel ⟨.WQ_SEL, 0, 16⟩
  | .WQ_Q_BASE_HI => .sel ⟨.WQ_SEL, 0, 16⟩
  | .WQ_Q_CFG => .sel ⟨.WQ_SEL, 0, 16⟩
  | .WQ_Q_BIND => .sel ⟨.WQ_SEL, 0, 16⟩
  | .WQ_Q_CTRL => .sel ⟨.WQ_SEL, 0, 16⟩
  | .WQ_Q_STATUS => .sel ⟨.WQ_SEL, 0, 16⟩
  | .WQ_Q_INFLIGHT => .sel ⟨.WQ_SEL, 0, 16⟩
  | .WQ_EQ_COAL => .sel ⟨.WQ_SEL, 0, 16⟩
  | .XLT_RGN_SEL => .perFn
  | .XLT_RGN_RANGE => .perFn
  | .XLT_RGN_ATTR => .perFn
  | .XLT_RGN_OWNER => .perFn
  | .XLT_RGN_BASE_LO => .perFn
  | .XLT_RGN_BASE_HI => .perFn
  | .XLT_RGN_LEN_LO => .perFn
  | .XLT_RGN_LEN_HI => .perFn
  | .XLT_RGN_PARENT => .perFn
  | .XLT_RGN_CMD => .perFn
  | .XLT_PROT_STATUS => .device
  | .XLT_PROT_SETTLED_LO => .device
  | .XLT_PROT_SETTLED_HI => .device
  | .MTE_CFG => .device
  | .MTE_STATUS => .device
  | .MTE_SPILL_LO => .device
  | .MTE_SPILL_HI => .device
  | .MTE_SPILL_SIZE => .device
  | .MTE_SPILL_OCC => .device
  | .MTE_SEL => .perFn
  | .MTE_CTX_CFG => .sel ⟨.MTE_SEL, 0, 16⟩
  | .MTE_CTX_UX_LO => .sel ⟨.MTE_SEL, 0, 16⟩
  | .MTE_CTX_UX_HI => .sel ⟨.MTE_SEL, 0, 16⟩
  | .MTE_CTX_SLOTS => .sel ⟨.MTE_SEL, 0, 16⟩
  | .MTE_CTX_LIMIT => .sel ⟨.MTE_SEL, 0, 16⟩
  | .MTE_CTX_CTRL => .sel ⟨.MTE_SEL, 0, 16⟩
  | .MTE_CTX_STATUS => .sel ⟨.MTE_SEL, 0, 16⟩
  | .MTE_CTX_UX_USED => .sel ⟨.MTE_SEL, 0, 16⟩
  | .MTE_HR_OCC => .device
  | .MTE_RDV => .device
  | .COL_CAPS => .device
  | .COL_STATUS => .device
  | .COL_GRP_SEL => .perFn
  | .COL_GRP_CFG => .sel ⟨.COL_GRP_SEL, 0, 12⟩
  | .COL_GRP_MEMBERS => .sel ⟨.COL_GRP_SEL, 0, 12⟩
  | .COL_GRP_CHILD => .sel ⟨.COL_GRP_SEL, 0, 12⟩
  | .COL_GRP_CTRL => .sel ⟨.COL_GRP_SEL, 0, 12⟩
  | .COL_GRP_STATUS => .sel ⟨.COL_GRP_SEL, 0, 12⟩
  | .COL_GRP_FLOW => .sel ⟨.COL_GRP_SEL, 0, 12⟩
  | .COL_UNIT => .device
  | .XLT_CTX_SEL => .perFn
  | .XLT_CTX_CFG => .sel ⟨.XLT_CTX_SEL, 0, 16⟩
  | .XLT_CTX_ROOT_LO => .sel ⟨.XLT_CTX_SEL, 0, 16⟩
  | .XLT_CTX_ROOT_HI => .sel ⟨.XLT_CTX_SEL, 0, 16⟩
  | .XLT_CTX_STATUS => .sel ⟨.XLT_CTX_SEL, 0, 16⟩
  | .XLT_INV_CTRL => .perFn
  | .XLT_INV_ADDR_LO => .perFn
  | .XLT_INV_ADDR_HI => .perFn
  | .XLT_INV_TOKEN => .perFn
  | .XLT_STATUS => .perFn
  | .XLT_LOCK_CTRL => .perFn
  | .XLT_LOCK_ADDR_LO => .perFn
  | .XLT_LOCK_ADDR_HI => .perFn
  | .XLT_LOCK_ENTRY_LO => .perFn
  | .XLT_LOCK_ENTRY_HI => .perFn
  | .XLT_LOCK_COUNT => .perFn
  | .XLT_FAULT_INFO => .perFn
  | .XLT_FAULT_VA_LO => .perFn
  | .XLT_FAULT_VA_HI => .perFn
  | .XLT_FAULT_TBL_LO => .perFn
  | .XLT_FAULT_TBL_HI => .perFn
  | .XLT_HR_MODE => .device
  | .XLT_HMEM_BASE_LO => .device
  | .XLT_HMEM_BASE_HI => .device
  | .XLT_HMEM_LIMIT_LO => .device
  | .XLT_HMEM_LIMIT_HI => .device
  | .MBR_CAPS => .device
  | .MBR_CFG => .device
  | .MBR_STATUS => .device
  | .MBR_DIR_LO => .device
  | .MBR_DIR_HI => .device
  | .MBR_HIER_SEL => .perFn
  | .MBR_HIER_WIN => .sel ⟨.MBR_HIER_SEL, 0, 5⟩
  | .MBR_HIER_CTX => .sel ⟨.MBR_HIER_SEL, 0, 5⟩
  | .MBR_HIER_STATUS => .sel ⟨.MBR_HIER_SEL, 0, 5⟩
  | .MBR_PSET_SEL => .perFn
  | .MBR_PSET_HOME => .sel ⟨.MBR_PSET_SEL, 0, 12⟩
  | .MBR_PSET_CONN => .sel ⟨.MBR_PSET_SEL, 0, 12⟩
  | .MBR_PSET_STATUS => .sel ⟨.MBR_PSET_SEL, 0, 12⟩
  | .HSW_CAPS => .device
  | .HSW_CFG => .device
  | .HSW_STATUS => .device
  | .HSW_GRP_CFG => .device
  | .HSW_PORT_CFG => .device
  | .HSW_PORT_STATUS => .device
  | .HSW_HIER => .device
  | .HSW_P2P_LO => .device
  | .HSW_P2P_HI => .device
  | .HSW_TUN_SEL => .perFn
  | .HSW_TUN_STATUS => .sel ⟨.HSW_TUN_SEL, 0, 6⟩
  | .HSW_TUN_PEER => .sel ⟨.HSW_TUN_SEL, 0, 6⟩
  | .HSW_TUN_CONN => .sel ⟨.HSW_TUN_SEL, 0, 6⟩
  | .ENG_CAPS => .device
  | .ENG_CFG => .device
  | .ENG_STATUS => .device
  | .ENG_PKG_SEL => .perFn
  | .ENG_PKG_STATUS => .sel ⟨.ENG_PKG_SEL, 0, 3⟩
  | .ENG_PKG_ID => .sel ⟨.ENG_PKG_SEL, 0, 3⟩
  | .ENG_PKG_HR_LO => .sel ⟨.ENG_PKG_SEL, 0, 3⟩
  | .ENG_PKG_HR_HI => .sel ⟨.ENG_PKG_SEL, 0, 3⟩
  | .ENG_PKG_COST => .sel ⟨.ENG_PKG_SEL, 0, 3⟩
  | .ENG_HR_ENG => .device
  | .ENG_FAULT_INFO => .device
  | .ENG_FAULT_TICK_LO => .device
  | .ENG_FAULT_TICK_HI => .device
  | .PWR_LIMIT => .device
  | .PWR_BUDGET => .device
  | .PWR_STATUS => .device
  | .PWR_CFG => .device
  | .PWR_COST => .device
  | .PWR_GRANT => .device
  | .PWR_DIE => .device
  | .PWR_HR => .device
  | .MBX_DOORBELL => .perFn
  | .MBX_CONSUME => .perFn
  | .MBX_ACK => .perFn
  | .MBX_RESULT => .perFn
  | .MBX_BULK_OWN => .perFn
  | .MBX_ROOT_MASK => .device
  | .MBX_STATUS => .device
  | .GLB_FAULT => .device
  | .GLB_FAULT_TICK_LO => .device
  | .GLB_FAULT_TICK_HI => .device
  | .GLB_FAULT_INJECT => .device
  | .GLB_CC_STATUS => .device
  | .PMC_CFG => .device
  | .PMC_GROUPS => .device
  | .PMC_BASE_LO => .device
  | .PMC_BASE_HI => .device
  | .PMC_CTRL => .device
  | .PMC_STATUS => .device
  | .PMC_SEQ_LO => .device
  | .PMC_SEQ_HI => .device
  | .PMC_SLOT_SIZE => .device
  | .PMC_USER_EN => .device
  | .EVR_CTRL => .device
  | .EVR_STATUS => .device
  | .EVR_FROZEN_CNT => .device
  | .EVR_RD_SEL => .perFn
  | .EVR_RATE => .device
  | .EVR_SUPP_CNT => .device
  | .EVR_RD_DATA => .device
  | .EVR_PROF_MATCH => .device
  | .EVR_PROF_CFG => .device
  | .EVR_PROF_REG => .device
  | .NVS_STATUS => .device
  | .NVS_WORN_IDX => .device
  | .NVS_WORD => .device
  | .NVS_WEAR => .device
  | .SEC_STATUS => .device
  | .SEC_SVN => .device
  | .SEC_UID => .device
  | .SEC_NONCE_LO => .device
  | .SEC_NONCE_HI => .device
  | .GLB_ID => .device
  | .GLB_FW_VERSION => .device
  | .GLB_CAPS0 => .device
  | .GLB_CAPS1 => .device
  | .GLB_ERR => .perFn
  | .GLB_ERR_ADDR => .perFn
  | .MBX_A => .perFn
  | .MBX_B => .perFn

/-- Where a register lies in the first BAR: the address of its first element and, outermost first, the stride and
the number of elements of each array dimension. -/
structure RegRow where
  reg : Reg
  base : Nat
  dims : List (Nat × Nat)
  deriving DecidableEq, Repr

/-- Register offsets, part 1 (Table 20-6 and the captions of the register tables). -/
def regRows1 : List RegRow := [
  ⟨.TCK_NOW_LO, 0x1400000, []⟩,
  ⟨.TCK_NOW_HI, 0x1400004, []⟩,
  ⟨.TCK_STATUS, 0x1400008, []⟩,
  ⟨.TCK_PARENT, 0x140000c, []⟩,
  ⟨.TCK_HOLD, 0x1400010, []⟩,
  ⟨.TCK_OVR_CNT, 0x1400100, [(4, 10)]⟩,
  ⟨.TCK_PDLY, 0x1400400, [(4, 128)]⟩,
  ⟨.PHY_CTRL, 0x800000, [(4096, 128)]⟩,
  ⟨.PHY_CFG, 0x800004, [(4096, 128)]⟩,
  ⟨.PHY_STATUS, 0x800008, [(4096, 128)]⟩,
  ⟨.PHY_LANE_STATUS, 0x800010, [(4096, 128), (4, 4)]⟩,
  ⟨.PHY_TXEQ, 0x800020, [(4096, 128), (4, 4)]⟩,
  ⟨.PHY_PRBS_ERR, 0x800030, [(4096, 128), (4, 4)]⟩,
  ⟨.PHY_CORR_LO, 0x800040, [(4096, 128), (8, 4)]⟩,
  ⟨.PHY_CORR_HI, 0x800044, [(4096, 128), (8, 4)]⟩,
  ⟨.PHY_MODULE, 0x800060, [(4096, 128)]⟩,
  ⟨.PHY_BRINGUP_TIME, 0x800064, [(4096, 128)]⟩,
  ⟨.PHY_COUNTS, 0x800068, [(4096, 128)]⟩,
  ⟨.LNK_CTRL, 0x900000, [(512, 128)]⟩,
  ⟨.LNK_CFG, 0x900004, [(512, 128)]⟩,
  ⟨.LNK_REPLAY_TO, 0x900008, [(512, 128)]⟩,
  ⟨.LNK_STATUS, 0x90000c, [(512, 128)]⟩,
  ⟨.LNK_SEQ, 0x900010, [(512, 128)]⟩,
  ⟨.LNK_STORE, 0x900014, [(512, 128)]⟩,
  ⟨.LNK_PEER, 0x900018, [(512, 128)]⟩,
  ⟨.LNK_EPOCH, 0x90001c, [(512, 128)]⟩,
  ⟨.LNK_VC_ALLOC, 0x900040, [(512, 128), (4, 12)]⟩,
  ⟨.LNK_VC_CREDIT, 0x900080, [(512, 128), (4, 12)]⟩,
  ⟨.LNK_VC_PEER, 0x9000c0, [(512, 128), (4, 12)]⟩,
  ⟨.SWC_CFG, 0xa00000, []⟩,
  ⟨.SWC_BUF, 0xa00004, []⟩,
  ⟨.SWC_BUF_FREE, 0xa00008, []⟩,
  ⟨.SWC_STATUS, 0xa0000c, []⟩,
  ⟨.SWC_RSV, 0xa00100, [(4, 32)]⟩,
  ⟨.SWC_FAB_RSV, 0xa00200, [(4, 128)]⟩,
  ⟨.SWC_OCC, 0xa00400, [(4, 160)]⟩,
  ⟨.SCH_CLASS, 0xa40000, [(256, 160)]⟩,
  ⟨.SCH_MARK, 0xa40010, [(256, 160), (4, 4)]⟩,
  ⟨.SCH_SHAPE, 0xa40020, [(256, 160), (4, 5)]⟩,
  ⟨.SCH_TOKENS, 0xa40040, [(256, 160), (4, 5)]⟩,
  ⟨.SCH_DEPTH, 0xa40060, [(256, 160), (4, 5)]⟩,
  ⟨.SCH_OBS_CTRL, 0xa4a000, []⟩,
  ⟨.SCH_DEPTH_RANGE, 0xa80000, [(256, 800)]⟩,
  ⟨.SCH_DEPTH_MEAN, 0xa80004, [(256, 800)]⟩,
  ⟨.SCH_DELAY_MIN, 0xa80008, [(256, 800)]⟩,
  ⟨.SCH_DELAY_MAX, 0xa8000c, [(256, 800)]⟩,
  ⟨.SCH_DELAY_MEAN, 0xa80010, [(256, 800)]⟩,
  ⟨.SCH_DELAY_SAMPLES, 0xa80014, [(256, 800)]⟩,
  ⟨.SCH_DEPTH_HIST, 0xa80040, [(256, 800), (4, 16)]⟩,
  ⟨.SCH_DELAY_HIST, 0xa80080, [(256, 800), (4, 16)]⟩,
  ⟨.RTE_ID, 0xb00000, []⟩,
  ⟨.RTE_CFG, 0xb00004, []⟩,
  ⟨.RTE_BIAS, 0xb00008, []⟩,
  ⟨.RTE_ROLE, 0xb0000c, []⟩,
  ⟨.RTE_TERM, 0xb00010, []⟩,
  ⟨.RTE_TBL_CTRL, 0xb00014, []⟩,
  ⟨.RTE_TBL_STATUS, 0xb00020, []⟩,
  ⟨.RTE_ACT_LO, 0xb00018, []⟩,
  ⟨.RTE_ACT_HI, 0xb0001c, []⟩,
  ⟨.RTE_LIVE, 0xb00040, [(4, 4)]⟩]

/-- Register offsets, part 2 (Table 20-6 and the captions of the register tables). -/
def regRows2 : List RegRow := [
  ⟨.RTE_ADMIN_OUT, 0xb00050, [(4, 4)]⟩,
  ⟨.RTE_PORT, 0xb00100, [(4, 128)]⟩,
  ⟨.RTE_EP, 0xb00300, [(4, 32)]⟩,
  ⟨.RTE_DIGEST_OUT_LO, 0xb00380, []⟩,
  ⟨.RTE_DIGEST_OUT_HI, 0xb00384, []⟩,
  ⟨.RTE_DIGEST_IN_LO, 0xb00400, [(8, 128)]⟩,
  ⟨.RTE_DIGEST_IN_HI, 0xb00404, [(8, 128)]⟩,
  ⟨.TRN_CFG, 0xc00000, []⟩,
  ⟨.TRN_DEFAULTS, 0xc00004, []⟩,
  ⟨.TRN_STATUS, 0xc00008, []⟩,
  ⟨.TRN_CACHE, 0xc0000c, []⟩,
  ⟨.TRN_MISS, 0xc00010, []⟩,
  ⟨.TRN_REORDER, 0xc00014, []⟩,
  ⟨.TRN_CTX_TIER_LO, 0xc00100, [(8, 16)]⟩,
  ⟨.TRN_CTX_TIER_HI, 0xc00104, [(8, 16)]⟩,
  ⟨.TRN_RC, 0xc00200, [(8, 4)]⟩,
  ⟨.TRN_RC_RATE, 0xc00204, [(8, 4)]⟩,
  ⟨.WQ_SEL, 0xd00000, []⟩,
  ⟨.WQ_STATUS, 0xd00004, []⟩,
  ⟨.WQ_Q_BASE_LO, 0xd00010, []⟩,
  ⟨.WQ_Q_BASE_HI, 0xd00014, []⟩,
  ⟨.WQ_Q_CFG, 0xd00018, []⟩,
  ⟨.WQ_Q_BIND, 0xd0001c, []⟩,
  ⟨.WQ_Q_CTRL, 0xd00020, []⟩,
  ⟨.WQ_Q_STATUS, 0xd00024, []⟩,
  ⟨.WQ_Q_INFLIGHT, 0xd00028, []⟩,
  ⟨.WQ_EQ_COAL, 0xd0002c, []⟩,
  ⟨.XLT_RGN_SEL, 0x1080000, []⟩,
  ⟨.XLT_RGN_RANGE, 0x1080004, []⟩,
  ⟨.XLT_RGN_ATTR, 0x1080008, []⟩,
  ⟨.XLT_RGN_OWNER, 0x108000c, []⟩,
  ⟨.XLT_RGN_BASE_LO, 0x1080010, []⟩,
  ⟨.XLT_RGN_BASE_HI, 0x1080014, []⟩,
  ⟨.XLT_RGN_LEN_LO, 0x1080018, []⟩,
  ⟨.XLT_RGN_LEN_HI, 0x108001c, []⟩,
  ⟨.XLT_RGN_PARENT, 0x1080020, []⟩,
  ⟨.XLT_RGN_CMD, 0x1080024, []⟩,
  ⟨.XLT_PROT_STATUS, 0x1080030, []⟩,
  ⟨.XLT_PROT_SETTLED_LO, 0x1080038, []⟩,
  ⟨.XLT_PROT_SETTLED_HI, 0x108003c, []⟩,
  ⟨.MTE_CFG, 0xe00000, []⟩,
  ⟨.MTE_STATUS, 0xe00004, []⟩,
  ⟨.MTE_SPILL_LO, 0xe00008, []⟩,
  ⟨.MTE_SPILL_HI, 0xe0000c, []⟩,
  ⟨.MTE_SPILL_SIZE, 0xe00010, []⟩,
  ⟨.MTE_SPILL_OCC, 0xe00014, []⟩,
  ⟨.MTE_SEL, 0xe00020, []⟩,
  ⟨.MTE_CTX_CFG, 0xe00024, []⟩,
  ⟨.MTE_CTX_UX_LO, 0xe00028, []⟩,
  ⟨.MTE_CTX_UX_HI, 0xe0002c, []⟩,
  ⟨.MTE_CTX_SLOTS, 0xe00030, []⟩,
  ⟨.MTE_CTX_LIMIT, 0xe00034, []⟩,
  ⟨.MTE_CTX_CTRL, 0xe00038, []⟩,
  ⟨.MTE_CTX_STATUS, 0xe0003c, []⟩,
  ⟨.MTE_CTX_UX_USED, 0xe00040, []⟩,
  ⟨.MTE_HR_OCC, 0xe00100, [(4, 64)]⟩,
  ⟨.MTE_RDV, 0xe00200, []⟩,
  ⟨.COL_CAPS, 0xf00000, []⟩,
  ⟨.COL_STATUS, 0xf00004, []⟩,
  ⟨.COL_GRP_SEL, 0xf00010, []⟩]

/-- Register offsets, part 3 (Table 20-6 and the captions of the register tables). -/
def regRows3 : List RegRow := [
  ⟨.COL_GRP_CFG, 0xf00014, []⟩,
  ⟨.COL_GRP_MEMBERS, 0xf00018, []⟩,
  ⟨.COL_GRP_CHILD, 0xf00020, [(4, 4)]⟩,
  ⟨.COL_GRP_CTRL, 0xf00030, []⟩,
  ⟨.COL_GRP_STATUS, 0xf00034, []⟩,
  ⟨.COL_GRP_FLOW, 0xf00038, []⟩,
  ⟨.COL_UNIT, 0xf00100, [(4, 4)]⟩,
  ⟨.XLT_CTX_SEL, 0x1000000, []⟩,
  ⟨.XLT_CTX_CFG, 0x1000004, []⟩,
  ⟨.XLT_CTX_ROOT_LO, 0x1000008, []⟩,
  ⟨.XLT_CTX_ROOT_HI, 0x100000c, []⟩,
  ⟨.XLT_CTX_STATUS, 0x1000010, []⟩,
  ⟨.XLT_INV_CTRL, 0x1000020, []⟩,
  ⟨.XLT_INV_ADDR_LO, 0x1000024, []⟩,
  ⟨.XLT_INV_ADDR_HI, 0x1000028, []⟩,
  ⟨.XLT_INV_TOKEN, 0x100002c, []⟩,
  ⟨.XLT_STATUS, 0x1000030, []⟩,
  ⟨.XLT_LOCK_CTRL, 0x1000040, []⟩,
  ⟨.XLT_LOCK_ADDR_LO, 0x1000044, []⟩,
  ⟨.XLT_LOCK_ADDR_HI, 0x1000048, []⟩,
  ⟨.XLT_LOCK_ENTRY_LO, 0x100004c, []⟩,
  ⟨.XLT_LOCK_ENTRY_HI, 0x1000050, []⟩,
  ⟨.XLT_LOCK_COUNT, 0x1000054, []⟩,
  ⟨.XLT_FAULT_INFO, 0x1000080, []⟩,
  ⟨.XLT_FAULT_VA_LO, 0x1000084, []⟩,
  ⟨.XLT_FAULT_VA_HI, 0x1000088, []⟩,
  ⟨.XLT_FAULT_TBL_LO, 0x100008c, []⟩,
  ⟨.XLT_FAULT_TBL_HI, 0x1000090, []⟩,
  ⟨.XLT_HR_MODE, 0x1000100, [(4, 64)]⟩,
  ⟨.XLT_HMEM_BASE_LO, 0x1000400, [(128, 24), (16, 8)]⟩,
  ⟨.XLT_HMEM_BASE_HI, 0x1000404, [(128, 24), (16, 8)]⟩,
  ⟨.XLT_HMEM_LIMIT_LO, 0x1000408, [(128, 24), (16, 8)]⟩,
  ⟨.XLT_HMEM_LIMIT_HI, 0x100040c, [(128, 24), (16, 8)]⟩,
  ⟨.MBR_CAPS, 0x1100000, []⟩,
  ⟨.MBR_CFG, 0x1100004, []⟩,
  ⟨.MBR_STATUS, 0x1100008, []⟩,
  ⟨.MBR_DIR_LO, 0x1100010, []⟩,
  ⟨.MBR_DIR_HI, 0x1100014, []⟩,
  ⟨.MBR_HIER_SEL, 0x1100020, []⟩,
  ⟨.MBR_HIER_WIN, 0x1100024, []⟩,
  ⟨.MBR_HIER_CTX, 0x1100028, []⟩,
  ⟨.MBR_HIER_STATUS, 0x110002c, []⟩,
  ⟨.MBR_PSET_SEL, 0x1100040, []⟩,
  ⟨.MBR_PSET_HOME, 0x1100044, []⟩,
  ⟨.MBR_PSET_CONN, 0x1100048, [(4, 4)]⟩,
  ⟨.MBR_PSET_STATUS, 0x1100058, []⟩,
  ⟨.HSW_CAPS, 0x1200000, []⟩,
  ⟨.HSW_CFG, 0x1200004, []⟩,
  ⟨.HSW_STATUS, 0x1200008, []⟩,
  ⟨.HSW_GRP_CFG, 0x1200100, [(4, 12)]⟩,
  ⟨.HSW_PORT_CFG, 0x1200200, [(4, 48)]⟩,
  ⟨.HSW_PORT_STATUS, 0x1200300, [(4, 48)]⟩,
  ⟨.HSW_HIER, 0x1200400, [(4, 24)]⟩,
  ⟨.HSW_P2P_LO, 0x1200500, [(8, 24)]⟩,
  ⟨.HSW_P2P_HI, 0x1200504, [(8, 24)]⟩,
  ⟨.HSW_TUN_SEL, 0x1200800, []⟩,
  ⟨.HSW_TUN_STATUS, 0x1200804, []⟩,
  ⟨.HSW_TUN_PEER, 0x1200808, []⟩,
  ⟨.HSW_TUN_CONN, 0x120080c, []⟩,
  ⟨.ENG_CAPS, 0x1300000, []⟩]

/-- Register offsets, part 4 (Table 20-6 and the captions of the register tables). -/
def regRows4 : List RegRow := [
  ⟨.ENG_CFG, 0x1300004, []⟩,
  ⟨.ENG_STATUS, 0x1300008, []⟩,
  ⟨.ENG_PKG_SEL, 0x1300010, []⟩,
  ⟨.ENG_PKG_STATUS, 0x1300014, []⟩,
  ⟨.ENG_PKG_ID, 0x1300018, []⟩,
  ⟨.ENG_PKG_HR_LO, 0x130001c, []⟩,
  ⟨.ENG_PKG_HR_HI, 0x1300020, []⟩,
  ⟨.ENG_PKG_COST, 0x1300040, [(4, 16)]⟩,
  ⟨.ENG_HR_ENG, 0x1300100, [(4, 64)]⟩,
  ⟨.ENG_FAULT_INFO, 0x1300200, []⟩,
  ⟨.ENG_FAULT_TICK_LO, 0x1300204, []⟩,
  ⟨.ENG_FAULT_TICK_HI, 0x1300208, []⟩,
  ⟨.PWR_LIMIT, 0x1408000, []⟩,
  ⟨.PWR_BUDGET, 0x1408004, []⟩,
  ⟨.PWR_STATUS, 0x1408008, []⟩,
  ⟨.PWR_CFG, 0x140800c, []⟩,
  ⟨.PWR_COST, 0x1408020, [(4, 8)]⟩,
  ⟨.PWR_GRANT, 0x1408040, [(4, 8)]⟩,
  ⟨.PWR_DIE, 0x1408060, [(4, 11)]⟩,
  ⟨.PWR_HR, 0x1408100, [(4, 64)]⟩,
  ⟨.MBX_DOORBELL, 0x200040, []⟩,
  ⟨.MBX_CONSUME, 0x20004c, []⟩,
  ⟨.MBX_ACK, 0x200044, []⟩,
  ⟨.MBX_RESULT, 0x200048, []⟩,
  ⟨.MBX_BULK_OWN, 0x200100, [(4, 8)]⟩,
  ⟨.MBX_ROOT_MASK, 0x201000, []⟩,
  ⟨.MBX_STATUS, 0x201004, []⟩,
  ⟨.GLB_FAULT, 0x100, []⟩,
  ⟨.GLB_FAULT_TICK_LO, 0x104, []⟩,
  ⟨.GLB_FAULT_TICK_HI, 0x108, []⟩,
  ⟨.GLB_FAULT_INJECT, 0x10c, []⟩,
  ⟨.GLB_CC_STATUS, 0x110, []⟩,
  ⟨.PMC_CFG, 0x600000, []⟩,
  ⟨.PMC_GROUPS, 0x600004, []⟩,
  ⟨.PMC_BASE_LO, 0x600008, []⟩,
  ⟨.PMC_BASE_HI, 0x60000c, []⟩,
  ⟨.PMC_CTRL, 0x600010, []⟩,
  ⟨.PMC_STATUS, 0x600014, []⟩,
  ⟨.PMC_SEQ_LO, 0x600018, []⟩,
  ⟨.PMC_SEQ_HI, 0x60001c, []⟩,
  ⟨.PMC_SLOT_SIZE, 0x600020, []⟩,
  ⟨.PMC_USER_EN, 0x600100, [(4, 4120)]⟩,
  ⟨.EVR_CTRL, 0x500000, []⟩,
  ⟨.EVR_STATUS, 0x500004, []⟩,
  ⟨.EVR_FROZEN_CNT, 0x500008, []⟩,
  ⟨.EVR_RD_SEL, 0x500010, []⟩,
  ⟨.EVR_RATE, 0x500040, [(4, 22)]⟩,
  ⟨.EVR_SUPP_CNT, 0x5000a0, [(4, 22)]⟩,
  ⟨.EVR_RD_DATA, 0x500100, [(4, 36)]⟩,
  ⟨.EVR_PROF_MATCH, 0x501000, [(256, 64)]⟩,
  ⟨.EVR_PROF_CFG, 0x501004, [(256, 64)]⟩,
  ⟨.EVR_PROF_REG, 0x501008, [(256, 64), (4, 31)]⟩,
  ⟨.NVS_STATUS, 0x100000, []⟩,
  ⟨.NVS_WORN_IDX, 0x100004, []⟩,
  ⟨.NVS_WORD, 0x101000, [(4, 512)]⟩,
  ⟨.NVS_WEAR, 0x102000, [(4, 512)]⟩,
  ⟨.SEC_STATUS, 0x1500000, []⟩,
  ⟨.SEC_SVN, 0x1500010, [(4, 3)]⟩,
  ⟨.SEC_UID, 0x1500020, [(4, 4)]⟩,
  ⟨.SEC_NONCE_LO, 0x1500030, []⟩]

/-- Register offsets, part 5 (Table 20-6 and the captions of the register tables). -/
def regRows5 : List RegRow := [
  ⟨.SEC_NONCE_HI, 0x1500034, []⟩,
  ⟨.GLB_ID, 0x0, []⟩,
  ⟨.GLB_FW_VERSION, 0x4, []⟩,
  ⟨.GLB_CAPS0, 0x8, []⟩,
  ⟨.GLB_CAPS1, 0xc, []⟩,
  ⟨.GLB_ERR, 0x10, []⟩,
  ⟨.GLB_ERR_ADDR, 0x14, []⟩,
  ⟨.MBX_A, 0x200000, [(4, 16)]⟩,
  ⟨.MBX_B, 0x200080, [(4, 16)]⟩]

/-- Every register of the first BAR with its offset. -/
def regRows : List RegRow := regRows1 ++ regRows2 ++ regRows3 ++ regRows4 ++ regRows5

/-- Splits an offset within a register's span into the flat index of the element it names. -/
def splitIndex : List (Nat × Nat) → Nat → Nat → Option Nat
  | [], acc, off => if off = 0 then some acc else none
  | (stride, count) :: ds, acc, off =>
    let i := off / stride
    if i < count then splitIndex ds (acc * count + i) (off % stride) else none

/-- The register and array index that a word-aligned offset of the first BAR names (R531, R532); `none` for a
reserved offset and for the counter, lock and record areas, which have homes of their own. -/
def regAt (off : Nat) : Option (Reg × Nat) :=
  regRows.findSome? fun r =>
    if r.base ≤ off then (splitIndex r.dims 0 (off - r.base)).map fun i => (r.reg, i) else none

/-- The number of elements of a register array. -/
def Reg.count (r : Reg) : Nat :=
  match regRows.find? (fun x => decide (x.reg = r)) with
  | some x => x.dims.foldl (fun n d => n * d.2) 1
  | none => 1

/-! The fields by name: `F.<register>_<field>`. -/
namespace F

def TCK_NOW_LO_TICK : Fld := ⟨.TCK_NOW_LO, 0, 32⟩
def TCK_NOW_HI_TICK : Fld := ⟨.TCK_NOW_HI, 0, 32⟩
def TCK_STATUS_EPOCH : Fld := ⟨.TCK_STATUS, 28, 4⟩
def TCK_STATUS_CLK_STATE : Fld := ⟨.TCK_STATUS, 16, 4⟩
def TCK_STATUS_ALIGN_ERR : Fld := ⟨.TCK_STATUS, 8, 8⟩
def TCK_STATUS_FABRIC : Fld := ⟨.TCK_STATUS, 7, 1⟩
def TCK_STATUS_ALIGNED : Fld := ⟨.TCK_STATUS, 6, 1⟩
def TCK_STATUS_SLIP : Fld := ⟨.TCK_STATUS, 5, 1⟩
def TCK_STATUS_OVERRUN : Fld := ⟨.TCK_STATUS, 4, 1⟩
def TCK_STATUS_REGION_LIMIT : Fld := ⟨.TCK_STATUS, 3, 1⟩
def TCK_PARENT_ROOT : Fld := ⟨.TCK_PARENT, 31, 1⟩
def TCK_PARENT_REF_OK : Fld := ⟨.TCK_PARENT, 30, 1⟩
def TCK_PARENT_STANDBY : Fld := ⟨.TCK_PARENT, 16, 8⟩
def TCK_PARENT_PARENT : Fld := ⟨.TCK_PARENT, 8, 8⟩
def TCK_PARENT_ACTIVE : Fld := ⟨.TCK_PARENT, 0, 8⟩
def TCK_HOLD_HOLD : Fld := ⟨.TCK_HOLD, 0, 1⟩
def TCK_OVR_CNT_COUNT : Fld := ⟨.TCK_OVR_CNT, 0, 32⟩
def TCK_PDLY_ASYM : Fld := ⟨.TCK_PDLY, 24, 8⟩
def TCK_PDLY_DELAY : Fld := ⟨.TCK_PDLY, 0, 24⟩
def PHY_CTRL_FORGET : Fld := ⟨.PHY_CTRL, 31, 1⟩
def PHY_CTRL_TEST : Fld := ⟨.PHY_CTRL, 24, 4⟩
def PHY_CTRL_WIDTH : Fld := ⟨.PHY_CTRL, 16, 2⟩
def PHY_CTRL_QUICKSET : Fld := ⟨.PHY_CTRL, 9, 1⟩
def PHY_CTRL_RETRAIN : Fld := ⟨.PHY_CTRL, 8, 1⟩
def PHY_CTRL_ENABLE : Fld := ⟨.PHY_CTRL, 0, 1⟩
def PHY_CFG_FIXED : Fld := ⟨.PHY_CFG, 31, 1⟩
def PHY_CFG_AUTO_RESTART : Fld := ⟨.PHY_CFG, 30, 1⟩
def PHY_CFG_ADAPT : Fld := ⟨.PHY_CFG, 29, 1⟩
def PHY_CFG_MIN_WIDTH : Fld := ⟨.PHY_CFG, 24, 2⟩
def PHY_CFG_MAX_PCLASS : Fld := ⟨.PHY_CFG, 20, 4⟩
def PHY_CFG_FOM_MIN : Fld := ⟨.PHY_CFG, 8, 8⟩
def PHY_CFG_PRBS_LIMIT : Fld := ⟨.PHY_CFG, 0, 8⟩
def PHY_STATUS_STATE : Fld := ⟨.PHY_STATUS, 28, 4⟩
def PHY_STATUS_STAGE : Fld := ⟨.PHY_STATUS, 24, 4⟩
def PHY_STATUS_REASON : Fld := ⟨.PHY_STATUS, 16, 8⟩
def PHY_STATUS_LANE_FAIL : Fld := ⟨.PHY_STATUS, 12, 4⟩
def PHY_STATUS_ACTIVE_LANES : Fld := ⟨.PHY_STATUS, 8, 4⟩
def PHY_STATUS_WIDTH : Fld := ⟨.PHY_STATUS, 6, 2⟩
def PHY_STATUS_REVERSED : Fld := ⟨.PHY_STATUS, 5, 1⟩
def PHY_STATUS_SAVED : Fld := ⟨.PHY_STATUS, 4, 1⟩
def PHY_STATUS_DEGRADED : Fld := ⟨.PHY_STATUS, 3, 1⟩
def PHY_STATUS_PRESENT : Fld := ⟨.PHY_STATUS, 2, 1⟩
def PHY_LANE_STATUS_FOM : Fld := ⟨.PHY_LANE_STATUS, 24, 8⟩
def PHY_LANE_STATUS_CTLE : Fld := ⟨.PHY_LANE_STATUS, 20, 4⟩
def PHY_LANE_STATUS_INVERTED : Fld := ⟨.PHY_LANE_STATUS, 19, 1⟩
def PHY_LANE_STATUS_PHYS : Fld := ⟨.PHY_LANE_STATUS, 17, 2⟩
def PHY_LANE_STATUS_BLOCK_LOCK : Fld := ⟨.PHY_LANE_STATUS, 16, 1⟩
def PHY_LANE_STATUS_SKEW : Fld := ⟨.PHY_LANE_STATUS, 8, 8⟩
def PHY_LANE_STATUS_PI : Fld := ⟨.PHY_LANE_STATUS, 0, 8⟩
def PHY_TXEQ_POST : Fld := ⟨.PHY_TXEQ, 16, 5⟩
def PHY_TXEQ_PRE : Fld := ⟨.PHY_TXEQ, 8, 4⟩
def PHY_TXEQ_MAIN : Fld := ⟨.PHY_TXEQ, 0, 7⟩
def PHY_PRBS_ERR_COUNT : Fld := ⟨.PHY_PRBS_ERR, 0, 32⟩
def PHY_CORR_LO_COUNT : Fld := ⟨.PHY_CORR_LO, 0, 32⟩
def PHY_CORR_HI_COUNT : Fld := ⟨.PHY_CORR_HI, 0, 16⟩
def PHY_MODULE_LENGTH : Fld := ⟨.PHY_MODULE, 16, 16⟩
def PHY_MODULE_PCLASS : Fld := ⟨.PHY_MODULE, 12, 4⟩
def PHY_MODULE_REACH : Fld := ⟨.PHY_MODULE, 8, 4⟩
def PHY_MODULE_FC_CAPS : Fld := ⟨.PHY_MODULE, 5, 3⟩
def PHY_MODULE_VALID : Fld := ⟨.PHY_MODULE, 0, 1⟩
def PHY_BRINGUP_TIME_TICKS : Fld := ⟨.PHY_BRINGUP_TIME, 0, 32⟩
def PHY_COUNTS_QUICKSETS : Fld := ⟨.PHY_COUNTS, 16, 16⟩
def PHY_COUNTS_FAILS : Fld := ⟨.PHY_COUNTS, 0, 16⟩
def LNK_CTRL_FLUSH : Fld := ⟨.LNK_CTRL, 31, 1⟩
def LNK_CFG_AUTO_TO : Fld := ⟨.LNK_CFG, 31, 1⟩
def LNK_CFG_SPILL_EN : Fld := ⟨.LNK_CFG, 30, 1⟩
def LNK_CFG_AUTO_QS : Fld := ⟨.LNK_CFG, 29, 1⟩
def LNK_CFG_SPILL_MAX : Fld := ⟨.LNK_CFG, 24, 5⟩
def LNK_CFG_REPLAY_MAX : Fld := ⟨.LNK_CFG, 20, 4⟩
def LNK_CFG_DEFICIT_MAX : Fld := ⟨.LNK_CFG, 0, 16⟩
def LNK_REPLAY_TO_RTT : Fld := ⟨.LNK_REPLAY_TO, 16, 16⟩
def LNK_REPLAY_TO_TIMEOUT : Fld := ⟨.LNK_REPLAY_TO, 0, 16⟩
def LNK_STATUS_STATE : Fld := ⟨.LNK_STATUS, 30, 2⟩
def LNK_STATUS_HELD : Fld := ⟨.LNK_STATUS, 29, 1⟩
def LNK_STATUS_BP : Fld := ⟨.LNK_STATUS, 28, 1⟩
def LNK_STATUS_REPLAYING : Fld := ⟨.LNK_STATUS, 27, 1⟩
def LNK_STATUS_PEER_CHANGED : Fld := ⟨.LNK_STATUS, 26, 1⟩
def LNK_STATUS_VOIDED : Fld := ⟨.LNK_STATUS, 25, 1⟩
def LNK_SEQ_TX_NEXT : Fld := ⟨.LNK_SEQ, 16, 16⟩
def LNK_SEQ_RX_NEXT : Fld := ⟨.LNK_SEQ, 0, 16⟩
def LNK_STORE_SPILLED : Fld := ⟨.LNK_STORE, 16, 14⟩
def LNK_STORE_ON_DIE : Fld := ⟨.LNK_STORE, 0, 10⟩
def LNK_PEER_VALID : Fld := ⟨.LNK_PEER, 31, 1⟩
def LNK_PEER_PORT : Fld := ⟨.LNK_PEER, 17, 8⟩
def LNK_PEER_DEVICE : Fld := ⟨.LNK_PEER, 0, 17⟩
def LNK_EPOCH_PEER : Fld := ⟨.LNK_EPOCH, 16, 16⟩
def LNK_EPOCH_OWN : Fld := ⟨.LNK_EPOCH, 0, 16⟩
def LNK_VC_ALLOC_OCC : Fld := ⟨.LNK_VC_ALLOC, 16, 16⟩
def LNK_VC_ALLOC_ALLOC : Fld := ⟨.LNK_VC_ALLOC, 0, 16⟩
def LNK_VC_CREDIT_AVAIL : Fld := ⟨.LNK_VC_CREDIT, 0, 17⟩
def LNK_VC_PEER_DEFICIT : Fld := ⟨.LNK_VC_PEER, 16, 16⟩
def LNK_VC_PEER_ALLOC : Fld := ⟨.LNK_VC_PEER, 0, 16⟩
def SWC_CFG_HOP_MAX : Fld := ⟨.SWC_CFG, 0, 5⟩
def SWC_BUF_POOL : Fld := ⟨.SWC_BUF, 0, 20⟩
def SWC_BUF_FREE_FREE : Fld := ⟨.SWC_BUF_FREE, 0, 20⟩
def SWC_STATUS_RSV_REFUSED : Fld := ⟨.SWC_STATUS, 2, 1⟩
def SWC_STATUS_POOL_EMPTY : Fld := ⟨.SWC_STATUS, 1, 1⟩
def SWC_STATUS_CLAIM_FAIL : Fld := ⟨.SWC_STATUS, 0, 1⟩
def SWC_RSV_POOL_MAX : Fld := ⟨.SWC_RSV, 16, 16⟩
def SWC_RSV_RESERVE : Fld := ⟨.SWC_RSV, 0, 16⟩
def SWC_FAB_RSV_CELLS : Fld := ⟨.SWC_FAB_RSV, 0, 20⟩
def SWC_OCC_CELLS : Fld := ⟨.SWC_OCC, 0, 20⟩
def SCH_CLASS_W_TC1 : Fld := ⟨.SCH_CLASS, 8, 8⟩
def SCH_CLASS_W_TC0 : Fld := ⟨.SCH_CLASS, 0, 8⟩
def SCH_MARK_THRESH : Fld := ⟨.SCH_MARK, 0, 16⟩
def SCH_SHAPE_EN : Fld := ⟨.SCH_SHAPE, 31, 1⟩
def SCH_SHAPE_RESET_FULL : Fld := ⟨.SCH_SHAPE, 30, 1⟩
def SCH_SHAPE_RATE : Fld := ⟨.SCH_SHAPE, 14, 14⟩
def SCH_SHAPE_BURST : Fld := ⟨.SCH_SHAPE, 0, 12⟩
def SCH_TOKENS_TOKENS : Fld := ⟨.SCH_TOKENS, 0, 24⟩
def SCH_DEPTH_DEPTH : Fld := ⟨.SCH_DEPTH, 0, 20⟩
def SCH_OBS_CTRL_CLEAR : Fld := ⟨.SCH_OBS_CTRL, 0, 1⟩
def SCH_DEPTH_RANGE_MAX : Fld := ⟨.SCH_DEPTH_RANGE, 16, 16⟩
def SCH_DEPTH_RANGE_MIN : Fld := ⟨.SCH_DEPTH_RANGE, 0, 16⟩
def SCH_DEPTH_MEAN_MEAN : Fld := ⟨.SCH_DEPTH_MEAN, 0, 24⟩
def SCH_DELAY_MIN_CYCLES : Fld := ⟨.SCH_DELAY_MIN, 0, 24⟩
def SCH_DELAY_MAX_CYCLES : Fld := ⟨.SCH_DELAY_MAX, 0, 24⟩
def SCH_DELAY_MEAN_MEAN : Fld := ⟨.SCH_DELAY_MEAN, 0, 32⟩
def SCH_DELAY_SAMPLES_SAMPLES : Fld := ⟨.SCH_DELAY_SAMPLES, 0, 32⟩
def SCH_DEPTH_HIST_COUNT : Fld := ⟨.SCH_DEPTH_HIST, 0, 32⟩
def SCH_DELAY_HIST_COUNT : Fld := ⟨.SCH_DELAY_HIST, 0, 32⟩
def RTE_ID_VALID : Fld := ⟨.RTE_ID, 31, 1⟩
def RTE_ID_DEVICE : Fld := ⟨.RTE_ID, 0, 17⟩
def RTE_CFG_TOPO : Fld := ⟨.RTE_CFG, 30, 2⟩
def RTE_CFG_LBITS : Fld := ⟨.RTE_CFG, 27, 3⟩
def RTE_CFG_QSHIFT : Fld := ⟨.RTE_CFG, 24, 3⟩
def RTE_CFG_ADAPT_TC : Fld := ⟨.RTE_CFG, 20, 4⟩
def RTE_CFG_HOLDDOWN : Fld := ⟨.RTE_CFG, 0, 16⟩
def RTE_BIAS_BIAS : Fld := ⟨.RTE_BIAS, 16, 8⟩
def RTE_BIAS_W_NMIN : Fld := ⟨.RTE_BIAS, 8, 8⟩
def RTE_BIAS_W_MIN : Fld := ⟨.RTE_BIAS, 0, 8⟩
def RTE_ROLE_ROLE : Fld := ⟨.RTE_ROLE, 30, 2⟩
def RTE_ROLE_ACTIVE : Fld := ⟨.RTE_ROLE, 29, 1⟩
def RTE_ROLE_MANAGER : Fld := ⟨.RTE_ROLE, 0, 17⟩
def RTE_TERM_TERM : Fld := ⟨.RTE_TERM, 0, 32⟩
def RTE_TBL_CTRL_COMMIT : Fld := ⟨.RTE_TBL_CTRL, 31, 1⟩
def RTE_TBL_CTRL_ABORT : Fld := ⟨.RTE_TBL_CTRL, 30, 1⟩
def RTE_TBL_CTRL_VERSION : Fld := ⟨.RTE_TBL_CTRL, 0, 16⟩
def RTE_TBL_STATUS_ACTIVE_VER : Fld := ⟨.RTE_TBL_STATUS, 16, 16⟩
def RTE_TBL_STATUS_LATE : Fld := ⟨.RTE_TBL_STATUS, 3, 1⟩
def RTE_TBL_STATUS_COPYING : Fld := ⟨.RTE_TBL_STATUS, 2, 1⟩
def RTE_TBL_STATUS_PENDING : Fld := ⟨.RTE_TBL_STATUS, 1, 1⟩
def RTE_TBL_STATUS_EMPTY : Fld := ⟨.RTE_TBL_STATUS, 0, 1⟩
def RTE_ACT_LO_TICK : Fld := ⟨.RTE_ACT_LO, 0, 32⟩
def RTE_ACT_HI_TICK : Fld := ⟨.RTE_ACT_HI, 0, 32⟩
def RTE_LIVE_PORTS : Fld := ⟨.RTE_LIVE, 0, 32⟩
def RTE_ADMIN_OUT_PORTS : Fld := ⟨.RTE_ADMIN_OUT, 0, 32⟩
def RTE_PORT_PGROUP : Fld := ⟨.RTE_PORT, 16, 4⟩
def RTE_PORT_KIND : Fld := ⟨.RTE_PORT, 0, 1⟩
def RTE_EP_PORT : Fld := ⟨.RTE_EP, 0, 8⟩
def RTE_DIGEST_OUT_LO_DIGEST : Fld := ⟨.RTE_DIGEST_OUT_LO, 0, 32⟩
def RTE_DIGEST_OUT_HI_DIGEST : Fld := ⟨.RTE_DIGEST_OUT_HI, 0, 32⟩
def RTE_DIGEST_IN_LO_DIGEST : Fld := ⟨.RTE_DIGEST_IN_LO, 0, 32⟩
def RTE_DIGEST_IN_HI_DIGEST : Fld := ⟨.RTE_DIGEST_IN_HI, 0, 32⟩
def TRN_CFG_ACK_EVERY : Fld := ⟨.TRN_CFG, 24, 8⟩
def TRN_CFG_BUSY_BACKOFF : Fld := ⟨.TRN_CFG, 16, 8⟩
def TRN_CFG_ACK_DELAY : Fld := ⟨.TRN_CFG, 0, 16⟩
def TRN_DEFAULTS_RETRY_MAX : Fld := ⟨.TRN_DEFAULTS, 14, 4⟩
def TRN_DEFAULTS_RTO : Fld := ⟨.TRN_DEFAULTS, 0, 14⟩
def TRN_STATUS_CTX_BAD : Fld := ⟨.TRN_STATUS, 3, 1⟩
def TRN_STATUS_MISS_FULL : Fld := ⟨.TRN_STATUS, 2, 1⟩
def TRN_STATUS_REORDER_FULL : Fld := ⟨.TRN_STATUS, 1, 1⟩
def TRN_STATUS_NOEVICT_FULL : Fld := ⟨.TRN_STATUS, 0, 1⟩
def TRN_CACHE_NOEVICT : Fld := ⟨.TRN_CACHE, 17, 15⟩
def TRN_CACHE_RESIDENT : Fld := ⟨.TRN_CACHE, 0, 17⟩
def TRN_MISS_HIGH : Fld := ⟨.TRN_MISS, 16, 13⟩
def TRN_MISS_OCC : Fld := ⟨.TRN_MISS, 0, 13⟩
def TRN_REORDER_HIGH : Fld := ⟨.TRN_REORDER, 16, 16⟩
def TRN_REORDER_OCC : Fld := ⟨.TRN_REORDER, 0, 16⟩
def TRN_CTX_TIER_LO_BASE : Fld := ⟨.TRN_CTX_TIER_LO, 12, 20⟩
def TRN_CTX_TIER_LO_HIER : Fld := ⟨.TRN_CTX_TIER_LO, 3, 5⟩
def TRN_CTX_TIER_LO_KIND : Fld := ⟨.TRN_CTX_TIER_LO, 1, 2⟩
def TRN_CTX_TIER_HI_BASE : Fld := ⟨.TRN_CTX_TIER_HI, 0, 25⟩
def TRN_RC_EN : Fld := ⟨.TRN_RC, 31, 1⟩
def TRN_RC_CUT : Fld := ⟨.TRN_RC, 16, 8⟩
def TRN_RC_AI : Fld := ⟨.TRN_RC, 0, 12⟩
def TRN_RC_RATE_RATE_MAX : Fld := ⟨.TRN_RC_RATE, 16, 16⟩
def TRN_RC_RATE_RATE_MIN : Fld := ⟨.TRN_RC_RATE, 0, 16⟩
def WQ_SEL_VALID : Fld := ⟨.WQ_SEL, 31, 1⟩
def WQ_SEL_QUEUE : Fld := ⟨.WQ_SEL, 0, 16⟩
def WQ_STATUS_CFG_REFUSED : Fld := ⟨.WQ_STATUS, 1, 1⟩
def WQ_STATUS_RING_FAULT : Fld := ⟨.WQ_STATUS, 0, 1⟩
def WQ_Q_BASE_LO_BASE : Fld := ⟨.WQ_Q_BASE_LO, 12, 20⟩
def WQ_Q_BASE_HI_BASE : Fld := ⟨.WQ_Q_BASE_HI, 0, 25⟩
def WQ_Q_CFG_KIND : Fld := ⟨.WQ_Q_CFG, 30, 2⟩
def WQ_Q_CFG_MEM : Fld := ⟨.WQ_Q_CFG, 29, 1⟩
def WQ_Q_CFG_LOG_SIZE : Fld := ⟨.WQ_Q_CFG, 24, 5⟩
def WQ_Q_CFG_EQ_EN : Fld := ⟨.WQ_Q_CFG, 23, 1⟩
def WQ_Q_CFG_PD : Fld := ⟨.WQ_Q_CFG, 0, 16⟩
def WQ_Q_BIND_MCTX : Fld := ⟨.WQ_Q_BIND, 16, 16⟩
def WQ_Q_BIND_EQ : Fld := ⟨.WQ_Q_BIND, 0, 16⟩
def WQ_Q_CTRL_ENABLE : Fld := ⟨.WQ_Q_CTRL, 31, 1⟩
def WQ_Q_CTRL_RESET : Fld := ⟨.WQ_Q_CTRL, 30, 1⟩
def WQ_Q_STATUS_STATE : Fld := ⟨.WQ_Q_STATUS, 29, 3⟩
def WQ_Q_STATUS_OVF : Fld := ⟨.WQ_Q_STATUS, 28, 1⟩
def WQ_Q_STATUS_CURSOR : Fld := ⟨.WQ_Q_STATUS, 0, 17⟩
def WQ_Q_INFLIGHT_COUNT : Fld := ⟨.WQ_Q_INFLIGHT, 0, 17⟩
def WQ_EQ_COAL_VECTOR : Fld := ⟨.WQ_EQ_COAL, 21, 11⟩
def WQ_EQ_COAL_COUNT : Fld := ⟨.WQ_EQ_COAL, 16, 5⟩
def WQ_EQ_COAL_DELAY : Fld := ⟨.WQ_EQ_COAL, 0, 16⟩
def XLT_RGN_SEL_VALID : Fld := ⟨.XLT_RGN_SEL, 31, 1⟩
def XLT_RGN_SEL_INDEX : Fld := ⟨.XLT_RGN_SEL, 0, 17⟩
def XLT_RGN_RANGE_COUNT : Fld := ⟨.XLT_RGN_RANGE, 8, 8⟩
def XLT_RGN_RANGE_FIRST : Fld := ⟨.XLT_RGN_RANGE, 0, 7⟩
def XLT_RGN_ATTR_EN : Fld := ⟨.XLT_RGN_ATTR, 31, 1⟩
def XLT_RGN_ATTR_KIND : Fld := ⟨.XLT_RGN_ATTR, 30, 1⟩
def XLT_RGN_ATTR_TAG : Fld := ⟨.XLT_RGN_ATTR, 15, 15⟩
def XLT_RGN_ATTR_GEN : Fld := ⟨.XLT_RGN_ATTR, 7, 8⟩
def XLT_RGN_ATTR_RIGHTS : Fld := ⟨.XLT_RGN_ATTR, 0, 6⟩
def XLT_RGN_OWNER_PD : Fld := ⟨.XLT_RGN_OWNER, 16, 16⟩
def XLT_RGN_OWNER_XCTX : Fld := ⟨.XLT_RGN_OWNER, 0, 16⟩
def XLT_RGN_BASE_LO_BASE : Fld := ⟨.XLT_RGN_BASE_LO, 0, 32⟩
def XLT_RGN_BASE_HI_BASE : Fld := ⟨.XLT_RGN_BASE_HI, 0, 25⟩
def XLT_RGN_LEN_LO_LENGTH : Fld := ⟨.XLT_RGN_LEN_LO, 0, 32⟩
def XLT_RGN_LEN_HI_LENGTH : Fld := ⟨.XLT_RGN_LEN_HI, 0, 16⟩
def XLT_RGN_PARENT_PARENT_GEN : Fld := ⟨.XLT_RGN_PARENT, 24, 8⟩
def XLT_RGN_PARENT_PARENT : Fld := ⟨.XLT_RGN_PARENT, 0, 17⟩
def XLT_RGN_CMD_STAGE : Fld := ⟨.XLT_RGN_CMD, 31, 1⟩
def XLT_RGN_CMD_LOAD : Fld := ⟨.XLT_RGN_CMD, 30, 1⟩
def XLT_PROT_STATUS_PENDING : Fld := ⟨.XLT_PROT_STATUS, 16, 13⟩
def XLT_PROT_STATUS_REFUSED : Fld := ⟨.XLT_PROT_STATUS, 2, 1⟩
def XLT_PROT_STATUS_STAGE_FULL : Fld := ⟨.XLT_PROT_STATUS, 1, 1⟩
def XLT_PROT_SETTLED_LO_TICK : Fld := ⟨.XLT_PROT_SETTLED_LO, 0, 32⟩
def XLT_PROT_SETTLED_HI_TICK : Fld := ⟨.XLT_PROT_SETTLED_HI, 0, 32⟩
def MTE_CFG_EAGER_MAX : Fld := ⟨.MTE_CFG, 0, 17⟩
def MTE_STATUS_SPILL_BAD : Fld := ⟨.MTE_STATUS, 3, 1⟩
def MTE_STATUS_UX_FULL : Fld := ⟨.MTE_STATUS, 2, 1⟩
def MTE_STATUS_STORE_FULL : Fld := ⟨.MTE_STATUS, 1, 1⟩
def MTE_STATUS_CFG_REFUSED : Fld := ⟨.MTE_STATUS, 0, 1⟩
def MTE_SPILL_LO_BASE : Fld := ⟨.MTE_SPILL_LO, 12, 20⟩
def MTE_SPILL_LO_HIER : Fld := ⟨.MTE_SPILL_LO, 3, 5⟩
def MTE_SPILL_LO_KIND : Fld := ⟨.MTE_SPILL_LO, 1, 2⟩
def MTE_SPILL_HI_BASE : Fld := ⟨.MTE_SPILL_HI, 0, 25⟩
def MTE_SPILL_SIZE_UNITS : Fld := ⟨.MTE_SPILL_SIZE, 0, 9⟩
def MTE_SPILL_OCC_ENTRIES : Fld := ⟨.MTE_SPILL_OCC, 0, 25⟩
def MTE_SEL_VALID : Fld := ⟨.MTE_SEL, 31, 1⟩
def MTE_SEL_CONTEXT : Fld := ⟨.MTE_SEL, 0, 16⟩
def MTE_CTX_CFG_MEM : Fld := ⟨.MTE_CTX_CFG, 31, 1⟩
def MTE_CTX_CFG_HIER : Fld := ⟨.MTE_CTX_CFG, 26, 5⟩
def MTE_CTX_CFG_SLOT_LOG : Fld := ⟨.MTE_CTX_CFG, 16, 4⟩
def MTE_CTX_CFG_PD : Fld := ⟨.MTE_CTX_CFG, 0, 16⟩
def MTE_CTX_UX_LO_BASE : Fld := ⟨.MTE_CTX_UX_LO, 12, 20⟩
def MTE_CTX_UX_HI_BASE : Fld := ⟨.MTE_CTX_UX_HI, 0, 25⟩
def MTE_CTX_SLOTS_SLOTS : Fld := ⟨.MTE_CTX_SLOTS, 0, 16⟩
def MTE_CTX_LIMIT_ENTRIES : Fld := ⟨.MTE_CTX_LIMIT, 0, 25⟩
def MTE_CTX_CTRL_ENABLE : Fld := ⟨.MTE_CTX_CTRL, 31, 1⟩
def MTE_CTX_STATUS_STATE : Fld := ⟨.MTE_CTX_STATUS, 30, 2⟩
def MTE_CTX_STATUS_ENTRIES : Fld := ⟨.MTE_CTX_STATUS, 0, 25⟩
def MTE_CTX_UX_USED_SLOTS_USED : Fld := ⟨.MTE_CTX_UX_USED, 0, 16⟩
def MTE_HR_OCC_ENTRIES : Fld := ⟨.MTE_HR_OCC, 0, 13⟩
def MTE_RDV_OUTSTANDING : Fld := ⟨.MTE_RDV, 0, 17⟩
def COL_CAPS_XAC : Fld := ⟨.COL_CAPS, 16, 1⟩
def COL_CAPS_SLOTS : Fld := ⟨.COL_CAPS, 0, 13⟩
def COL_STATUS_FORM_REFUSED : Fld := ⟨.COL_STATUS, 3, 1⟩
def COL_STATUS_FORMAT : Fld := ⟨.COL_STATUS, 2, 1⟩
def COL_STATUS_STALE : Fld := ⟨.COL_STATUS, 1, 1⟩
def COL_STATUS_FAILED : Fld := ⟨.COL_STATUS, 0, 1⟩
def COL_GRP_SEL_GROUP : Fld := ⟨.COL_GRP_SEL, 0, 12⟩
def COL_GRP_CFG_EXACT_OK : Fld := ⟨.COL_GRP_CFG, 31, 1⟩
def COL_GRP_CFG_ROOT : Fld := ⟨.COL_GRP_CFG, 30, 1⟩
def COL_GRP_CFG_PARENT : Fld := ⟨.COL_GRP_CFG, 22, 8⟩
def COL_GRP_CFG_WINDOW : Fld := ⟨.COL_GRP_CFG, 14, 8⟩
def COL_GRP_CFG_TIMEOUT : Fld := ⟨.COL_GRP_CFG, 0, 14⟩
def COL_GRP_MEMBERS_MEMBERS : Fld := ⟨.COL_GRP_MEMBERS, 0, 31⟩
def COL_GRP_CHILD_PORTS : Fld := ⟨.COL_GRP_CHILD, 0, 32⟩
def COL_GRP_CTRL_FORM : Fld := ⟨.COL_GRP_CTRL, 31, 1⟩
def COL_GRP_CTRL_DISSOLVE : Fld := ⟨.COL_GRP_CTRL, 30, 1⟩
def COL_GRP_CTRL_ROOT_EP : Fld := ⟨.COL_GRP_CTRL, 16, 5⟩
def COL_GRP_CTRL_OPSEQ : Fld := ⟨.COL_GRP_CTRL, 0, 16⟩
def COL_GRP_STATUS_STATE : Fld := ⟨.COL_GRP_STATUS, 30, 2⟩
def COL_GRP_STATUS_REASON : Fld := ⟨.COL_GRP_STATUS, 16, 8⟩
def COL_GRP_STATUS_OPSEQ : Fld := ⟨.COL_GRP_STATUS, 0, 16⟩
def COL_GRP_FLOW_F : Fld := ⟨.COL_GRP_FLOW, 0, 24⟩
def COL_UNIT_RESERVED : Fld := ⟨.COL_UNIT, 16, 13⟩
def COL_UNIT_INTAKE : Fld := ⟨.COL_UNIT, 0, 11⟩
def XLT_CTX_SEL_VALID : Fld := ⟨.XLT_CTX_SEL, 31, 1⟩
def XLT_CTX_SEL_CTX : Fld := ⟨.XLT_CTX_SEL, 0, 16⟩
def XLT_CTX_CFG_ENABLE : Fld := ⟨.XLT_CTX_CFG, 31, 1⟩
def XLT_CTX_CFG_KIND : Fld := ⟨.XLT_CTX_CFG, 29, 2⟩
def XLT_CTX_CFG_DEV_OK : Fld := ⟨.XLT_CTX_CFG, 28, 1⟩
def XLT_CTX_CFG_LEVELS : Fld := ⟨.XLT_CTX_CFG, 26, 2⟩
def XLT_CTX_CFG_MEM : Fld := ⟨.XLT_CTX_CFG, 25, 1⟩
def XLT_CTX_CFG_HIER : Fld := ⟨.XLT_CTX_CFG, 20, 5⟩
def XLT_CTX_ROOT_LO_ROOT : Fld := ⟨.XLT_CTX_ROOT_LO, 12, 20⟩
def XLT_CTX_ROOT_HI_ROOT : Fld := ⟨.XLT_CTX_ROOT_HI, 0, 25⟩
def XLT_CTX_STATUS_STATE : Fld := ⟨.XLT_CTX_STATUS, 30, 2⟩
def XLT_CTX_STATUS_LOCKED : Fld := ⟨.XLT_CTX_STATUS, 0, 11⟩
def XLT_INV_CTRL_TYPE : Fld := ⟨.XLT_INV_CTRL, 30, 2⟩
def XLT_INV_CTRL_ISSUE : Fld := ⟨.XLT_INV_CTRL, 29, 1⟩
def XLT_INV_CTRL_LOG_PAGES : Fld := ⟨.XLT_INV_CTRL, 16, 6⟩
def XLT_INV_CTRL_CTX : Fld := ⟨.XLT_INV_CTRL, 0, 16⟩
def XLT_INV_ADDR_LO_ADDR : Fld := ⟨.XLT_INV_ADDR_LO, 12, 20⟩
def XLT_INV_ADDR_HI_ADDR : Fld := ⟨.XLT_INV_ADDR_HI, 0, 25⟩
def XLT_INV_TOKEN_ISSUED : Fld := ⟨.XLT_INV_TOKEN, 16, 16⟩
def XLT_INV_TOKEN_DONE : Fld := ⟨.XLT_INV_TOKEN, 0, 16⟩
def XLT_STATUS_LOCK_REFUSED : Fld := ⟨.XLT_STATUS, 2, 1⟩
def XLT_STATUS_LOCKED_HIT : Fld := ⟨.XLT_STATUS, 1, 1⟩
def XLT_STATUS_INV_FULL : Fld := ⟨.XLT_STATUS, 0, 1⟩
def XLT_LOCK_CTRL_OP : Fld := ⟨.XLT_LOCK_CTRL, 30, 2⟩
def XLT_LOCK_CTRL_GO : Fld := ⟨.XLT_LOCK_CTRL, 29, 1⟩
def XLT_LOCK_CTRL_DEST : Fld := ⟨.XLT_LOCK_CTRL, 28, 1⟩
def XLT_LOCK_CTRL_RESULT : Fld := ⟨.XLT_LOCK_CTRL, 24, 4⟩
def XLT_LOCK_CTRL_SIZE : Fld := ⟨.XLT_LOCK_CTRL, 22, 2⟩
def XLT_LOCK_CTRL_CTX_ENG : Fld := ⟨.XLT_LOCK_CTRL, 0, 16⟩
def XLT_LOCK_ADDR_LO_ADDR : Fld := ⟨.XLT_LOCK_ADDR_LO, 12, 20⟩
def XLT_LOCK_ADDR_HI_ADDR : Fld := ⟨.XLT_LOCK_ADDR_HI, 0, 25⟩
def XLT_LOCK_ENTRY_LO_ENTRY : Fld := ⟨.XLT_LOCK_ENTRY_LO, 0, 32⟩
def XLT_LOCK_ENTRY_HI_ENTRY : Fld := ⟨.XLT_LOCK_ENTRY_HI, 0, 32⟩
def XLT_LOCK_COUNT_COUNT : Fld := ⟨.XLT_LOCK_COUNT, 0, 11⟩
def XLT_FAULT_INFO_VALID : Fld := ⟨.XLT_FAULT_INFO, 31, 1⟩
def XLT_FAULT_INFO_MORE : Fld := ⟨.XLT_FAULT_INFO, 30, 1⟩
def XLT_FAULT_INFO_HIT : Fld := ⟨.XLT_FAULT_INFO, 29, 1⟩
def XLT_FAULT_INFO_USER : Fld := ⟨.XLT_FAULT_INFO, 27, 2⟩
def XLT_FAULT_INFO_LEVEL : Fld := ⟨.XLT_FAULT_INFO, 24, 3⟩
def XLT_FAULT_INFO_CAUSE : Fld := ⟨.XLT_FAULT_INFO, 20, 4⟩
def XLT_FAULT_INFO_CTX : Fld := ⟨.XLT_FAULT_INFO, 0, 16⟩
def XLT_FAULT_VA_LO_VA : Fld := ⟨.XLT_FAULT_VA_LO, 0, 32⟩
def XLT_FAULT_VA_HI_VA : Fld := ⟨.XLT_FAULT_VA_HI, 0, 25⟩
def XLT_FAULT_TBL_LO_TBL : Fld := ⟨.XLT_FAULT_TBL_LO, 12, 20⟩
def XLT_FAULT_TBL_HI_TBL : Fld := ⟨.XLT_FAULT_TBL_HI, 0, 25⟩
def XLT_HR_MODE_SLOTS_USED : Fld := ⟨.XLT_HR_MODE, 4, 5⟩
def XLT_HR_MODE_MODE : Fld := ⟨.XLT_HR_MODE, 0, 1⟩
def XLT_HMEM_BASE_LO_BASE : Fld := ⟨.XLT_HMEM_BASE_LO, 12, 20⟩
def XLT_HMEM_BASE_LO_VALID : Fld := ⟨.XLT_HMEM_BASE_LO, 0, 1⟩
def XLT_HMEM_BASE_HI_BASE : Fld := ⟨.XLT_HMEM_BASE_HI, 0, 25⟩
def XLT_HMEM_LIMIT_LO_LIMIT : Fld := ⟨.XLT_HMEM_LIMIT_LO, 12, 20⟩
def XLT_HMEM_LIMIT_HI_LIMIT : Fld := ⟨.XLT_HMEM_LIMIT_HI, 0, 25⟩
def MBR_CAPS_DIR_LOG_MAX : Fld := ⟨.MBR_CAPS, 22, 5⟩
def MBR_CAPS_DECODERS : Fld := ⟨.MBR_CAPS, 16, 6⟩
def MBR_CAPS_RD_MAX : Fld := ⟨.MBR_CAPS, 0, 16⟩
def MBR_CFG_EN : Fld := ⟨.MBR_CFG, 31, 1⟩
def MBR_CFG_DEADLINE : Fld := ⟨.MBR_CFG, 16, 12⟩
def MBR_CFG_POOL_PD : Fld := ⟨.MBR_CFG, 0, 16⟩
def MBR_STATUS_EXT_FAILED : Fld := ⟨.MBR_STATUS, 3, 1⟩
def MBR_STATUS_PATH_DEAD : Fld := ⟨.MBR_STATUS, 2, 1⟩
def MBR_STATUS_DEADLINE : Fld := ⟨.MBR_STATUS, 1, 1⟩
def MBR_STATUS_MAP_FAULT : Fld := ⟨.MBR_STATUS, 0, 1⟩
def MBR_DIR_LO_BASE : Fld := ⟨.MBR_DIR_LO, 12, 20⟩
def MBR_DIR_LO_LOG : Fld := ⟨.MBR_DIR_LO, 0, 5⟩
def MBR_DIR_HI_BASE : Fld := ⟨.MBR_DIR_HI, 0, 25⟩
def MBR_HIER_SEL_VALID : Fld := ⟨.MBR_HIER_SEL, 31, 1⟩
def MBR_HIER_SEL_HIER : Fld := ⟨.MBR_HIER_SEL, 0, 5⟩
def MBR_HIER_WIN_ENABLE : Fld := ⟨.MBR_HIER_WIN, 31, 1⟩
def MBR_HIER_WIN_GIB : Fld := ⟨.MBR_HIER_WIN, 0, 19⟩
def MBR_HIER_CTX_XCTX : Fld := ⟨.MBR_HIER_CTX, 0, 16⟩
def MBR_HIER_STATUS_STATE : Fld := ⟨.MBR_HIER_STATUS, 30, 2⟩
def MBR_HIER_STATUS_RD : Fld := ⟨.MBR_HIER_STATUS, 15, 15⟩
def MBR_HIER_STATUS_WR : Fld := ⟨.MBR_HIER_STATUS, 0, 15⟩
def MBR_PSET_SEL_PSET : Fld := ⟨.MBR_PSET_SEL, 0, 12⟩
def MBR_PSET_HOME_HOME : Fld := ⟨.MBR_PSET_HOME, 0, 22⟩
def MBR_PSET_CONN_VALID : Fld := ⟨.MBR_PSET_CONN, 31, 1⟩
def MBR_PSET_CONN_CONN : Fld := ⟨.MBR_PSET_CONN, 0, 24⟩
def MBR_PSET_STATUS_STATE : Fld := ⟨.MBR_PSET_STATUS, 30, 2⟩
def MBR_PSET_STATUS_READY : Fld := ⟨.MBR_PSET_STATUS, 0, 4⟩
def HSW_CAPS_DIES : Fld := ⟨.HSW_CAPS, 16, 2⟩
def HSW_CAPS_VF_MAX : Fld := ⟨.HSW_CAPS, 0, 13⟩
def HSW_CFG_FW_HIER : Fld := ⟨.HSW_CFG, 16, 5⟩
def HSW_CFG_TUN_PD : Fld := ⟨.HSW_CFG, 0, 16⟩
def HSW_STATUS_CONFLICT : Fld := ⟨.HSW_STATUS, 4, 1⟩
def HSW_STATUS_LATE_CPL : Fld := ⟨.HSW_STATUS, 3, 1⟩
def HSW_STATUS_CTO : Fld := ⟨.HSW_STATUS, 2, 1⟩
def HSW_STATUS_DPC : Fld := ⟨.HSW_STATUS, 1, 1⟩
def HSW_STATUS_ACL_BLOCK : Fld := ⟨.HSW_STATUS, 0, 1⟩
def HSW_GRP_CFG_ENABLE : Fld := ⟨.HSW_GRP_CFG, 31, 1⟩
def HSW_GRP_CFG_MAX_RATE : Fld := ⟨.HSW_GRP_CFG, 16, 4⟩
def HSW_GRP_CFG_BIF : Fld := ⟨.HSW_GRP_CFG, 0, 2⟩
def HSW_PORT_CFG_ROLE : Fld := ⟨.HSW_PORT_CFG, 30, 2⟩
def HSW_PORT_CFG_HIER : Fld := ⟨.HSW_PORT_CFG, 25, 5⟩
def HSW_PORT_STATUS_STATE : Fld := ⟨.HSW_PORT_STATUS, 29, 3⟩
def HSW_PORT_STATUS_RATE : Fld := ⟨.HSW_PORT_STATUS, 25, 4⟩
def HSW_PORT_STATUS_WIDTH : Fld := ⟨.HSW_PORT_STATUS, 20, 5⟩
def HSW_PORT_STATUS_PERST : Fld := ⟨.HSW_PORT_STATUS, 19, 1⟩
def HSW_PORT_STATUS_CXL : Fld := ⟨.HSW_PORT_STATUS, 18, 1⟩
def HSW_PORT_STATUS_FLIT : Fld := ⟨.HSW_PORT_STATUS, 17, 1⟩
def HSW_PORT_STATUS_REVERSED : Fld := ⟨.HSW_PORT_STATUS, 16, 1⟩
def HSW_PORT_STATUS_TUNNEL : Fld := ⟨.HSW_PORT_STATUS, 0, 7⟩
def HSW_HIER_ACTIVE : Fld := ⟨.HSW_HIER, 31, 1⟩
def HSW_HIER_READY : Fld := ⟨.HSW_HIER, 30, 1⟩
def HSW_HIER_USP : Fld := ⟨.HSW_HIER, 24, 6⟩
def HSW_HIER_IPORT : Fld := ⟨.HSW_HIER, 16, 8⟩
def HSW_HIER_DSPS : Fld := ⟨.HSW_HIER, 0, 6⟩
def HSW_P2P_LO_PORTS : Fld := ⟨.HSW_P2P_LO, 0, 32⟩
def HSW_P2P_HI_PORTS : Fld := ⟨.HSW_P2P_HI, 0, 16⟩
def HSW_TUN_SEL_TUNNEL : Fld := ⟨.HSW_TUN_SEL, 0, 6⟩
def HSW_TUN_STATUS_STATE : Fld := ⟨.HSW_TUN_STATUS, 30, 2⟩
def HSW_TUN_STATUS_SIDE : Fld := ⟨.HSW_TUN_STATUS, 29, 1⟩
def HSW_TUN_STATUS_HIER : Fld := ⟨.HSW_TUN_STATUS, 24, 5⟩
def HSW_TUN_STATUS_VDSP : Fld := ⟨.HSW_TUN_STATUS, 16, 5⟩
def HSW_TUN_STATUS_PORT : Fld := ⟨.HSW_TUN_STATUS, 0, 6⟩
def HSW_TUN_PEER_PORT : Fld := ⟨.HSW_TUN_PEER, 22, 6⟩
def HSW_TUN_PEER_EP : Fld := ⟨.HSW_TUN_PEER, 0, 22⟩
def HSW_TUN_CONN_CONN : Fld := ⟨.HSW_TUN_CONN, 0, 24⟩
def ENG_CAPS_PKG_MAX : Fld := ⟨.ENG_CAPS, 24, 3⟩
def ENG_CAPS_LM_KIB : Fld := ⟨.ENG_CAPS, 16, 8⟩
def ENG_CAPS_ENGINES : Fld := ⟨.ENG_CAPS, 0, 11⟩
def ENG_CFG_CYCLE_MAX : Fld := ⟨.ENG_CFG, 16, 16⟩
def ENG_CFG_RETIRE_AFTER : Fld := ⟨.ENG_CFG, 0, 4⟩
def ENG_STATUS_PKG_REFUSED : Fld := ⟨.ENG_STATUS, 2, 1⟩
def ENG_STATUS_RETIRED : Fld := ⟨.ENG_STATUS, 1, 1⟩
def ENG_STATUS_FAULT : Fld := ⟨.ENG_STATUS, 0, 1⟩
def ENG_PKG_SEL_SLOT : Fld := ⟨.ENG_PKG_SEL, 0, 3⟩
def ENG_PKG_STATUS_STATE : Fld := ⟨.ENG_PKG_STATUS, 30, 2⟩
def ENG_PKG_STATUS_ENDPOINT : Fld := ⟨.ENG_PKG_STATUS, 8, 5⟩
def ENG_PKG_STATUS_HANDLERS : Fld := ⟨.ENG_PKG_STATUS, 0, 8⟩
def ENG_PKG_ID_PACKAGE : Fld := ⟨.ENG_PKG_ID, 16, 16⟩
def ENG_PKG_ID_VERSION : Fld := ⟨.ENG_PKG_ID, 0, 16⟩
def ENG_PKG_HR_LO_MASK : Fld := ⟨.ENG_PKG_HR_LO, 0, 32⟩
def ENG_PKG_HR_HI_MASK : Fld := ⟨.ENG_PKG_HR_HI, 0, 32⟩
def ENG_PKG_COST_COST : Fld := ⟨.ENG_PKG_COST, 0, 16⟩
def ENG_HR_ENG_RETIRED : Fld := ⟨.ENG_HR_ENG, 16, 16⟩
def ENG_HR_ENG_BUSY : Fld := ⟨.ENG_HR_ENG, 0, 16⟩
def ENG_FAULT_INFO_VALID : Fld := ⟨.ENG_FAULT_INFO, 31, 1⟩
def ENG_FAULT_INFO_MORE : Fld := ⟨.ENG_FAULT_INFO, 30, 1⟩
def ENG_FAULT_INFO_SLOT : Fld := ⟨.ENG_FAULT_INFO, 24, 3⟩
def ENG_FAULT_INFO_CAUSE : Fld := ⟨.ENG_FAULT_INFO, 20, 4⟩
def ENG_FAULT_INFO_ENGINE : Fld := ⟨.ENG_FAULT_INFO, 0, 10⟩
def ENG_FAULT_TICK_LO_TICK : Fld := ⟨.ENG_FAULT_TICK_LO, 0, 32⟩
def ENG_FAULT_TICK_HI_TICK : Fld := ⟨.ENG_FAULT_TICK_HI, 0, 32⟩
def PWR_LIMIT_WATTS : Fld := ⟨.PWR_LIMIT, 0, 10⟩
def PWR_BUDGET_TOKENS : Fld := ⟨.PWR_BUDGET, 20, 9⟩
def PWR_BUDGET_BASE : Fld := ⟨.PWR_BUDGET, 0, 20⟩
def PWR_STATUS_FLOOR_OVER : Fld := ⟨.PWR_STATUS, 31, 1⟩
def PWR_STATUS_THERM : Fld := ⟨.PWR_STATUS, 30, 1⟩
def PWR_STATUS_CLAMP : Fld := ⟨.PWR_STATUS, 29, 1⟩
def PWR_STATUS_DEFICIT : Fld := ⟨.PWR_STATUS, 0, 20⟩
def PWR_CFG_PARK_IDLE : Fld := ⟨.PWR_CFG, 16, 16⟩
def PWR_CFG_HOLD : Fld := ⟨.PWR_CFG, 8, 8⟩
def PWR_CFG_KNEE : Fld := ⟨.PWR_CFG, 0, 8⟩
def PWR_COST_COST : Fld := ⟨.PWR_COST, 0, 16⟩
def PWR_GRANT_GRANTED : Fld := ⟨.PWR_GRANT, 16, 16⟩
def PWR_GRANT_DEMAND : Fld := ⟨.PWR_GRANT, 0, 16⟩
def PWR_DIE_SCALE : Fld := ⟨.PWR_DIE, 28, 4⟩
def PWR_DIE_TJ : Fld := ⟨.PWR_DIE, 0, 8⟩
def PWR_HR_STATE : Fld := ⟨.PWR_HR, 30, 2⟩
def PWR_HR_MAX_STATE : Fld := ⟨.PWR_HR, 28, 2⟩
def PWR_HR_FORCE_PARK : Fld := ⟨.PWR_HR, 27, 1⟩
def PWR_HR_CONV : Fld := ⟨.PWR_HR, 24, 3⟩
def PWR_HR_QUEUE : Fld := ⟨.PWR_HR, 0, 9⟩
def MBX_DOORBELL_SEQ : Fld := ⟨.MBX_DOORBELL, 16, 16⟩
def MBX_DOORBELL_NWORDS : Fld := ⟨.MBX_DOORBELL, 0, 5⟩
def MBX_CONSUME_SEQ : Fld := ⟨.MBX_CONSUME, 16, 16⟩
def MBX_ACK_SEQ : Fld := ⟨.MBX_ACK, 16, 16⟩
def MBX_ACK_VALID : Fld := ⟨.MBX_ACK, 15, 1⟩
def MBX_ACK_RC : Fld := ⟨.MBX_ACK, 0, 8⟩
def MBX_RESULT_RESULT_VALID : Fld := ⟨.MBX_RESULT, 31, 1⟩
def MBX_RESULT_STATE : Fld := ⟨.MBX_RESULT, 29, 2⟩
def MBX_RESULT_NWORDS : Fld := ⟨.MBX_RESULT, 24, 5⟩
def MBX_RESULT_RC : Fld := ⟨.MBX_RESULT, 16, 8⟩
def MBX_RESULT_SEQ : Fld := ⟨.MBX_RESULT, 0, 16⟩
def MBX_BULK_OWN_PAGES : Fld := ⟨.MBX_BULK_OWN, 0, 32⟩
def MBX_ROOT_MASK_MASK : Fld := ⟨.MBX_ROOT_MASK, 0, 24⟩
def MBX_STATUS_BULK_BLOCKED : Fld := ⟨.MBX_STATUS, 1, 1⟩
def MBX_STATUS_BIND_FULL : Fld := ⟨.MBX_STATUS, 0, 1⟩
def GLB_FAULT_F4 : Fld := ⟨.GLB_FAULT, 31, 1⟩
def GLB_FAULT_F3 : Fld := ⟨.GLB_FAULT, 30, 1⟩
def GLB_FAULT_F2 : Fld := ⟨.GLB_FAULT, 29, 1⟩
def GLB_FAULT_F1 : Fld := ⟨.GLB_FAULT, 28, 1⟩
def GLB_FAULT_F4_CAUSE : Fld := ⟨.GLB_FAULT, 16, 8⟩
def GLB_FAULT_EVENT : Fld := ⟨.GLB_FAULT, 0, 16⟩
def GLB_FAULT_TICK_LO_TICK : Fld := ⟨.GLB_FAULT_TICK_LO, 0, 32⟩
def GLB_FAULT_TICK_HI_TICK : Fld := ⟨.GLB_FAULT_TICK_HI, 0, 32⟩
def GLB_FAULT_INJECT_RESTART : Fld := ⟨.GLB_FAULT_INJECT, 1, 1⟩
def GLB_FAULT_INJECT_FATAL : Fld := ⟨.GLB_FAULT_INJECT, 0, 1⟩
def GLB_CC_STATUS_STATE : Fld := ⟨.GLB_CC_STATUS, 30, 2⟩
def GLB_CC_STATUS_STEP : Fld := ⟨.GLB_CC_STATUS, 27, 3⟩
def GLB_CC_STATUS_DROPPED : Fld := ⟨.GLB_CC_STATUS, 16, 11⟩
def GLB_CC_STATUS_RESTARTS : Fld := ⟨.GLB_CC_STATUS, 8, 8⟩
def GLB_CC_STATUS_SLOT_SEQ : Fld := ⟨.GLB_CC_STATUS, 0, 8⟩
def PMC_CFG_EN : Fld := ⟨.PMC_CFG, 31, 1⟩
def PMC_CFG_MEM : Fld := ⟨.PMC_CFG, 30, 1⟩
def PMC_CFG_HIER : Fld := ⟨.PMC_CFG, 25, 5⟩
def PMC_CFG_SLOTS : Fld := ⟨.PMC_CFG, 16, 4⟩
def PMC_CFG_PERIOD : Fld := ⟨.PMC_CFG, 0, 16⟩
def PMC_GROUPS_MASK : Fld := ⟨.PMC_GROUPS, 0, 13⟩
def PMC_BASE_LO_BASE : Fld := ⟨.PMC_BASE_LO, 12, 20⟩
def PMC_BASE_HI_BASE : Fld := ⟨.PMC_BASE_HI, 0, 25⟩
def PMC_CTRL_NOW : Fld := ⟨.PMC_CTRL, 31, 1⟩
def PMC_STATUS_WRITING : Fld := ⟨.PMC_STATUS, 2, 1⟩
def PMC_STATUS_WRITE_FAIL : Fld := ⟨.PMC_STATUS, 1, 1⟩
def PMC_STATUS_SKIPPED : Fld := ⟨.PMC_STATUS, 0, 1⟩
def PMC_SEQ_LO_SEQ : Fld := ⟨.PMC_SEQ_LO, 0, 32⟩
def PMC_SEQ_HI_SEQ : Fld := ⟨.PMC_SEQ_HI, 0, 32⟩
def PMC_SLOT_SIZE_STRIDE : Fld := ⟨.PMC_SLOT_SIZE, 0, 32⟩
def PMC_USER_EN_PAGE : Fld := ⟨.PMC_USER_EN, 1, 1⟩
def PMC_USER_EN_SNAP : Fld := ⟨.PMC_USER_EN, 0, 1⟩
def EVR_CTRL_FREEZE : Fld := ⟨.EVR_CTRL, 31, 1⟩
def EVR_CTRL_CLEAR_PERM : Fld := ⟨.EVR_CTRL, 30, 1⟩
def EVR_CTRL_CLEAR_CIRC : Fld := ⟨.EVR_CTRL, 29, 1⟩
def EVR_STATUS_FROZEN : Fld := ⟨.EVR_STATUS, 31, 1⟩
def EVR_STATUS_PERM_FULL : Fld := ⟨.EVR_STATUS, 30, 1⟩
def EVR_STATUS_PERM_USED : Fld := ⟨.EVR_STATUS, 16, 8⟩
def EVR_STATUS_CIRC_COUNT : Fld := ⟨.EVR_STATUS, 0, 16⟩
def EVR_FROZEN_CNT_COUNT : Fld := ⟨.EVR_FROZEN_CNT, 0, 32⟩
def EVR_RD_SEL_AREA : Fld := ⟨.EVR_RD_SEL, 31, 1⟩
def EVR_RD_SEL_INDEX : Fld := ⟨.EVR_RD_SEL, 0, 12⟩
def EVR_RATE_BURST : Fld := ⟨.EVR_RATE, 16, 16⟩
def EVR_RATE_RATE : Fld := ⟨.EVR_RATE, 0, 16⟩
def EVR_SUPP_CNT_COUNT : Fld := ⟨.EVR_SUPP_CNT, 0, 32⟩
def EVR_RD_DATA_DATA : Fld := ⟨.EVR_RD_DATA, 0, 32⟩
def EVR_PROF_MATCH_CODE : Fld := ⟨.EVR_PROF_MATCH, 16, 16⟩
def EVR_PROF_MATCH_MASK : Fld := ⟨.EVR_PROF_MATCH, 0, 16⟩
def EVR_PROF_CFG_EN : Fld := ⟨.EVR_PROF_CFG, 31, 1⟩
def EVR_PROF_CFG_PERM : Fld := ⟨.EVR_PROF_CFG, 30, 1⟩
def EVR_PROF_CFG_MUTE : Fld := ⟨.EVR_PROF_CFG, 29, 1⟩
def EVR_PROF_CFG_NREG : Fld := ⟨.EVR_PROF_CFG, 0, 5⟩
def EVR_PROF_REG_OFFSET : Fld := ⟨.EVR_PROF_REG, 2, 23⟩
def NVS_STATUS_BUSY : Fld := ⟨.NVS_STATUS, 31, 1⟩
def NVS_STATUS_OVERFLOW : Fld := ⟨.NVS_STATUS, 30, 1⟩
def NVS_STATUS_WORN : Fld := ⟨.NVS_STATUS, 29, 1⟩
def NVS_STATUS_QUEUE : Fld := ⟨.NVS_STATUS, 0, 5⟩
def NVS_WORN_IDX_VALID : Fld := ⟨.NVS_WORN_IDX, 31, 1⟩
def NVS_WORN_IDX_WORD : Fld := ⟨.NVS_WORN_IDX, 0, 9⟩
def NVS_WORD_VALUE : Fld := ⟨.NVS_WORD, 0, 32⟩
def NVS_WEAR_COUNT : Fld := ⟨.NVS_WEAR, 0, 17⟩
def SEC_STATUS_SOURCE : Fld := ⟨.SEC_STATUS, 30, 2⟩
def SEC_STATUS_DEBUG : Fld := ⟨.SEC_STATUS, 29, 1⟩
def SEC_STATUS_CUST_KEY : Fld := ⟨.SEC_STATUS, 28, 1⟩
def SEC_STATUS_OVR : Fld := ⟨.SEC_STATUS, 27, 1⟩
def SEC_STATUS_ROOT : Fld := ⟨.SEC_STATUS, 26, 1⟩
def SEC_STATUS_ROLE : Fld := ⟨.SEC_STATUS, 24, 2⟩
def SEC_STATUS_FAIL_A : Fld := ⟨.SEC_STATUS, 16, 8⟩
def SEC_STATUS_FAIL_B : Fld := ⟨.SEC_STATUS, 8, 8⟩
def SEC_STATUS_STRAP_BOOT : Fld := ⟨.SEC_STATUS, 2, 2⟩
def SEC_STATUS_STRAP_ROLE : Fld := ⟨.SEC_STATUS, 0, 2⟩
def SEC_SVN_COUNT : Fld := ⟨.SEC_SVN, 0, 7⟩
def SEC_UID_UID : Fld := ⟨.SEC_UID, 0, 32⟩
def SEC_NONCE_LO_NONCE : Fld := ⟨.SEC_NONCE_LO, 0, 32⟩
def SEC_NONCE_HI_NONCE : Fld := ⟨.SEC_NONCE_HI, 0, 32⟩
def GLB_ID_PART : Fld := ⟨.GLB_ID, 16, 16⟩
def GLB_ID_STEP : Fld := ⟨.GLB_ID, 12, 4⟩
def GLB_ID_METAL : Fld := ⟨.GLB_ID, 8, 4⟩
def GLB_ID_CODE : Fld := ⟨.GLB_ID, 0, 2⟩
def GLB_FW_VERSION_LINE : Fld := ⟨.GLB_FW_VERSION, 24, 8⟩
def GLB_FW_VERSION_MINOR : Fld := ⟨.GLB_FW_VERSION, 16, 8⟩
def GLB_FW_VERSION_BUILD : Fld := ⟨.GLB_FW_VERSION, 0, 16⟩
def GLB_CAPS0_MBR : Fld := ⟨.GLB_CAPS0, 31, 1⟩
def GLB_CAPS0_COL : Fld := ⟨.GLB_CAPS0, 30, 1⟩
def GLB_CAPS0_XAC : Fld := ⟨.GLB_CAPS0, 29, 1⟩
def GLB_CAPS0_HBM : Fld := ⟨.GLB_CAPS0, 24, 4⟩
def GLB_CAPS0_HL_DIES : Fld := ⟨.GLB_CAPS0, 22, 2⟩
def GLB_CAPS0_FABRIC_PORTS : Fld := ⟨.GLB_CAPS0, 8, 8⟩
def GLB_CAPS0_HOST_PORTS : Fld := ⟨.GLB_CAPS0, 0, 8⟩
def GLB_CAPS1_HIERS : Fld := ⟨.GLB_CAPS1, 27, 5⟩
def GLB_CAPS1_VFS : Fld := ⟨.GLB_CAPS1, 14, 13⟩
def GLB_CAPS1_HBM_GB : Fld := ⟨.GLB_CAPS1, 8, 6⟩
def GLB_CAPS1_PKG_SLOTS : Fld := ⟨.GLB_CAPS1, 4, 4⟩
def GLB_CAPS1_SPILL : Fld := ⟨.GLB_CAPS1, 3, 1⟩
def GLB_CAPS1_TUNNEL : Fld := ⟨.GLB_CAPS1, 2, 1⟩
def GLB_ERR_SIZE : Fld := ⟨.GLB_ERR, 1, 1⟩
def GLB_ERR_STATE_WRITE : Fld := ⟨.GLB_ERR, 0, 1⟩
def GLB_ERR_ADDR_VALID : Fld := ⟨.GLB_ERR_ADDR, 31, 1⟩
def GLB_ERR_ADDR_OFFSET : Fld := ⟨.GLB_ERR_ADDR, 0, 25⟩
def MBX_A_WORD : Fld := ⟨.MBX_A, 0, 32⟩
def MBX_B_WORD : Fld := ⟨.MBX_B, 0, 32⟩

end F

end Sys2Proof.Machine
end

