-- ==== Sys2Proof/Machine/State.lean ====
section
/-!
DEFINITION. The state of the block as plain data. Every register of the first BAR has its one home in the register file
`Dev.regs`; what the chapters describe beside the registers stands in one structure for each unit.
-/

namespace Sys2Proof.Machine

/-- Why the block would stop. No command of this model raises one: the spec gives every command an effect.
DESIGN CHOICE, safe (assumption 118). -/
inductive Fault where
  /-- Raised by no meaning; kept so that the type is inhabited. Safe. -/
  | unreachable
  deriving DecidableEq, Repr

/-- Why a command would be refused. -/
inductive Refusal where
  /-- Raised by `exec` for a command whose meaning is not written. Safe: it stops where the hardware goes on. -/
  | notModelled (mnemonic : String)
  deriving DecidableEq, Repr

/-- A table of values by number: the first entry with a number is its value. -/
abbrev Tbl (α : Type) := List (Nat × α)

/-- An address space the device writes into. -/
inductive Space where
  /-- Memory of host hierarchy `h`. -/
  | host (h : Nat)
  /-- The device's own HBM. -/
  | hbm
  /-- Control-complex memory. -/
  | cc
  /-- The bulk window of the management function of hierarchy `h` (R434). -/
  | bulk (h : Nat)
  /-- Device space of hierarchy `h` (Table 11-3, TGT DEVICE). -/
  | dev (h : Nat)
  /-- Pool memory (Table 11-3, TGT POOL). -/
  | pool
  deriving DecidableEq, Repr

/-- One store the device makes during a command. -/
structure MemWr where
  space : Space
  addr : Nat
  bytes : List Byte
  deriving DecidableEq, Repr

/-- An access that waits at the memory-residency arbiter (R201): its client of Table 06-9, what it is for among that client's
own (a port, a connection, a walk or a matching context), whether it takes an HBM burst, the boundary count at which it was
asked for, and what it stores when it is issued. -/
structure ArbReq where
  client : Nat
  key : Nat
  hbm : Bool
  at_ : Nat
  writes : List MemWr
  deriving DecidableEq, Repr

/-- What the device sends to the outside, other than memory stores. DESIGN CHOICE, safe (assumption 11). -/
inductive Out where
  /-- Data returned to a register read. -/
  | readData (fn : Nat) (off : Nat) (v : BitVec 64)
  /-- A result sent to the BMC: channel, result word and B0 to B15 (Table 15-1); and the vendor ID of its messages (R427). -/
  | bmcResult (ch : Nat) (ws : List Word)
  | bmcVendor (id : BitVec 16)
  /-- An SPDM response: the request it answers, and the measured content of the blocks it carries (R498); an error to a request
  that is not supported. -/
  | spdm (req : SpdmReq) (blocks : List (Nat × List Byte))
  /-- A link frame of a fabric port: for each logical lane in use, ascending, the PAM4 levels sent (R45, R78). -/
  | frame (port : Nat) (lanes : List (List (BitVec 2)))
  /-- A training frame, or a frame's time of a pattern of bring-up or test mode: for each lane sent on, ascending, the PAM4 levels
  (R59 to R61, R64). -/
  | training (port : Nat) (lanes : List (List (BitVec 2)))
  /-- An MSI-X message of a function (R236). -/
  | msix (fn : Nat) (vector : Nat)
  /-- MemData to a hierarchy's host: the request's tag, the line, and whether it is poisoned (Table 12-3). -/
  | memData (h tag : Nat) (data : List Byte) (poison : Bool)
  /-- Cmp to a hierarchy's host. -/
  | cmp (h tag : Nat)
  /-- A General Media Event record: window offset and transaction (R363). -/
  | mediaEvent (h off : Nat) (write : Bool)
  /-- A TLP handed on: to a host-lane port, or to the host through a virtual downstream port (R383). -/
  | tlpPort (n : Nat) (bs : List Byte)
  | tlpHost (h v : Nat) (bs : List Byte)
  /-- A reset of the device on a host-lane port, or of one function or logical device behind it (R389, R399). -/
  | portReset (n : Nat)
  | funcReset (n i : Nat)
  /-- The link of a host-lane port is disabled (R385). -/
  | linkDisable (n : Nat)
  /-- An Unsupported Request completion, or its advisory log entry for a write (R391). -/
  | unsupported (fn : Nat) (write : Bool)
  /-- The answer to a configuration request; `retry` for Request Retry Status (R396). -/
  | config (fn : Nat) (retry : Bool)
  /-- A peer request that is passed on: from a hierarchy, to a virtual downstream port or through a peer window, with the
  address it enters the target with, or redirected to the host (R380). -/
  | peer (h : Nat) (v : Nat) (addr : Nat) (write : Bool)
  | peerWin (h : Nat) (port : Nat) (addr : Nat) (write : Bool)
  | peerHost (h : Nat) (write : Bool)
  /-- A Completion Timeout or an Unexpected Completion reported in AER (R394, R395). -/
  | aer (h : Nat) (late : Bool)
  deriving DecidableEq, Repr

/-- One version of a protection entry (Table 08-2), laid out as its field registers, with the tick in which it took effect
(R257). -/
structure ProtVer where
  from_ : Nat
  attr : Word
  owner : Word
  base : Nat
  len : Nat
  parent : Word
  deriving DecidableEq, Repr

/-- An extent directory entry (Table 12-2). -/
structure DirEnt where
  flags : Nat
  pset : Nat
  gen : Nat
  key : Nat
  offset : Nat
  deriving DecidableEq, Repr

/-- A tick-aligned write that waits for its boundary (R32). -/
inductive StagedAct where
  /-- A register word, with the mask of the bits that are written. -/
  | reg (r : Reg) (i : Nat) (v m : Word)
  /-- `SCH_OBS_CTRL.CLEAR` (R137). -/
  | obsClear
  /-- `PMC_CTRL.NOW` (R468). -/
  | pmcNow
  /-- A protection entry (R258). -/
  | prot (i : Nat) (v : ProtVer)
  /-- An extent directory entry (R365). -/
  | dirEnt (x : Nat) (e : DirEnt)
  deriving DecidableEq, Repr

/-- A staged write: due at a boundary, or held by a function's `TCK_HOLD` (R35). -/
structure Staged where
  /-- The boundary count at which it is applied; `none` while it is held. -/
  due : Option Nat
  fn : Nat
  act : StagedAct
  deriving DecidableEq, Repr

/-- Tick work that a tick left for the next one (R30, R31). -/
structure Late where
  /-- Unit 0: the digest and its build tick. -/
  digest : Option (BitVec 64 × Nat)
  /-- Unit 2: class queues still to be refilled. -/
  refill : List Nat
  /-- Unit 3: samples still to be folded: class queue, depth, and delay where there is one. -/
  samples : List (Nat × Nat × Option Nat)
  /-- Unit 4: outstanding counts latched and still to be taken into the estimate, by 12 × port + virtual channel. -/
  audit : List (Nat × Nat)
  /-- Unit 5: work granted and not yet admitted: hedgerows to be raised, and units of kind `k` under 64 + `k`. -/
  grants : Tbl Nat
  /-- Unit 7: connections still to be raised. -/
  rates : List Nat
  deriving DecidableEq, Repr

/-- The tick unit beside its registers (R13 to R41). DESIGN CHOICE, unsafe (assumption 5). -/
structure Clk where
  /-- The tick number (R13). -/
  tick : Tick
  /-- The tick number before the last boundary; R15 may have skipped numbers between the two. -/
  prev : Tick
  /-- Tick boundaries since reset; spans given in ticks are counted in these (R27). -/
  edges : Nat
  /-- Ports with a live forwarded clock. -/
  live : List Nat
  /-- Ports refused as a source by R15. -/
  refused : List Nat
  /-- The provisional parent (R18). -/
  provisional : Option Nat
  /-- The port of a planned switchover under way (Table 01-2). -/
  planned : Option Nat
  /-- The boundary count at which HOLDOVER was entered (R21). -/
  holdoverAt : Nat
  /-- Numbers to skip at the next boundary (R15). -/
  skip : Nat
  /-- Staged tick-aligned writes, oldest first. -/
  staged : List Staged
  /-- For each function with `TCK_HOLD` set, the boundary count at which it was set (R35). -/
  holdAt : Tbl Nat
  /-- Hedgerows whose clock floor R37 has raised: the floor's state, and the boundary count since which the supply difference
  has stayed below 120 mV. -/
  floor : Tbl (Nat × Option Nat)
  /-- Budget shares of dies withheld by R37, in eighths. -/
  dieShare : Tbl Nat
  /-- Units whose tick work of the tick at hand is counted as deferred (R30). -/
  deferred : List Nat
  /-- Tick work left for the next tick. -/
  late : Late
  /-- For each port, by how much this device's boundary falls after that of the port's far end, from the last marker that gave a
  boundary, in units of 5 ps (R24, R83). -/
  offs : Tbl Int
  /-- Core cycles of the tick at hand: 1,023, 1,024 or 1,025 (R26). -/
  len : Nat
  /-- Core cycles of all ticks since reset before the one at hand: the free-running cycle count of its first cycle. -/
  cycles : Nat
  deriving DecidableEq, Repr

/-- A record of the event recorder with its stamp (Tables 17-3 and 17-4). -/
structure EvRec where
  code : Nat
  /-- The profile taken; 0x7F for none. -/
  profile : Nat
  perm : Bool
  ctx : List Word
  regs : List Word
  tick : Tick
  rnum : Nat
  supp : Nat
  fabric : Bool
  epoch : Nat
  /-- Whether CHECK is the complement of its correct value: the slot is empty (R474). -/
  empty : Bool
  deriving DecidableEq, Repr

/-- The token bucket of one event code (R477). -/
structure Bucket where
  /-- Units of 1/1,024 token. -/
  units : Nat
  /-- The boundary count at that code's last event. -/
  last : Nat
  /-- Records suppressed since the previous record of the code. -/
  supp : Nat
  deriving DecidableEq, Repr

/-- The event recorder beside its registers (R474 to R479). -/
structure Evr where
  /-- Circulating slots, 0 to 4,095. -/
  circ : Tbl EvRec
  /-- Permanent slots, 0 to 255; they stand in the record area (R504). -/
  perm : Tbl EvRec
  /-- Record number of the next circulating record. -/
  circNext : Nat
  /-- Record number of the next permanent record. -/
  permNext : Nat
  /-- Slots 0 to 247 filled. -/
  permUsed : Nat
  /-- `GLB_F4` records written to slots 248 to 255. -/
  f4Count : Nat
  /-- Whether `EVR_PERM_FULL` was raised since the last clear (R476). -/
  fullRaised : Bool
  /-- How often each permanent slot was programmed (R504). -/
  wear : Tbl Nat
  buckets : Tbl Bucket
  /-- The boundary count at which FREEZE was set (R478). -/
  freezeAt : Option Nat
  deriving DecidableEq, Repr

/-- One latched snapshot (R468, Table 17-2). -/
structure Snap where
  num : Nat
  tick : Tick
  device : Nat
  groups : Nat
  epoch : Nat
  fabric : Bool
  now : Bool
  skipped : Bool
  period : Nat
  cnts : Tbl (Tbl (BitVec 48))
  deriving DecidableEq, Repr

/-- The counter reader beside its registers (R468 to R473). -/
structure Pmc where
  /-- Number of the last snapshot taken since EN became 1. -/
  num : Nat
  /-- The snapshot being written. -/
  cur : Option Snap
  /-- A due snapshot was skipped since the last one written. -/
  skip : Bool
  /-- The counters as the last boundary found them (R468). -/
  edge : Tbl (Tbl (BitVec 48))
  /-- The edge at hand applied a NOW. -/
  now : Bool
  /-- The boundary count at which a snapshot last fell due. -/
  dueAt : Option Nat
  /-- The latest written snapshot, which the counter pages mirror (R472). -/
  page : Option Snap
  deriving DecidableEq, Repr

/-- A coppice slot (R451). -/
structure Coppice where
  /-- The format in which firmware wrote it (R456). -/
  format : Nat
  tick : Tick
  valid : Bool
  deriving DecidableEq, Repr

/-- A journal entry of firmware (R452): the channel and SEQ of the command, the boundary count at which its action was
recorded, and its done mark. -/
structure Journal where
  ch : Nat
  seq : Nat
  at_ : Nat
  done : Bool
  deriving DecidableEq, Repr

/-- The control complex beside its registers (R451 to R457). -/
structure Cc where
  /-- The two coppice slots. -/
  slots : Tbl Coppice
  /-- The slot being captured, its tick, and the boundary count of its start. -/
  capturing : Option (Nat × Tick × Nat)
  /-- The slot the next point goes to. -/
  nextSlot : Nat
  journal : List Journal
  /-- Boundary counts at which restarts began, newest first (R453). -/
  restarts : List Nat
  /-- The channel whose FW_ACTIVATE is running. -/
  activating : Option Nat
  /-- Boundary count of the last watchdog check-in (R453). -/
  checkin : Nat
  deriving DecidableEq, Repr

/-- Boot and security beside their registers (R483 to R499). -/
structure Sec where
  /-- The boot step of R492, 1 to 5; 6 when boot is complete; 0 in reset. -/
  step : Nat
  /-- The bank being tried. -/
  bank : Nat
  /-- Whether the other bank has been tried already. -/
  second : Bool
  /-- Whether boot is in recovery (R494). -/
  recovery : Bool
  /-- Header of the running first-stage image. -/
  first : Option Image
  /-- Header of the running firmware image. -/
  fw : Option Image
  /-- The firmware image that a restart may restore (R457). -/
  prev : Option Image
  /-- The staged firmware image. -/
  staged : Option Image
  /-- The bank FW_STAGE wrote. -/
  stagedBank : Nat
  /-- DEBUG_OPEN fuse. -/
  debugOpen : Bool
  /-- The customer key whose hash is fused; empty while the slot is blank (R495). -/
  custKey : List Byte
  deriving DecidableEq, Repr

/-- The persistent store beside its registers (R500 to R503). -/
structure Nvs where
  /-- Writes not yet complete, oldest first; the first is being programmed. -/
  queue : List (Nat × Word)
  /-- Words as programmed. -/
  stored : Tbl Word
  /-- What the role record holds (Table 18-8): manager term and last manager ID, by level: 0 group, 1 top. -/
  role : Tbl (Nat × Nat)
  /-- How often the role record was written (R504). -/
  roleWear : Nat
  deriving DecidableEq, Repr

/-- A request sent to a peer control complex (R440). -/
structure PeerReq where
  seq : Nat
  /-- The doorbell word and A0 to A15. -/
  words : List Word
  sends : Nat
  /-- The boundary count at the last send, and whether a link notice asks for one at once. -/
  at_ : Nat
  now : Bool
  /-- For a request that goes as a ROUTED message, its payload (Table 15-19). -/
  route : List Byte
  /-- The answer, once it has come: the result word and B0 to B15; BUSY after 8 sends. -/
  answer : Option (List Word)
  deriving DecidableEq, Repr

/-- Mail that arrived during a restart of the control complex (R455). -/
inductive HeldMail where
  /-- A packet for the control complex's endpoint. -/
  | packet (p : Pkt)
  /-- A ROUTED message, with the fabric port it came in on. -/
  | routed (p : Pkt) (port : Nat)
  /-- A message from the BMC: endpoint ID and words. -/
  | bmc (eid : Nat) (words : List Word)
  deriving DecidableEq, Repr

/-- A mailbox channel beside its registers (R429). -/
structure Mbx where
  /-- The request words of the last doorbell. -/
  req : Tbl (List Word)
  /-- SEQ of the last doorbell. -/
  seq : Tbl Nat
  /-- The source bound to a BMC or peer channel (R428). -/
  bound : Tbl Nat
  /-- The order in which bound channels were last used. -/
  used : Tbl Nat
  useNext : Nat
  /-- Channels whose pending peer request failed the term rule (R161). -/
  termBad : List Nat
  /-- For a peer channel whose request came as a ROUTED message, the head of that message's payload and the port it came in on
  (R439). -/
  route : Tbl (List Byte)
  /-- Requests this device sent to peers (R440): by peer device, and by 2^17 + number for ROUTED messages. -/
  peerOut : Tbl PeerReq
  /-- MCTP and peer messages that wait for the end of a restart, oldest first (R455). -/
  held : List HeldMail
  /-- Final code and result words of running commands that have ended, by channel (R429). -/
  outcome : Tbl (Nat × List Word)
  deriving DecidableEq, Repr

/-- A queued lock (R441). -/
structure Lock where
  holder : Option Nat
  poison : Bool
  /-- Requester and priority of each waiter. -/
  waiters : List (Nat × Nat)
  /-- The result each requester last got. -/
  last : Tbl Nat
  deriving DecidableEq, Repr

/-- Which function holds each resource (R436, R540). -/
structure Own where
  queue : Tbl Nat
  domain : Tbl Nat
  mctx : Tbl Nat
  xctx : Tbl Nat
  lock : Tbl Nat
  /-- The hierarchy of each virtual function (R379). -/
  vfHier : Tbl Nat
  /-- Blocks of 1,024 protection entries given to virtual functions. -/
  prot : Tbl Nat
  deriving DecidableEq, Repr

/-- Sideband pins (Table 19-3); a `_N` pin is listed as asserted, that is low. -/
structure Pins where
  pwrgood : Bool
  sysRst : Bool
  /-- `FAULT_N` asserted. -/
  fault : Bool
  /-- `THERMTRIP_N` asserted. -/
  thermtrip : Bool
  /-- `MODRST_N` of a port: asserted or released; a port without an entry has it asserted from PWRGOOD on (Table 19-3). -/
  modrst : Tbl Bool
  /-- Ports whose `MODSEL_N` is asserted. -/
  modsel : List Nat
  /-- Host ports whose `PERST_N` the device asserts. -/
  perst : List Nat
  /-- Whether the device drives `BOOT_SPI_*`. -/
  spi : Bool
  /-- Latched straps (R486). -/
  strapRole : BitVec 2
  strapBoot : BitVec 2
  deriving DecidableEq, Repr

/-- What a receiver has tried on a far transmitter's lane in stage 7 (R60): 0 a preset is on trial, 1 it returns to the best preset,
2 a step is on trial, 3 a step is taken back, 4 it has finished. -/
structure Tune where
  phase : Nat
  /-- The preset on trial, the best so far and its FOM; none before the first trial ends. -/
  preset : Nat
  best : Nat
  top : Option Nat
  /-- The step on trial, as a place in the order of trials, and the FOM of the settings kept. -/
  act : Nat
  fom : Nat
  /-- The request was answered, and the next FOM decides. -/
  told : Bool
  /-- The boundary count at which the search ended. -/
  doneAt : Nat
  deriving DecidableEq, Repr

/-- The sync headers of a lane in service (R67): how many have come, the numbers of the invalid ones among the last 1,024, and
whether 32 of 1,024 were invalid. -/
structure Headers where
  seen : Nat
  bad : List Nat
  failed : Bool
  deriving DecidableEq, Repr

/-- A fabric port's lanes beside the PHY registers (R42 to R72). -/
structure PhyPort where
  /-- Consecutive high and low samples of `MODPRS_N` (R53). -/
  highRun : Nat
  lowRun : Nat
  /-- The boundary count at which `MODRST_N` was released (R53, R54). -/
  resetAt : Option Nat
  /-- Whether the module has reached ModuleReady (R54). -/
  ready : Bool
  /-- Whether the module was moved to high-power mode (R56). -/
  highPower : Bool
  /-- DATA_LANES of the cached identity (Table 02-4). -/
  dataLanes : Nat
  /-- Whether the port's own stage-1 read is under way (R58). -/
  reading : Bool
  /-- A bring-up is wanted as soon as Table 02-10 lets one begin. -/
  go : Bool
  /-- The boundary count of admission (R59). -/
  admitted : Nat
  /-- The boundary count at which the stage or quickset step at hand began. -/
  stageAt : Nat
  /-- Own and far receive lanes now fit, as masks of logical lanes (R62). -/
  fit : Nat
  farFit : Nat
  /-- The width code that the far end proposed last (Table 02-8). -/
  farWidth : Nat
  /-- The boundary count of the failure after which R63 restarts the port. -/
  restartAt : Option Nat
  /-- The saved quickset settings: `PHY_TXEQ` and `PHY_LANE_STATUS` of each logical lane (R70). -/
  saved : List (Word × Word)
  /-- Quickset step 1 to 6, its CMD (Table 02-8), the boundary count of its start, and whether steps 1 and 3 have
  repeated (R69). -/
  qsStep : Nat
  qsCmd : Nat
  qsAt : Nat
  qsAgain : Bool
  /-- A retrain that waits in ACTIVE for its lanes to be powered up (R72). -/
  qsWait : Bool
  /-- Whether the far end began it. -/
  qsFar : Bool
  /-- Logical lanes powered. -/
  powered : Nat
  /-- Ticks each lane's FOM has stayed below FOM_MIN/2, and the lanes whose event has been raised (R52). -/
  fomLow : Tbl Nat
  fomRaised : List Nat
  /-- For each lane the sequence number of the request last applied and the status word that answered it (R48). -/
  applied : Tbl (Nat × Nat)
  /-- For each lane the request that is sent until it is answered, the answer that is to be sent, and the lanes whose last word was
  an answer (R48). -/
  bcOut : Tbl Nat
  bcAns : Tbl Nat
  bcTold : List Nat
  /-- The lane whose back-channel word was sent last, and the next request's sequence number. -/
  bcLane : Nat
  bcSeq : Nat
  /-- For each lane: the boundary count of the last adaptation step, the corrected-symbol count then, the count of the
  window before, the FOM then, and the step that is under evaluation (R50). -/
  adapt : Tbl (Nat × Nat × Nat × Nat × Option Nat)
  /-- The search of stage 7 on each lane (R60). -/
  tune : Tbl Tune
  /-- The sync headers of each lane in service (R67). -/
  hdrs : Tbl Headers
  /-- The pattern generators of the transmit lanes: PRBS31 and PRBS13 (R59, R61, R64). -/
  prbs31 : Tbl (BitVec 31)
  prbs13 : Tbl (BitVec 13)
  deriving DecidableEq, Repr

/-- One 256 B cell of a packet on its way through a link: the packet, the cell's place in it, and its virtual channel. -/
structure Cell where
  pkt : Pkt
  idx : Nat
  vc : Nat
  /-- Whether the packet is a direct packet (R152), and whether it has been voided (R108). -/
  direct : Bool
  voided : Bool
  deriving DecidableEq, Repr

/-- A stored frame (R85 to R91): its number, its two cell slots and its two credit returns. -/
structure Frame where
  seq : Nat
  slotA : Option Cell
  slotB : Option Cell
  /-- Virtual channel and count of each credit return. -/
  ret : List (Nat × Nat)
  deriving DecidableEq, Repr

/-- Where a packet goes. -/
inductive Route where
  /-- To a local endpoint's internal port. -/
  | deliver (q : Nat)
  /-- Out of fabric port `p` on a routing VC; `nmin` says that the choice was non-minimal. -/
  | out (p rvc : Nat) (nmin : Bool)
  /-- No route (R159). -/
  | none
  /-- The routing VC would exceed 2 (R146). -/
  | limit
  deriving DecidableEq, Repr

/-- A fabric port's link beside the LNK registers (R76 to R109). -/
structure LinkPort where
  /-- Stored frames, oldest first; the oldest `LNK_STORE.SPILLED` of them lie in HBM. -/
  store : List Frame
  /-- The number of the next frame a running replay sends (R88). -/
  replay : Option Nat
  /-- Replays since a frame was last freed (R90). -/
  replays : Nat
  /-- Whether a spilled frame is being read back (R89). -/
  fetching : Bool
  /-- Whether the frame at the replay's place has been read back. -/
  fetched : Bool
  /-- The frame sent last, which a fill frame repeats (R89). -/
  lastSent : Option Frame
  /-- Pending credit returns by virtual channel, and the channel served last (R97). -/
  pend : Tbl Nat
  rr : Nat
  /-- Direct packets that wait for a slot (R153, R439). -/
  direct : List Pkt
  /-- The cells still to be sent of the packet that is being placed in frames (R79). -/
  cur : List Cell
  /-- Whether a valid record has been received in this initialisation, and whether init frames are still sent (R101). -/
  havePeer : Bool
  sendInit : Bool
  /-- Whether this initialisation has sent its first record (R123), and the allocation of each virtual channel that it
  advertises (R95). -/
  claimed : Bool
  advert : Tbl Nat
  /-- Requesters and connections that a link notice of the last link-down event has gone to (R108). -/
  noticed : List (Nat × Nat)
  /-- Peer device, port, epoch and own epoch at the last completed initialisation (R102). -/
  session : Option (Nat × Nat × Nat × Nat)
  /-- Half of a back-channel word: its SEQ and byte (R84). -/
  bcHalf : Option (Nat × Byte)
  /-- The back-channel word whose second half goes next (R84). -/
  bcTx : Nat
  /-- The boundary count since which the link has been ACTIVE, and that of the last packet placed on each channel. -/
  activeAt : Nat
  placedAt : Tbl Nat
  /-- The smallest quiet latch of the audit window at hand, and of the window that ended last (R537), and the channels in a deficit
  episode (R538). -/
  auditMin : Tbl Nat
  auditEnd : Tbl Nat
  episodes : List Nat
  /-- The boundary count of the edge at which an audit window last ended. -/
  auditAt : Option Nat
  /-- Cell slots of accepted frames that acceptance has not yet taken (R118). -/
  slots : List (List Byte)
  /-- The cells gathered of the packet at hand, their number when complete, and the content failure found: 0 none,
  1 content, 2 hop limit. -/
  cells : List (List Byte)
  need : Nat
  bad : Nat
  /-- The tick in which its header was accepted, and its route under the tables in force then (R34). -/
  hdrTick : Nat
  hdrRoute : Route
  /-- Whether slots are discarded until resynchronisation (R119). -/
  resync : Bool
  /-- Direct packets taken off the link: digests and ROUTED messages (R152). -/
  inbox : List Pkt
  /-- The scramblers of the logical lanes, transmit and receive (R44). -/
  scrTx : Tbl (BitVec 58)
  scrRx : Tbl (BitVec 58)
  deriving DecidableEq, Repr

/-- A packet in a virtual output queue (R126). -/
structure QPkt where
  pkt : Pkt
  inp : Nat
  out : Nat
  cls : Nat
  /-- The enqueue time in core cycles. -/
  enq : Nat
  /-- The buffer part charged (R124): 0 fabric reserve, 1 internal reserve, 2 pool, 3 control reserve. -/
  part : Nat
  /-- The virtual channel it came in on. -/
  ivc : Nat
  /-- The tick in which the switch core accepted its header (R34). -/
  tick : Nat
  deriving DecidableEq, Repr

/-- A packet in an output's staging (R130), with the cells that have crossed. -/
structure StPkt where
  q : QPkt
  arrived : Nat
  /-- Whether the link has begun to send it; its cells still to be sent then stand in the link's `cur`. -/
  started : Bool
  deriving DecidableEq, Repr

/-- A match that is held while a packet crosses: input, output and cell times left (R130). -/
structure Hold where
  inp : Nat
  out : Nat
  rem : Nat
  deriving DecidableEq, Repr

/-- The switch core beside its registers (R117 to R137). -/
structure Swc where
  /-- Queued packets in the order of their enqueue times. -/
  queue : List QPkt
  stage : Tbl (List StPkt)
  holds : List Hold
  /-- Grant and accept pointers (R128). -/
  grant : Tbl Nat
  accept : Tbl Nat
  /-- The weighted class that holds the turn, and deficits by 2 × output + class (R131). -/
  turn : Tbl Nat
  deficit : Tbl Int
  /-- Cells that each input's reserve holds, its occupancy, and its cells charged to the pool (R122 to R125). -/
  held : Tbl Nat
  resUsed : Tbl Nat
  poolUsed : Tbl Nat
  /-- Cells charged to the control reserve. -/
  ctlUsed : Nat
  /-- The delay sample of this tick by class queue (R135). -/
  delay : Tbl Nat
  deriving DecidableEq, Repr

/-- The routing unit and the manager roles beside their registers (R148 to R164). -/
structure Rte where
  /-- Words of the active and the staged bank by offset / 4 from 0x00B0_0000 (Table 05-4). -/
  active : Tbl Word
  staged : Tbl Word
  /-- The bank before the swap, while the staged bank is being filled (R164). -/
  before : Tbl Word
  /-- Activation tick and version of a pending commit. -/
  commit : Option (Tick × Nat)
  /-- Ports removed since reset, and the boundary count since which each port has been ACTIVE or QUICKSET (R150). -/
  removed : List Nat
  upAt : Tbl Nat
  /-- Local level by port, as latched at the edge (R151). -/
  level : Tbl Nat
  /-- The last complete digest with its build tick; none where none has been built (R151, R153). -/
  built : Option (BitVec 64 × Nat)
  /-- The digest kept for each port, with its build tick, and the build tick of the one installed (R154). -/
  kept : Tbl (BitVec 64 × Nat)
  installed : Tbl Nat
  /-- Whether a manager has been accepted since reset (R161). -/
  accepted : Bool
  /-- The boundary counts of the last heartbeat sent and of the last one accepted (R162). -/
  hbSent : Nat
  hbSeen : Nat
  deriving DecidableEq, Repr

/-! Memory access: translation and protection. -/

/-- A stretch of memory that a translated access reaches. -/
structure Seg where
  space : Space
  addr : Nat
  len : Nat
  deriving DecidableEq, Repr

/-- What goes on when a waiting memory access has been translated. -/
inductive Cont where
  /-- Placement of a received PUT (R181). -/
  | put (c psn : Nat)
  /-- Commit of a received GET_REQ or ATOMIC_REQ (R181). -/
  | commit (c psn : Nat)
  /-- The second execution of a duplicate GET_REQ (R182). -/
  | again (c psn off len : Nat)
  /-- Source data of packet `k` of an operation (R542). -/
  | src (c op k : Nat)
  /-- Placement of response packet `k` of an operation (R244). -/
  | dst (c op k : Nat) (bs : List Byte)
  /-- Placement of eager data in a RECV buffer (R276). -/
  | recv (q idx : Nat) (bs : List Byte)
  /-- Source block of a collective's local member (R296): group, OPSEQ, endpoint and block. -/
  | colSrc (g seq ep b : Nat)
  /-- Result block of a collective's local member (R296). -/
  | colDst (g seq ep b : Nat) (bs : List Byte)
  /-- A bridge request (R350). -/
  | mbr (id : Nat)
  /-- An access of the handler that an engine runs (R407). -/
  | eng (e : Nat)
  deriving DecidableEq, Repr

/-- A memory access that waits for a walk, or, translated, for a HELD hierarchy. `need` has bit 0 for R, 1 for W, 2 for X;
`user` is that of Table 11-15. -/
structure Access where
  cont : Cont
  ctx : Nat
  va : Nat
  len : Nat
  need : Nat
  user : Nat
  /-- The input address whose walk it waits for. -/
  missing : Nat
  /-- The translation, once found. -/
  segs : Option (List Seg)
  /-- The acceptance or take tick of the verdict it holds (R260). -/
  tick : Option Nat
  /-- The order in which accesses began to wait. -/
  seq : Nat
  deriving DecidableEq, Repr

/-- A cached translation entry: a leaf or a table entry (R330). -/
structure XEnt where
  ctx : Nat
  level : Nat
  /-- First input address of its span. -/
  va : Nat
  ent : BitVec 64
  locked : Bool
  used : Nat
  deriving DecidableEq, Repr

/-- A walk (R326). -/
structure Walk where
  ctx : Nat
  va : Nat
  level : Nat
  table : Nat
  user : Nat
  /-- The function whose LOCK_WALK it serves. -/
  lock : Option Nat
  /-- Ranges of invalidations issued since it started (R335). -/
  drop : List (Nat × Nat)
  seq : Nat
  deriving DecidableEq, Repr

/-- An invalidation whose token is not done (R335): function, or none for a disable's own token (R337), token, context, or
none for all, and range. -/
structure Inval where
  fn : Option Nat
  token : Nat
  ctx : Option Nat
  lo : Nat
  hi : Nat
  seq : Nat
  deriving DecidableEq, Repr

/-- The translation unit beside its registers. -/
structure Xlt where
  /-- Entries of the large translation cache (R330). -/
  cache : List XEnt
  /-- Locked slots of the engines (R331). -/
  slots : Tbl (List XEnt)
  /-- Unlocked leaves, the last used first, of the engines' instruction TLBs and data TLBs and of the hedgerow TLBs (Table 11-5). -/
  itlb : Tbl (List XEnt)
  dtlb : Tbl (List XEnt)
  hr : Tbl (List XEnt)
  /-- By function, the context, address and engine of the LOCK_WALK that runs (R332). -/
  locks : Tbl (Nat × Nat × Option Nat)
  /-- Walks that run, and accesses that wait for a walk or for memory (R328). -/
  walks : List Walk
  wait : List Access
  /-- Invalidations not yet complete, oldest first, and the count that orders uses and walks (R330, R334). -/
  invals : List Inval
  seq : Nat
  deriving DecidableEq, Repr

/-- The protection table beside its registers (R252 to R261): for each entry its versions, newest first. -/
structure Prot where
  ents : Tbl (List ProtVer)
  deriving DecidableEq, Repr

/-! Work queues. -/

/-- A completion that has fallen due (Table 07-10). -/
structure Compl where
  status : Nat
  len : Nat
  val : BitVec 64
  /-- The tick in which it fell due. -/
  tick : Nat
  /-- SRC and CONN of a RECV or NOTIFY completion. -/
  ext : Option (Nat × Nat)
  started : Bool
  retried : Bool
  deriving DecidableEq, Repr

/-- A taken entry (R220): its place, the snapshot taken, and what has become of it. -/
structure Entry where
  idx : Nat
  desc : List Byte
  tick : Nat
  /-- Whether it holds a local verdict (R260). -/
  verdict : Bool
  /-- Whether it has started (R225). -/
  started : Bool
  /-- Completion order (R228): entries with one key complete in the order of their stamps. The key of connection `n` is
  4`n`, that of group `g` 4`g` + 1, that of NOTIFY entries 2 and that of RECV entries 3. -/
  key : Option (Nat × Nat)
  /-- For a NOTIFY entry, whether an IMM has reserved it (R226). -/
  reserved : Bool
  /-- For a rendezvous SEND, its table entry (R279). -/
  rdv : Option Nat
  /-- For a SEND, whether it goes by rendezvous, as it was taken (R278). -/
  rts : Bool
  /-- Whether a packet of it was resent (Table 07-11). -/
  retried : Bool
  done : Option Compl
  deriving DecidableEq, Repr

/-- An abort (R238): ring entries still to be read, places found POSTED or taken and not yet aborted, each with whether it is a
RECV or NOTIFY, and whether it ends in DISABLED. -/
structure Abort where
  left : Nat
  found : List (Nat × Bool)
  disable : Bool
  deriving DecidableEq, Repr

/-- A work queue or event queue beside its registers. -/
structure Queue where
  taken : List Entry
  /-- Whether a ring read of a scan is outstanding, and the rescan flag (R223). -/
  scan : Bool
  rescan : Bool
  /-- Whether the scan waits for a posting (R285) or a rendezvous table entry (R279). -/
  stall : Bool
  /-- The state left for HELD. -/
  prior : Nat
  abort : Option Abort
  /-- Pending count of reports (R233). -/
  pend : Nat
  /-- Next order stamp. -/
  stamp : Nat
  /-- Places whose completions fell due, in that order, not yet written. -/
  kept : List Nat
  /-- Event queue: consumer position, armed, and entries kept while HELD (queue, kind and count). -/
  cons : Nat
  armed : Bool
  keptEv : List (Nat × Nat × Nat)
  deriving DecidableEq, Repr

/-! Connections. -/

/-- Who is told of an operation's end. -/
inductive Owner where
  /-- Entry `idx` of queue `q`. -/
  | entry (q idx : Nat)
  /-- The pull of a matched RTS into entry `idx` of queue `q` (R278). -/
  | pull (q idx : Nat)
  /-- A FIN or CANCEL. -/
  | msg
  /-- A bridge request. -/
  | bridge (id : Nat)
  /-- A record of a tunnel. -/
  | tunnel (t : Nat)
  deriving DecidableEq, Repr

/-- An operation that a connection carries for its requester: kind 1 PUT, 2 PUT_IMM, 3 GET, 4 ATOMIC, 5 SEND. -/
structure Op where
  id : Nat
  own : Owner
  kind : Nat
  len : Nat
  /-- Local address and context of its buffer. -/
  laddr : Nat
  xctx : Nat
  roff : Nat
  rkey : Nat
  rgen : Nat
  imm : Nat
  akind : Nat
  opnd : BitVec 64
  swap : BitVec 64
  /-- Match header of a SEND (Table 09-2). -/
  hdr : List Byte
  /-- Source data that needs no read. -/
  inl : Option (List Byte)
  poison : Bool
  /-- Whether its last packet asks for an ack. -/
  ackReq : Bool
  /-- Sequence number of its first packet, and packets sent. -/
  first : Nat
  nsent : Nat
  /-- Packets whose source is being read, with where it lies once it is translated, and those read: data, and whether it
  is bad. -/
  reading : Tbl (Option (List Seg))
  data : Tbl (List Byte × Bool)
  /-- Response packets received, and response packets whose placement waits. -/
  got : List Nat
  placing : List Nat
  val : BitVec 64
  /-- The status of the lowest PSN with a syndrome, and that PSN (R256). -/
  synd : Option (Nat × Nat)
  /-- A local failure found after the checks (R224). -/
  fault : Nat
  retried : Bool
  /-- The take tick of its local verdict. -/
  tick : Option Nat
  deriving DecidableEq, Repr

/-- A received packet that has not committed (R180, R181). -/
structure Rcvd where
  pkt : Pkt
  /-- Acceptance tick (R257), and the boundary count at which the reorder store took it (R261). -/
  tick : Nat
  at_ : Nat
  /-- Status of its checks: 0 OK. -/
  synd : Nat
  /-- Whether its placement or translation is under way, and whether memory refuses it or fails under it (R255). -/
  busy : Bool
  refused : Bool
  /-- Whether it is in the reorder store (R183). -/
  kept : Bool
  /-- What it reserved: queue and place of a NOTIFY (R226), or an engine item. -/
  notify : Option (Nat × Nat)
  deriving DecidableEq, Repr

/-- An SCT_DATA response that waits for its turn on its connection (R203): OP, SEG, PSN, OFFSET, data, and whether it is
poisoned. -/
structure Resp where
  op : Nat
  seg : Nat
  psn : Nat
  off : Nat
  data : List Byte
  poison : Bool
  deriving DecidableEq, Repr

/-- A connection context: the record of Table 06-8 and the working state beside it. SND_NXT and SND_UNA count without
wrapping; the record and the packets hold them modulo 2^24. -/
structure Conn where
  state : Nat
  peerEp : Nat
  localEp : Nat
  tc : Nat
  pinned : Bool
  noevict : Bool
  peerConn : Nat
  peerInc : Nat
  inc : Nat
  pd : Nat
  sndNxt : Nat
  sndUna : Nat
  retry : Nat
  epsn : Nat
  rto : Nat
  retryMax : Nat
  rate : Nat
  sq : Nat
  rq : Nat
  lastSend : Nat
  rcvMap : BitVec 256
  sackMap : BitVec 256
  /-- PSN and result of the last 8 executed atomics, oldest first. -/
  atoms : List (Nat × BitVec 64)
  resident : Bool
  /-- When it was last used. -/
  used : Nat
  /-- Write-back count. -/
  wbSeq : Nat
  rcvd : Tbl Rcvd
  /-- Commits since the last ack, and CM marks since then. -/
  acc : Nat
  ece : Bool
  marked : Nat
  /-- The message whose stream is coming in, and the status of its first packet (R270). -/
  stream : Option (Nat × Nat)
  ops : List Op
  /-- Last send of each PSN that is unacknowledged or awaits a response, in core cycles. -/
  sent : Tbl Nat
  /-- PSNs to be sent again. -/
  resend : List Nat
  /-- Packets sent since one with ACKREQ. -/
  sinceReq : Nat
  /-- Start of the timer's present run, and the start of the last SCT_DATA packet, in core cycles. -/
  timer : Nat
  startAt : Option Nat
  /-- Responses that wait to be sent, oldest first (R203). -/
  resps : List Resp
  /-- Of committed requests: the syndrome a PSN was given (R185), and the context, address and length a GET_REQ reads (R182). -/
  synds : Tbl Nat
  reads : Tbl (Nat × Nat × Nat)
  /-- Boundary count at which a RECEIVER_BUSY back-off ends, and the refused PSN. -/
  busy : Option (Nat × Nat)
  /-- Boundary counts of the resends after link notices (R192). -/
  notice : List Nat
  /-- OPENs or CLOSEs sent, and the boundary count of the last. -/
  tries : Nat
  triedAt : Nat
  /-- Owner argument, and the mailbox channel whose command waits. -/
  arg : BitVec 64
  chan : Option Nat
  deriving DecidableEq, Repr

/-- A packet in the miss buffer (R198). -/
structure Missed where
  /-- Whether memory will refuse the packet's placement or atomic (R255). -/
  refused : Bool
  conn : Nat
  pkt : Pkt
  tick : Nat
  deriving DecidableEq, Repr

/-- A GET_REQ being read (R255): connection, PSN, length, where the data lies, response packets sent, acceptance tick; and what the
device's own HBM held there when the read took place, at the commit (R249). -/
structure GetJob where
  conn : Nat
  psn : Nat
  len : Nat
  segs : List Seg
  next : Nat
  tick : Nat
  hbm : List Host.Cell
  deriving DecidableEq, Repr

/-- A listen entry (R437). -/
structure Listen where
  handle : Nat
  ep : Nat
  sq : Nat
  rq : Nat
  arg : BitVec 64
  fn : Nat
  deriving DecidableEq, Repr

/-- The transport beside its registers. -/
structure Trn where
  conns : Tbl Conn
  /-- Freed numbers, least recently freed first, and for each tier the next number never used (R173). -/
  freed : List Nat
  fresh : Tbl Nat
  miss : List Missed
  fetch : List Nat
  /-- Contexts that wait for a place in the cache, oldest first, and whether they must then be fetched (R197, R198). -/
  need : Tbl Bool
  evict : List Nat
  gets : List GetJob
  listen : List Listen
  nextListen : Nat
  nextOp : Nat
  clock : Nat
  /-- Whether the miss buffer and the reorder store are in an episode of fullness (R183, R198). -/
  missFull : Bool
  reorderFull : Bool
  /-- Words that host memory supplies to the atomics of the command at hand. -/
  feed : List (BitVec 64)
  deriving DecidableEq, Repr

/-! Message matching. -/

/-- A message that arrived (R273). -/
structure Msg where
  id : Nat
  ctx : Nat
  tag : BitVec 64
  len : Nat
  rts : Bool
  src : Nat
  conn : Nat
  cookie : Nat
  rkey : Nat
  roff : Nat
  rgen : Nat
  /-- Message bytes committed so far, whether all have, and the status that its data failed with; 0 for none. -/
  data : List Byte
  whole : Bool
  bad : Nat
  slot : Option Nat
  /-- The RECV it was matched with. -/
  into : Option (Nat × Nat)
  deriving DecidableEq, Repr

/-- A posted RECV (R273). -/
structure Posted where
  q : Nat
  idx : Nat
  deriving DecidableEq, Repr

/-- What waits at a hedgerow's input for a context, or is an entry of it: a message, or a RECV. -/
inductive MteIn where
  | arrival (id : Nat)
  | posting (q idx : Nat)
  deriving DecidableEq, Repr

/-- A spilled entry (R283): its place of the spill area, its context, what it is, and whether it moves back on die. -/
structure SpillEnt where
  place : Nat
  ctx : Nat
  ent : MteIn
  moving : Bool
  deriving DecidableEq, Repr

/-- A matching context beside its registers. -/
structure MCtx where
  posted : List Posted
  unexpected : List Nat
  input : List MteIn
  slots : List Nat
  /-- Spill reads outstanding, oldest first: the place, and whether its entry moves back on die (R283, R286). -/
  reads : List (Nat × Bool)
  /-- Spilled entries that the search at hand has read. -/
  seen : Nat
  /-- Whether the posting at the front has been counted as waiting. -/
  waited : Bool
  deriving DecidableEq, Repr

/-- A RECV that is being filled (R276, R278). -/
structure RecvJob where
  q : Nat
  idx : Nat
  msg : Nat
  want : Nat
  /-- Bytes handed to placement, and bytes placed. -/
  handed : Nat
  placed : Nat
  status : Nat
  deriving DecidableEq, Repr

/-- A rendezvous table entry (R279). -/
structure Rdv where
  q : Nat
  idx : Nat
  conn : Nat
  cancelled : Bool
  deriving DecidableEq, Repr

/-- The match logic beside its registers. -/
structure Mte where
  /-- Matching contexts, beside their registers (R267). -/
  ctxs : Tbl MCtx
  /-- Messages that have arrived and are not yet freed, and the number of the next (R276). -/
  msgs : Tbl Msg
  nextMsg : Nat
  /-- RECVs matched and not yet complete (R275). -/
  recvs : List RecvJob
  /-- Entries of the rendezvous table, and the last sequence number each gave to a cookie (R278, R279). -/
  rdv : Tbl Rdv
  rdvSeq : Tbl Nat
  /-- FINs and CANCELs that have committed: connection, cookie and status. -/
  fins : List (Nat × Nat × Nat)
  cancels : List (Nat × Nat)
  /-- SENDs whose FIN has come before the acknowledgement of their RTS (R280): queue, place, and status. -/
  ended : List (Nat × Nat × Nat)
  /-- Spilled entries, oldest first (R283). -/
  spilled : List SpillEnt
  /-- Reservations of packets received and not yet committed: by connection × 2^24 + PSN the context and the slot (R284). -/
  resv : Tbl (Nat × Option Nat)
  /-- Hedgerows without an entry, contexts without a slot and contexts at their limit, in an episode (R284). -/
  noEntry : List Nat
  noSlot : List Nat
  atLimit : List Nat
  deriving DecidableEq, Repr

/-! Collectives. -/

/-- An element of a block in work: a fast value as its bits, or an exact accumulator with its sticky flags (bit 0 NAN,
1 PINF, 2 NINF, 3 NOTNEGZ). -/
structure El where
  num : Int
  flags : Nat
  deriving DecidableEq, Repr

/-- What every input of an operation carries (R297). -/
structure ColPar where
  cop : Nat
  dtype : Nat
  rop : Nat
  mode : Nat
  countm1 : Nat
  deriving DecidableEq, Repr

/-- A local member's part in an operation (R296). -/
structure ColMem where
  ep : Nat
  q : Nat
  idx : Nat
  /-- The next source block to be asked for, those that wait for translation, and those being read. -/
  next : Nat
  asked : List Nat
  reading : Tbl (List Seg)
  /-- Result blocks whose placement waits, and the number placed. -/
  placing : List Nat
  placed : Nat
  /-- Ticks of its two verdicts (R299). -/
  src : Option Nat
  dst : Option Nat
  /-- Its completion, while one of an older operation of its group is to come first (R299). -/
  fin : Option Compl
  deriving DecidableEq, Repr

/-- A block that an input brings: its bytes and the payload cells it counts (R311). -/
structure ColOffer where
  inp : Nat
  block : Nat
  cells : Nat
  data : List Byte
  deriving DecidableEq, Repr

/-- An operation of a group at this device. Input numbers are child ports, and 128 plus the endpoint for local members. -/
structure ColOp where
  seq : Nat
  par : Option ColPar
  /-- Boundary count at its first input (R317). -/
  start : Nat
  mems : List ColMem
  /-- Streams that come in, blocks that wait at their unit, and inputs whose ARRIVE came. -/
  parts : List ColOffer
  offers : List ColOffer
  arrived : List Nat
  /-- Blocks being combined: the inputs taken in and the values; and combined blocks that wait for a window. -/
  acc : Tbl (List Nat × List El)
  ready : Tbl (List El)
  /-- Blocks combined and blocks freed, F, the limit that the parent gives, and F at the last WINDOW (R302). -/
  combined : Nat
  freed : List Nat
  low : Nat
  upto : Nat
  said : Nat
  /-- Whether the up phase is over here, whether the decision is known here, the root's last result block until then, down
  blocks sent or received, and whether END was. -/
  closed : Bool
  decided : Bool
  last : Option (List Byte)
  downs : List Nat
  ended : Bool
  deriving DecidableEq, Repr

/-- A group beside its registers: the OPSEQ of its oldest open operation, its operations from there on, older ones whose results
or completions are still outstanding, and how many operations each local member has posted since FORM. -/
structure ColGrp where
  base : Nat
  ops : List ColOp
  tail : List ColOp
  posted : Tbl Nat
  deriving DecidableEq, Repr

/-- The collective unit beside its registers: groups; slots that each group holds on every unit; payload cells and element share
each unit has taken in this tick, units whose step waits for the next tick, the input each served last, and tree ports that went
DOWN in the command at hand. -/
structure Col where
  /-- The open operations of each group (R295), and the slots it holds (R303). -/
  grps : Tbl ColGrp
  slots : Tbl Nat
  /-- By unit, the payload cells and the element share taken in this tick (R311). -/
  cells : Tbl Nat
  share : Tbl Nat
  /-- Units whose step waits for the next tick, and by unit the input served last (R312, R535). -/
  stall : List Nat
  turn : Tbl Nat
  /-- Tree ports that went DOWN in the command at hand (R316). -/
  downs : List Nat
  deriving DecidableEq, Repr

/-! The memory bridge. -/

/-- A host request that the bridge holds (R350 to R353). -/
structure BrReq where
  id : Nat
  hier : Nat
  write : Bool
  /-- Window offset of the line, and the request's tag. -/
  off : Nat
  tag : Nat
  /-- Enabled runs of a write: offset in the line and bytes. -/
  runs : List (Nat × List Byte)
  poison : Bool
  /-- 0 waiting for its line, 1 waiting for the walk, 2 waiting for the directory, 3 sent. -/
  stage : Nat
  /-- The extent and pool address, once translated. -/
  pool : Nat
  /-- The directory entry it is served under (R365). -/
  ent : Option DirEnt
  /-- The connection, and how many of its operations are still out. -/
  conn : Nat
  left : Nat
  /-- Boundary count of its acceptance. -/
  at_ : Nat
  /-- Whether a write that failed at the home has its record (R363). -/
  told : Bool
  deriving DecidableEq, Repr

/-- The bridge beside its registers. -/
structure Mbr where
  reqs : List BrReq
  nextReq : Nat
  /-- The on-die cache of the extent directory (R348), and the order in which its entries were put in. -/
  dir : Tbl DirEnt
  order : List Nat
  /-- Entries that were replaced: extent, the boundary count at which, and the entry until then (R365). -/
  past : List (Nat × Nat × Option DirEnt)
  /-- Boundary counts at which reads of a connection are to be re-issued, one for each notice (R356). -/
  repath : List (Nat × Nat)
  /-- Pool sources: protection entry, kind (0 export, 1 expander), length in GiB, and hierarchy or port (R347). -/
  sources : List (Nat × Nat × Nat × Nat)
  /-- POOL_UNEXPORT commands under way: channel and key. -/
  unexport : List (Nat × Nat)
  /-- POOL_PATH_SET commands under way: path set, channel, and whether it closes. -/
  pathCmd : List (Nat × Nat × Bool)
  /-- The window size in GiB read when a hierarchy was enumerated (R343). -/
  shown : Tbl Nat
  deriving DecidableEq, Repr

/-! The host switch. -/

/-- What a virtual downstream port holds: kind 1 a whole device (port), 2 a virtual function (port and index), 3 a logical
device (port and number), 4 a tunnel (R375, R378). -/
structure Vdsp where
  kind : Nat
  a : Nat
  b : Nat
  deriving DecidableEq, Repr

/-- One side of a tunnel beside its registers (R381 to R386). -/
structure Tun where
  /-- Boundary count since which it is OPENING, and the channel whose command waits. -/
  chan : Option Nat
  /-- Base in HBM, key and generation of its own staging region, and those of the peer's (R382). -/
  base : Nat
  key : Nat
  gen : Nat
  peerKey : Nat
  peerGen : Nat
  /-- By area: bytes written to the peer, bytes the peer has released, bytes announced by the peer, bytes handed on here,
  and bytes reported to the peer (R383). -/
  written : Tbl Nat
  released : Tbl Nat
  announced : Tbl Nat
  freed : Tbl Nat
  reported : Tbl Nat
  /-- Immediates that have committed and are not yet processed, and those reserved at receipt. -/
  imms : List Nat
  resv : Nat
  /-- Whether the last CONTROL record was LINK_UP, whether the far device is present, and a HOT_RESET that waits for the
  tunnel to be re-opened. -/
  link : Bool
  present : Bool
  hot : Bool
  /-- CONTROL events that wait for room in the posted area. -/
  waiting : List Nat
  deriving DecidableEq, Repr

/-- A peer window (R380): port, peer-BAR offset, target address, length. -/
structure PeerWin where
  port : Nat
  off : Nat
  target : Nat
  len : Nat
  deriving DecidableEq, Repr

/-- The host switch beside its registers. -/
structure Hsw where
  /-- Group and port settings in effect: words of `HSW_GRP_CFG` and `HSW_PORT_CFG` as last applied (R372). -/
  grp : Tbl Word
  port : Tbl Word
  /-- Functions whose Bus Master Enable is cleared, and hierarchies whose host memory is unreachable (R392). -/
  held : List Nat
  unreach : List Nat
  /-- Virtual downstream ports by 32 × hierarchy + port (R375), and those under containment (R387). -/
  vdsp : Tbl Vdsp
  contained : List Nat
  /-- TotalVFs by hierarchy (R379). -/
  totalVfs : Tbl Nat
  /-- Peer windows by 16 × hierarchy + window. -/
  windows : Tbl PeerWin
  tuns : Tbl Tun
  /-- Size of the peer BAR by hierarchy, fixed when it was enumerated (R530). -/
  bar : Tbl Nat
  /-- Virtual downstream ports with ACS P2P Request Redirect set, numbered as above (R380). -/
  redirect : List Nat
  /-- Completion Timeout Value by function (Table 13-6). -/
  cto : Tbl Nat
  /-- Tags in quarantine: hierarchy, tag, and the boundary count of its end (R395). -/
  quarantine : List (Nat × Nat × Nat)
  deriving DecidableEq, Repr

/-! Engines and Topiary. -/

/-- A work item of a hedgerow's dispatch queue (R403, R404): package slot; source 0 packet, 1 entry of an engine-internal
queue, 2 timer, 3 firmware command; for a packet its connection and PSN, for an entry its queue and place. A packet's item is
ready once the packet commits. -/
structure Item where
  slot : Nat
  src : Nat
  a : Nat
  b : Nat
  ready : Bool
  /-- Whether its wait for admission has been counted. -/
  waited : Bool
  deriving DecidableEq, Repr

/-- The local memory of an engine (R406). -/
structure LocalMem where
  /-- Whether an engine reset has cleared it; else it holds the undefined content of reset. -/
  clear : Bool
  /-- Undefined contents that dispatches have found since, the newest first: its number, and the ranges retained then. -/
  fills : List (Nat × List (Nat × Nat))
  /-- Bytes that handlers have written, their addresses strictly rising. -/
  cells : List Host.Cell
  deriving DecidableEq, Repr

/-- The engines beside their registers. -/
structure Eng where
  /-- Local memories that differ from their content at reset, and by package slot the range it declares retained: first byte and
  length. -/
  lm : Tbl LocalMem
  retain : Tbl (Nat × Nat)
  /-- Dispatch queue of each hedgerow, oldest first. -/
  queues : Tbl (List Item)
  /-- The dispatch an engine runs, and the cycles of its hedgerow clock in the ticks begun since its start but the one at hand; and
  how it ends, while its handler's last accesses wait. -/
  running : Tbl (Item × Nat)
  ending : Tbl HandlerEnd
  /-- The ENGINE translation context of a package slot (R407). -/
  ctx : Tbl Nat
  /-- Boundary counts of an engine's faults within the last second (R411). -/
  faults : Tbl (List Nat)
  /-- Engines being reset. -/
  resets : List Nat
  /-- Engine-internal queues of a package slot, and the channel of its ENG_PKG_DISABLE. -/
  queuesOf : Tbl (List Nat)
  disabling : Tbl Nat
  /-- By package slot, the header of the package and the smallest number of hedgerows it must have (R412). -/
  image : Tbl Image
  minHr : Tbl Nat
  deriving DecidableEq, Repr

/-- Topiary beside its registers (R416 to R422). -/
structure Pwr where
  /-- Units left of each grant of this tick, and of the spare pool. -/
  grant : Tbl Nat
  spare : Nat
  /-- Units that work below priority P0 may still take on a die, and that dispatches may still take on a hedgerow whose budget
  share R37 has lowered (R423). -/
  cap : Tbl Nat
  hrCap : Tbl Nat
  /-- Units charged for admitted work in this tick. -/
  charged : Nat
  /-- By hedgerow: the boundary count at which RAMP was entered, that from which a raise may be admitted again, that since
  which its engines have been idle, and that at which a wake began. -/
  ramp : Tbl Nat
  holdTo : Tbl Nat
  idle : Tbl Nat
  wake : Tbl Nat
  /-- Hedgerows that FORCE_PARK parks at the next edge, and those that return to F12 then (R421). -/
  force : List Nat
  lower : List Nat
  /-- Units granted and demanded by kind in this tick; 8 stands for the dispatches. -/
  given : Tbl (Nat × Nat)
  /-- AVAIL of this tick, and the units of priority P0 admitted in it (R416, R418). -/
  avail : Int
  p0 : Nat
  deriving DecidableEq, Repr

/-- Everything in the device but its queue of commands. -/
structure Dev where
  part : Part
  /-- The register file: register, then index, then word. An absent entry holds its reset word. -/
  regs : Tbl (Tbl Word)
  /-- Shadows of `_HI` words, by reading function and offset (R110). -/
  shadow : Tbl (Tbl Word)
  /-- Counters by group of Table 17-1 and entry. -/
  cnts : Tbl (Tbl (BitVec 48))
  clk : Clk
  evr : Evr
  pmc : Pmc
  cc : Cc
  sec : Sec
  nvs : Nvs
  mbx : Mbx
  locks : Tbl Lock
  own : Own
  pins : Pins
  phy : Tbl PhyPort
  link : Tbl LinkPort
  swc : Swc
  rte : Rte
  xlt : Xlt
  prot : Prot
  wq : Tbl Queue
  trn : Trn
  mte : Mte
  mbr : Mbr
  hsw : Hsw
  eng : Eng
  pwr : Pwr
  /-- Accesses that wait at the arbiter, oldest first (R201). -/
  arb : List ArbReq
  col : Col
  /-- Packets built by the device's own units, waiting at their internal port (R124), with the tree port of a collective
  packet (R301). -/
  inj : Tbl (List (Pkt × Option Nat))
  /-- Memory the device has written: rising addresses. -/
  mem : List Host.Cell
  /-- Stores of the command at hand, in order; empty between commands. -/
  wr : List MemWr
  /-- Whether the command at hand loses the device's own memory (Table 18-1). -/
  wipe : Bool
  /-- What was sent, newest first. -/
  out : List Out
  /-- Free values taken so far. -/
  free : Nat
  deriving DecidableEq, Repr

/-- The block: the device and the commands that wait, first in, first out. -/
structure State where
  pending : List Instr
  dev : Dev
  deriving DecidableEq, Repr

/-- No tick work left over. -/
def Late.reset : Late := { digest := none, refill := [], samples := [], audit := [], grants := [], rates := [] }

/-- The clock unit right after reset. -/
def Clk.reset : Clk :=
  { tick := 0#64, prev := 0#64, edges := 0, live := [], refused := [], provisional := none, planned := none,
    holdoverAt := 0, skip := 0, staged := [], holdAt := [], floor := [], dieShare := [], deferred := [],
    late := Late.reset, offs := [], len := 1024, cycles := 0 }

/-- The event recorder with every slot empty. -/
def Evr.reset : Evr :=
  { circ := [], perm := [], circNext := 0, permNext := 0, permUsed := 0, f4Count := 0, fullRaised := false, wear := [],
    buckets := [], freezeAt := none }

/-- The counter reader at reset. -/
def Pmc.reset : Pmc := { num := 0, cur := none, skip := false, edge := [], now := false, dueAt := none, page := none }

/-- The control complex before its first coppice point. -/
def Cc.reset : Cc :=
  { slots := [], capturing := none, nextSlot := 0, journal := [], restarts := [], activating := none, checkin := 0 }

/-- Boot step 1 is over and step 2 begins. -/
def Sec.reset : Sec :=
  { step := 2, bank := 0, second := false, recovery := false, first := none, fw := none, prev := none, staged := none,
    stagedBank := 0, debugOpen := false, custKey := [] }

/-- A blank persistent store. -/
def Nvs.reset : Nvs := { queue := [], stored := [], role := [], roleWear := 0 }

/-- Every channel IDLE and unbound. -/
def Mbx.reset : Mbx :=
  { req := [], seq := [], bound := [], used := [], useNext := 0, termBad := [], route := [], peerOut := [], held := [],
    outcome := [] }

/-- No resource assigned. -/
def Own.reset : Own := { queue := [], domain := [], mctx := [], xctx := [], lock := [], vfHier := [], prot := [] }

/-- Pins after PWRGOOD has risen with every strap 0 (Table 19-3). -/
def Pins.reset : Pins :=
  { pwrgood := true, sysRst := false, fault := false, thermtrip := false, modrst := [], modsel := [], perst := [],
    spi := true, strapRole := 0#2, strapBoot := 0#2 }

/-- A port's lanes at reset. -/
def PhyPort.reset : PhyPort :=
  { highRun := 0, lowRun := 0, resetAt := none, ready := false, highPower := false, dataLanes := 0, reading := false,
    go := false, admitted := 0, stageAt := 0, fit := 0, farFit := 0, farWidth := 0, restartAt := none, saved := [],
    qsStep := 0, qsCmd := 0, qsAt := 0, qsAgain := false, qsWait := false, qsFar := false, powered := 0, fomLow := [],
    fomRaised := [], applied := [], bcOut := [], bcAns := [], bcTold := [], bcLane := 3, bcSeq := 0, adapt := [],
    tune := [], hdrs := [], prbs31 := [], prbs13 := [] }

/-- A port's link at reset. -/
def LinkPort.reset : LinkPort :=
  { store := [], replay := none, replays := 0, fetching := false, fetched := false, lastSent := none, pend := [],
    rr := 11, direct := [], cur := [], havePeer := false, sendInit := false, claimed := false, advert := [],
    noticed := [], session := none, bcHalf := none, bcTx := 0, activeAt := 0, placedAt := [], auditMin := [],
    auditEnd := [], episodes := [], auditAt := none, slots := [], cells := [], need := 0, bad := 0, hdrTick := 0,
    hdrRoute := .none, resync := false, inbox := [], scrTx := [], scrRx := [] }

/-- The switch core at reset: no packet, class 0 holding every turn. -/
def Swc.reset : Swc :=
  { queue := [], stage := [], holds := [], grant := [], accept := [], turn := [], deficit := [], held := [],
    resUsed := [], poolUsed := [], ctlUsed := 0, delay := [] }

/-- The routing unit at reset: no bank activated. DEDUCED, unsafe (assumption 117). -/
def Rte.reset : Rte :=
  { active := [], staged := [], before := [], commit := none, removed := [], upAt := [], level := [], built := none,
    kept := [], installed := [], accepted := false, hbSent := 0, hbSeen := 0 }

/-- The translation unit at reset: nothing cached. -/
def Xlt.reset : Xlt :=
  { cache := [], slots := [], itlb := [], dtlb := [], hr := [], locks := [], walks := [], wait := [], invals := [],
    seq := 0 }

/-- The protection table at reset: no entry enabled. -/
def Prot.reset : Prot := { ents := [] }

/-- A queue that is DISABLED. -/
def Queue.reset : Queue :=
  { taken := [], scan := false, rescan := false, stall := false, prior := 1, abort := none, pend := 0, stamp := 0,
    kept := [], cons := 0, armed := false, keptEv := [] }

/-- A FREE context that was never used (R174). -/
def Conn.reset : Conn :=
  { state := 0, peerEp := 0, localEp := 0, tc := 0, pinned := false, noevict := false, peerConn := 0, peerInc := 0,
    inc := 0, pd := 0, sndNxt := 0, sndUna := 0, retry := 0, epsn := 0, rto := 0, retryMax := 0, rate := 0, sq := 0,
    rq := 0, lastSend := 0, rcvMap := 0#256, sackMap := 0#256, atoms := [], resident := false, used := 0, wbSeq := 0,
    rcvd := [], acc := 0, ece := false, marked := 0, stream := none, ops := [], sent := [], resend := [], sinceReq := 0,
    timer := 0, startAt := none, resps := [], synds := [], reads := [], busy := none, notice := [], tries := 0,
    triedAt := 0, arg := 0#64, chan := none }

/-- The transport at reset: every context FREE. DESIGN CHOICE, unsafe (assumption 116). -/
def Trn.reset : Trn :=
  { conns := [], freed := [], fresh := [], miss := [], fetch := [], need := [], evict := [], gets := [], listen := [],
    nextListen := 1, nextOp := 0, clock := 0, missFull := false, reorderFull := false, feed := [] }

/-- A matching context with empty lists. -/
def MCtx.reset : MCtx :=
  { posted := [], unexpected := [], input := [], slots := [], reads := [], seen := 0, waited := false }

/-- The match logic at reset. -/
def Mte.reset : Mte :=
  { ctxs := [], msgs := [], nextMsg := 0, recvs := [], rdv := [], rdvSeq := [], fins := [], cancels := [], resv := [],
    ended := [], spilled := [], noEntry := [], noSlot := [], atLimit := [] }

/-- The host switch at reset. -/
def Hsw.reset : Hsw :=
  { grp := [], port := [], held := [], unreach := [], vdsp := [], contained := [], totalVfs := [], windows := [],
    tuns := [], bar := [], redirect := [], cto := [], quarantine := [] }

/-- The bridge at reset. -/
def Mbr.reset : Mbr :=
  { reqs := [], nextReq := 0, dir := [], order := [], past := [], repath := [], sources := [], unexport := [],
    pathCmd := [], shown := [] }

/-- The engines at reset: idle. -/
def Eng.reset : Eng :=
  { lm := [], retain := [], queues := [], running := [], ending := [], ctx := [], faults := [], resets := [],
    queuesOf := [], disabling := [], image := [], minHr := [] }

/-- Topiary before the first tick edge: nothing granted. -/
def Pwr.reset : Pwr :=
  { grant := [], spare := 0, cap := [], hrCap := [], charged := 0, ramp := [], holdTo := [], idle := [], wake := [],
    force := [], lower := [], given := [], avail := 0, p0 := 0 }

/-- The collective unit at reset. -/
def Col.reset : Col := { grps := [], slots := [], cells := [], share := [], stall := [], turn := [], downs := [] }

/-- The device of part `p` right after a cold reset. -/
def Dev.reset (p : Part) : Dev :=
  { part := p, regs := [], shadow := [], cnts := [], clk := Clk.reset, evr := Evr.reset, pmc := Pmc.reset,
    cc := Cc.reset, sec := Sec.reset, nvs := Nvs.reset, mbx := Mbx.reset, locks := [], own := Own.reset,
    pins := Pins.reset, phy := [], link := [], swc := Swc.reset, rte := Rte.reset,
    xlt := Xlt.reset, prot := Prot.reset, wq := [], trn := Trn.reset, mte := Mte.reset, mbr := Mbr.reset,
    hsw := Hsw.reset, eng := Eng.reset, pwr := Pwr.reset, arb := [], col := Col.reset, inj := [], mem := [], wr := [],
        wipe := false, out := [], free := 0 }

/-- The machine right after reset: a VX9-FQ, stepping A, with an empty queue. DESIGN CHOICE, unsafe (assumption 6). -/
def State.reset : State :=
  { pending := [], dev := Dev.reset { code := .fq, step := 1#4, metal := 0#4 } }

end Sys2Proof.Machine
end

