-- ==== Sys2Proof/Machine/Ops.lean ====
section
/-!
DEFINITION. The named operations every meaning is written with: tables, registers and fields, counters, memory, error
flags, staged writes and the event recorder.
-/

namespace Sys2Proof.Machine

/-! Tables. -/

/-- The value of number `k`. -/
def Tbl.get {α : Type} : Tbl α → Nat → Option α
  | [], _ => none
  | (k', v) :: t, k => if k' = k then some v else Tbl.get t k

/-- The value of number `k`, or `d` where the table has none. -/
def Tbl.getD {α : Type} (t : Tbl α) (k : Nat) (d : α) : α := (Tbl.get t k).getD d

/-- Whether the table has number `k`. -/
def Tbl.has {α : Type} (t : Tbl α) (k : Nat) : Bool := (Tbl.get t k).isSome

/-- Gives number `k` the value `v`; entries stay in rising order. -/
def Tbl.set {α : Type} : Tbl α → Nat → α → Tbl α
  | [], k, v => [(k, v)]
  | (k', v') :: t, k, v =>
    if k' = k then (k, v) :: t else if k < k' then (k, v) :: (k', v') :: t else (k', v') :: Tbl.set t k v

/-- Takes number `k` out. -/
def Tbl.erase {α : Type} (t : Tbl α) (k : Nat) : Tbl α := t.filter fun e => e.1 != k

/-- Changes every value of a table. -/
def Tbl.mapVal {α : Type} (f : α → α) (t : Tbl α) : Tbl α := t.map fun e => (e.1, f e.2)

/-- Changes the value of number `k`, taking `d` where the table has none. -/
def Tbl.modify {α : Type} (t : Tbl α) (k : Nat) (d : α) (f : α → α) : Tbl α := Tbl.set t k (f (Tbl.getD t k d))

/-! Memory. -/

/-- Stores one byte; addresses stay strictly rising. -/
def Mem.write : List Host.Cell → Nat → Byte → List Host.Cell
  | [], a, b => [(a, b)]
  | (a', b') :: m, a, b =>
    if a' = a then (a, b) :: m else if a < a' then (a, b) :: (a', b') :: m else (a', b') :: Mem.write m a b

/-- The byte the device has stored at `a`; `none` where it has stored none. -/
def Mem.read (m : List Host.Cell) (a : Nat) : Option Byte := Tbl.get m a

/-- Stores bytes at rising addresses. -/
def Mem.writeBytes : List Host.Cell → Nat → List Byte → List Host.Cell
  | m, _, [] => m
  | m, a, b :: bs => Mem.writeBytes (Mem.write m a b) (a + 1) bs

/-- The canonical form: strictly rising addresses. No entry equals what an unlisted address reads as, since that is no
byte at all. -/
def Memory.wf : List Host.Cell → Bool
  | [] => true
  | [_] => true
  | c :: c' :: m => decide (c.1 < c'.1) && Memory.wf (c' :: m)

/-- Where a space begins in the one address range of the memory list. DESIGN CHOICE, unsafe (assumption 9). -/
def Space.base : Space → Nat
  | .host h => h * 2 ^ 60
  | .hbm => 32 * 2 ^ 60
  | .cc => 33 * 2 ^ 60
  | .bulk h => (64 + h) * 2 ^ 60
  | .dev h => (96 + h) * 2 ^ 60
  | .pool => 128 * 2 ^ 60

/-- The memory after the stores of a command. -/
def applyWrites (m : List Host.Cell) (ws : List MemWr) : List Host.Cell :=
  ws.foldl (fun m w => Mem.writeBytes m (w.space.base + w.addr) w.bytes) m

/-- The memory outside the device: that of hosts, and of devices on its host lanes. -/
def outsideMem (m : List Host.Cell) : List Host.Cell :=
  m.filter fun c => decide (c.1 < 32 * 2 ^ 60 ∨ (96 * 2 ^ 60 ≤ c.1 ∧ c.1 < 128 * 2 ^ 60))

/-- Runs a command's effect. The part is fixed (R526), the queue is not touched, and the command's stores land in the
order it made them, after those of a reset that loses the device's own memory. DESIGN CHOICE, unsafe (assumption 2).
DESIGN CHOICE, unsafe (assumption 10). -/
def State.run (s : State) (f : Dev → Dev) : Host.Outcome State Fault Refusal :=
  let d := f s.dev
  let m := if d.wipe then outsideMem s.dev.mem else s.dev.mem
  .next { s with dev := { d with part := s.dev.part, mem := applyWrites m d.wr, wr := [], wipe := false } }

/-- Adds a store to those of the command. -/
def Dev.store (d : Dev) (sp : Space) (a : Nat) (bs : List Byte) : Dev :=
  { d with wr := d.wr ++ [{ space := sp, addr := a, bytes := bs }] }

/-- Sends something to the outside. -/
def Dev.emit (d : Dev) (o : Out) : Dev := { d with out := o :: d.out }

/-- A fresh free value: one the spec does not state. -/
def Dev.fresh (d : Dev) : BitVec 64 × Dev := (Config.freeWord d.free, { d with free := d.free + 1 })

/-- Reads bytes, the stores of the command at hand among them. A byte the device never stored is a free value.
DESIGN CHOICE, safe (assumption 8). -/
def Dev.load (d : Dev) (sp : Space) (a n : Nat) : List Byte × Dev :=
  let m := applyWrites d.mem d.wr
  ((List.range n).map fun i =>
      match Mem.read m (sp.base + a + i) with
      | some b => b
      | none => (Config.freeWord (d.free + i)).setWidth 8,
    { d with free := d.free + n })

/-! Registers. -/

/-- Where a register word is held. The RWP fields of Table 18-7 are held in their persistent words. -/
def Reg.cell (r : Reg) (i : Nat) : Reg × Nat :=
  match r with
  | .HSW_GRP_CFG => (.NVS_WORD, 3 + i)
  | .HSW_PORT_CFG => (.NVS_WORD, 15 + i)
  | .MBX_ROOT_MASK => (.NVS_WORD, 63)
  | r => (r, i)

/-- The word at a home in the register file. -/
def Dev.word (d : Dev) (r : Reg) (i : Nat) : Word :=
  match (Tbl.get d.regs r.code).bind fun t => Tbl.get t i with
  | some w => w
  | none => r.resetWord d.part i

/-- The stored word of register `r`, copy `i`. -/
def Dev.rd (d : Dev) (r : Reg) (i : Nat) : Word := d.word (r.cell i).1 (r.cell i).2

/-- Stores a word in register `r`, copy `i`. -/
def Dev.setReg (d : Dev) (r : Reg) (i : Nat) (w : Word) : Dev :=
  let c := r.cell i
  { d with regs := Tbl.set d.regs c.1.code (Tbl.set (Tbl.getD d.regs c.1.code []) c.2 w) }

/-- The mask of a field. -/
def Fld.mask (f : Fld) : Word := BitVec.ofNat 32 (2 ^ f.w - 1) <<< f.lo

/-- The value of a field within a word. -/
def Fld.ofWord (f : Fld) (w : Word) : Nat := w.toNat / 2 ^ f.lo % 2 ^ f.w

/-- A word with a field replaced. -/
def Fld.put (f : Fld) (w : Word) (v : Nat) : Word :=
  (w &&& ~~~f.mask) ||| (BitVec.ofNat 32 (v % 2 ^ f.w) <<< f.lo)

/-- The value of a field of copy `i`. -/
def Dev.fld (d : Dev) (f : Fld) (i : Nat) : Nat := f.ofWord (d.rd f.reg i)

/-- Whether a one-bit field is set. -/
def Dev.flag (d : Dev) (f : Fld) (i : Nat) : Bool := d.fld f i == 1

/-- Stores a field of copy `i`. -/
def Dev.setFld (d : Dev) (f : Fld) (i v : Nat) : Dev := d.setReg f.reg i (f.put (d.rd f.reg i) v)

/-- Adds to a field that saturates at its largest value. -/
def Dev.bump (d : Dev) (f : Fld) (i n : Nat) : Dev := d.setFld f i (min (d.fld f i + n) (2 ^ f.w - 1))

/-- The bits of a register with one of the access codes `as`. -/
def Reg.accMask (r : Reg) (as : List Acc) : Word :=
  r.fields.foldl (fun m (lo, w, a) => if as.contains a then m ||| (Fld.mask ⟨r, lo, w⟩) else m) 0#32

/-- Table 20-1: what a write of `v` to the bits of `m` leaves in a register that holds `old`. -/
def Reg.merge (r : Reg) (old v m : Word) : Word :=
  let rw := r.accMask [.rw, .rwp] &&& m
  let set := r.accMask [.rw1s] &&& m &&& v
  let clr := r.accMask [.rw1c] &&& m &&& v
  (((old &&& ~~~rw) ||| (v &&& rw)) ||| set) &&& ~~~clr

/-! Counters. -/

/-- Whether a counter belongs to a unit or a port that the part lacks: the egress counters of an absent internal port, the
bridge's and the host switch's (R4, R467). -/
def cntAbsent (p : Part) (g j : Nat) : Bool :=
  match g with
  | 2 => !p.hasPort (j / 7)
  | 10 => !p.hasMbr
  | 11 => decide (p.hostPorts = 0)
  | _ => false

/-- The 48-bit count of entry `j` of group `g` of Table 17-1; 0 where its unit is absent (R467). -/
def Dev.cnt (d : Dev) (g j : Nat) : BitVec 48 :=
  if cntAbsent d.part g j then 0#48 else Tbl.getD (Tbl.getD d.cnts g []) j 0#48

/-- Adds to a counter; it wraps (R466). -/
def Dev.count (d : Dev) (g j : Nat) (n : Nat := 1) : Dev :=
  { d with cnts := Tbl.set d.cnts g (Tbl.set (Tbl.getD d.cnts g []) j (d.cnt g j + BitVec.ofNat 48 n)) }

/-! Access paths. -/

end Sys2Proof.Machine

namespace Sys2Proof

/-- The number under which a function's own registers are held: its channel (Table 15-1), or 4,224 for firmware.
DEDUCED, unsafe (assumption 13). -/
def Src.fn : Src → Nat
  | .vf v => v.val
  | .pf h => 4096 + h.val
  | .debug i => 4176 + i.val
  | .fw => 4224

end Sys2Proof

namespace Sys2Proof.Machine

/-- Whether the device is in F4 (R450). -/
def Dev.f4 (d : Dev) : Bool := d.flag F.GLB_FAULT_F4 0

/-- Whether the device is without power or held in reset (R483, R485). -/
def Dev.inReset (d : Dev) : Bool := d.pins.sysRst || !d.pins.pwrgood

/-- Whether the device has stopped: in F4, or in reset (R450, R485). -/
def Dev.halted (d : Dev) : Bool := d.f4 || d.inReset

/-- The level of an access (R528): 0, 1 or 2; 3 where a debug channel has no rights, and for a host's writes while the device
has stopped, which are discarded (R450). -/
def Dev.level (d : Dev) : Src → Nat
  | .pf h => if d.halted then 3 else if (d.rd .MBX_ROOT_MASK 0).getLsbD h.val then 0 else 1
  | .vf _ => if d.halted then 3 else 2
  | .debug _ => if d.flag F.SEC_STATUS_DEBUG 0 then 0 else 3
  | .fw => 0

/-- Sets a bit of the function's `GLB_ERR`, and records the offset of the first (Table 20-11). -/
def Dev.glbErr (d : Dev) (fn : Nat) (f : Fld) (off : Nat) : Dev :=
  let was := d.rd .GLB_ERR fn
  let d := d.setFld f fn 1
  if was = 0#32 then d.setReg .GLB_ERR_ADDR fn (BitVec.ofNat 32 (2 ^ 31 + off % 2 ^ 25)) else d

/-- A write ignored for its state or level where its chapter says so. -/
def Dev.stateWrite (d : Dev) (fn off : Nat) : Dev := d.glbErr fn F.GLB_ERR_STATE_WRITE off

/-- The first-BAR offset of element `i` of a device register. -/
def Reg.addr (r : Reg) (i : Nat) : Nat :=
  match regRows.find? (fun x => decide (x.reg = r)) with
  | none => 0
  | some x => x.base + (x.dims.foldr (fun d a => (a.1 + (a.2 % d.2) * d.1, a.2 / d.2)) (0, i)).1

/-- Runs the effect of a command of the host-lane data path, which does nothing once the device has stopped (R450). -/
def State.runHost (s : State) (f : Dev → Dev) : Host.Outcome State Fault Refusal :=
  s.run fun d => if d.halted then d else f d

/-- The free-running count of core cycles at cycle `cyc` of the tick at hand (R135). -/
def Dev.cycles (d : Dev) (cyc : Nat) : Nat := d.clk.cycles + cyc

/-! The event recorder (R474 to R477). -/

/-- The bytes of a record and its stamp but for CHECK (Tables 17-3 and 17-4). -/
def EvRec.body (e : EvRec) : List Byte :=
  let ws := e.ctx ++ e.regs
  leBytes 4 (e.code + e.profile * 2 ^ 16 + e.ctx.length * 2 ^ 23 + e.regs.length * 2 ^ 26 +
      (if e.perm then 2 ^ 31 else 0)) ++
    ((ws ++ List.replicate (31 - ws.length) 0#32).take 31).flatMap (fun w => leBytes 4 w.toNat) ++
    leBytes 8 e.tick.toNat ++ leBytes 4 e.rnum ++
    leBytes 2 (min e.supp 2047 + (if e.fabric then 2 ^ 11 else 0) + e.epoch * 2 ^ 12)

/-- The 144 bytes of a slot; an empty slot has the complement of its CHECK (R474). -/
def EvRec.bytes (e : EvRec) : List Byte :=
  let c := crc16 e.body
  e.body ++ leBytes 2 (if e.empty then (~~~c).toNat else c.toNat)

/-- A slot that was never written. -/
def EvRec.blank : EvRec :=
  { code := 0, profile := 0, perm := false, ctx := [], regs := [], tick := 0#64, rnum := 0, supp := 0, fabric := false,
    epoch := 0, empty := true }

/-- Bytes 4`k` to 4`k` + 3 of a slot. -/
def EvRec.word (e : EvRec) (k : Nat) : Word := BitVec.ofNat 32 (leNat ((e.bytes.drop (4 * k)).take 4))

/-- A word of the record area (Table 18-8): event records, the role record, and the certificate chain; the spec does not give the
layout of the last two. DESIGN CHOICE, unsafe (assumption 22). -/
def Dev.recordWord (d : Dev) (off : Nat) : Word :=
  if off < 36864 then (Tbl.getD d.evr.perm (off / 144) EvRec.blank).word (off % 144 / 4)
  else if off < 40960 then Config.roleWord d.nvs.role ((off - 36864) / 4)
  else Config.chainWord ((off - 40960) / 4)

/-! Locks, as `LCK_OP` shows them. -/

/-- A lock nobody has used. -/
def Lock.free : Lock := { holder := none, poison := false, waiters := [], last := [] }

/-- The `LCK_OP` word that requester `q` reads (Table 15-17). -/
def Lock.view (l : Lock) (q : Nat) : Word :=
  BitVec.ofNat 32 (Tbl.getD l.last q 0 * 2 ^ 29 + (if l.holder = some q then 2 ^ 28 else 0) +
    (if l.waiters.any (fun w => w.1 == q) then 2 ^ 27 else 0) + (if l.poison then 2 ^ 26 else 0) +
    l.waiters.length * 2 ^ 20 + l.holder.getD 0x1FFF)

/-! Reading by offset. -/

/-- The group and entry of the counter whose `_LO` or `_HI` word lies at an offset, with whether it is the `_HI` word
(R466, Table 17-1 and the counter tables of the blocks). -/
def counterAt (off : Nat) : Option (Nat × Nat × Bool) :=
  let hi := off / 4 % 2 == 1
  let flat := fun (base g n : Nat) =>
    if base ≤ off ∧ off < base + 8 * n then some (g, (off - base) / 8, hi) else none
  if 0x800000 ≤ off ∧ off < 0x880000 then
    let p := (off - 0x800000) / 0x1000
    let o := off % 0x1000
    if 0x40 ≤ o ∧ o < 0x60 then some (0, 4 * p + (o - 0x40) / 8, hi) else none
  else if 0x900000 ≤ off ∧ off < 0x910000 then
    let p := (off - 0x900000) / 0x200
    let o := off % 0x200
    if 0x100 ≤ o ∧ o < 0x158 then some (1, 11 * p + (o - 0x100) / 8, hi) else none
  else if 0xA10000 ≤ off ∧ off < 0xA12800 then
    let q := (off - 0xA10000) / 0x40
    let o := off % 0x40
    if o < 0x38 then some (2, 7 * q + o / 8, hi) else none
  else
    (flat 0xB00800 3 9) <|> (flat 0xC01000 4 17) <|> (flat 0xD01000 5 10) <|> (flat 0xE01000 6 13) <|>
    (flat 0xF01000 7 8) <|> (flat 0x1001000 8 9) <|> (flat 0x1080100 9 9) <|> (flat 0x1101000 10 10) <|>
    (flat 0x1201000 11 9) <|> (flat 0x1301000 12 6)

/-- The pairs under the shadow rule, beside the counters: the `_LO` register and its `_HI` register. -/
def shadowPairs : List (Reg × Reg) :=
  [(.TCK_NOW_LO, .TCK_NOW_HI), (.GLB_FAULT_TICK_LO, .GLB_FAULT_TICK_HI), (.PMC_SEQ_LO, .PMC_SEQ_HI),
   (.SEC_NONCE_LO, .SEC_NONCE_HI), (.XLT_PROT_SETTLED_LO, .XLT_PROT_SETTLED_HI)]

/-- Whether a register belongs to a unit that the part lacks (R2, R4). -/
def Reg.absent (p : Part) (r : Reg) (i : Nat) : Bool :=
  match r with
  | .MBR_CAPS | .MBR_CFG | .MBR_STATUS | .MBR_DIR_LO | .MBR_DIR_HI | .MBR_HIER_SEL | .MBR_HIER_WIN | .MBR_HIER_CTX
  | .MBR_HIER_STATUS | .MBR_PSET_SEL | .MBR_PSET_HOME | .MBR_PSET_CONN | .MBR_PSET_STATUS => !p.hasMbr
  | .HSW_GRP_CFG => decide (p.hostPorts ≤ 4 * i)
  | .HSW_PORT_CFG | .HSW_PORT_STATUS => decide (p.hostPorts ≤ i)
  | .HSW_CAPS | .HSW_CFG | .HSW_STATUS | .HSW_HIER | .HSW_P2P_LO | .HSW_P2P_HI | .HSW_TUN_SEL | .HSW_TUN_STATUS
  | .HSW_TUN_PEER | .HSW_TUN_CONN => decide (p.hostPorts = 0)
  | .TRN_CTX_TIER_LO | .TRN_CTX_TIER_HI | .MTE_SPILL_LO | .MTE_SPILL_HI | .MTE_SPILL_SIZE | .MTE_SPILL_OCC =>
    decide (p.code = .tn)
  | .PWR_DIE => decide (9 ≤ i) && !p.hlDies.testBit (i - 9)
  | .SWC_RSV => !p.hasPort (128 + i)
  | .SWC_OCC | .SCH_CLASS => !p.hasPort i
  | .SCH_MARK => !p.hasPort (i / 4)
  | .SCH_SHAPE | .SCH_TOKENS | .SCH_DEPTH => !p.hasPort (i / 5)
  | .SCH_DEPTH_RANGE | .SCH_DEPTH_MEAN | .SCH_DELAY_MIN | .SCH_DELAY_MAX | .SCH_DELAY_MEAN | .SCH_DELAY_SAMPLES =>
    !p.hasPort (i / 5)
  | .SCH_DEPTH_HIST | .SCH_DELAY_HIST => !p.hasPort (i / 80)
  | _ => false

/-- The physical function that a function belongs to, as a function number: itself, or that of a virtual function's
hierarchy. -/
def Dev.pfOf (d : Dev) (fn : Nat) : Nat :=
  if fn < 4096 then
    match Tbl.get d.own.vfHier fn with
    | some h => 4096 + h
    | none => 4224
  else if fn < 4120 then fn else 4224

/-- Whether an access source may reach an object assigned to function `owner` (R241, R289, R338): at L0 any object, at L1
those of its physical function and of that function's virtual functions, at L2 its own. -/
def Dev.mayReach (d : Dev) (src : Src) (owner : Option Nat) : Bool :=
  match d.level src, owner with
  | 0, _ => true
  | 1, some o => d.pfOf o == src.fn
  | 2, some o => o == src.fn
  | _, _ => false

/-- The level at which a function's accesses run (R528), by its number. -/
def Dev.fnLevel (d : Dev) (fn : Nat) : Nat :=
  if fn < 4096 then 2
  else if fn < 4120 then (if (d.rd .MBX_ROOT_MASK 0).getLsbD (fn - 4096) then 0 else 1)
  else if 4176 ≤ fn ∧ fn < 4192 then (if d.flag F.SEC_STATUS_DEBUG 0 then 0 else 3)
  else 0

/-- Whether function `fn` may reach an object assigned to `owner`. -/
def Dev.reaches (d : Dev) (fn : Nat) (owner : Option Nat) : Bool :=
  match d.fnLevel fn, owner with
  | 0, _ => true
  | 1, some o => d.pfOf o == fn
  | 2, some o => o == fn
  | _, _ => false

/-- Whether function `fn` may stage protection entry `i` (R258, R540). -/
def Dev.inRange (d : Dev) (fn i : Nat) : Bool :=
  match d.fnLevel fn with
  | 0 => true
  | 1 =>
    let first := d.fld F.XLT_RGN_RANGE_FIRST fn * 1024
    decide (first ≤ i ∧ i < first + d.fld F.XLT_RGN_RANGE_COUNT fn * 1024)
  | _ => false

/-- VALID of a selector register of function `fn`: whether what it selects may be reached (R241, R258, R289, R338; Table 12-9);
selectors without VALID always select. -/
def Dev.selValid (d : Dev) (fn : Nat) (r : Reg) : Bool :=
  match r with
  | .WQ_SEL => d.reaches fn (Tbl.get d.own.queue (d.fld F.WQ_SEL_QUEUE fn))
  | .MTE_SEL => d.reaches fn (Tbl.get d.own.mctx (d.fld F.MTE_SEL_CONTEXT fn))
  | .XLT_CTX_SEL => d.reaches fn (Tbl.get d.own.xctx (d.fld F.XLT_CTX_SEL_CTX fn))
  | .XLT_RGN_SEL => d.inRange fn (d.fld F.XLT_RGN_SEL_INDEX fn)
  | .MBR_HIER_SEL => d.part.hasMbr && decide (d.fld F.MBR_HIER_SEL_HIER fn < 24)
  | _ => true

/-- The copy of a register that function `fn` reaches with element `i`; `none` where its selection is not VALID. -/
def Dev.copy (d : Dev) (fn : Nat) (r : Reg) (i : Nat) : Option Nat :=
  match r.home with
  | .device => some i
  | .perFn => some (fn * r.count + i)
  | .sel f =>
    let ok := d.selValid fn f.reg
    let o := d.fld f fn
    let o := if f.reg = .ENG_PKG_SEL ∧ 5 < o then 0 else o
    if ok then some (o * r.count + i) else none

/-- `XLT_PROT_SETTLED` (R260): the lowest tick of the verdicts still held, or the current tick. -/
def Dev.settled (d : Dev) : Nat :=
  let low := fun (m : Nat) (t : Option Nat) => match t with
    | some t => min m t
    | none => m
  let sct := fun (x : QPkt) => x.pkt.h0.toNat / 2 ^ 44 % 64 == 1 && decide (128 ≤ x.out)
  let t := d.clk.tick.toNat
  let t := d.wq.foldl (fun t q => q.2.taken.foldl (fun t e => low t (if e.verdict then some e.tick else none)) t) t
  let t := d.trn.conns.foldl (fun t c =>
    c.2.ops.foldl (fun t o => low t o.tick)
      (c.2.rcvd.foldl (fun t r => low t (if r.2.kept || r.2.busy then some r.2.tick else none)) t)) t
  let t := d.trn.gets.foldl (fun t g => min t g.tick) t
  let t := d.trn.miss.foldl (fun t g => min t g.tick) t
  let t := d.xlt.wait.foldl (fun t a => low t a.tick) t
  let t := d.link.foldl (fun t l => low t (match l.2.hdrRoute with
    | .deliver _ => if l.2.need ≠ 0 then some l.2.hdrTick else none
    | _ => none)) t
  let t := d.swc.queue.foldl (fun t x => low t (if sct x then some x.tick else none)) t
  d.swc.stage.foldl (fun t o => o.2.foldl (fun t x => low t (if sct x.q then some x.q.tick else none)) t) t

/-- Versions of a protection entry that are kept behind the newest: those whose successor took effect after `settled`
(R259). -/
def keptVersions : Nat → List ProtVer → List ProtVer
  | _, [] => []
  | _, [v] => [v]
  | s, v :: w :: vs => if v.from_ ≤ s then [v] else v :: keptVersions s (w :: vs)

/-- Slots of R259 in use: staged entries and retained versions. -/
def Dev.protSlots (d : Dev) : Nat :=
  let s := d.settled
  d.prot.ents.foldl (fun n e => n + ((keptVersions s e.2).length - 1))
    (d.clk.staged.filter fun x => match x.act with
      | .prot _ _ => true
      | _ => false).length

/-- Virtual downstream ports of a hierarchy with presence 1 (R375): the management function's while the hierarchy is ACTIVE, the
bridge's while it is presented, and those with a device; a tunnel shows what its far side last said. -/
def Dev.dsps (d : Dev) (h : Nat) : Nat :=
  let tunnel := fun (t : Nat) => match Tbl.get d.hsw.tuns t with
    | some x => x.present && d.fld F.HSW_TUN_STATUS_STATE t == 2
    | none => false
  (if d.flag F.HSW_HIER_ACTIVE h then 1 else 0) + (if d.fld F.MBR_HIER_STATUS_STATE h = 1 then 1 else 0) +
    (d.hsw.vdsp.filter fun x => decide (x.1 / 32 = h) && (x.2.kind != 4 || tunnel x.2.a)).length

/-- `MBR_PSET_STATUS` (R349): LIVE while a connection is READY. -/
def Dev.psetWord (d : Dev) (p : Nat) : Word :=
  let used := (List.range 4).filter fun i => d.flag F.MBR_PSET_CONN_VALID (4 * p + i)
  let ready := used.filter fun i =>
    let c := Tbl.getD d.trn.conns (d.fld F.MBR_PSET_CONN_CONN (4 * p + i)) Conn.reset
    c.state == 2 && c.localEp == 24
  BitVec.ofNat 32 ((if used = [] then 0 else if ready = [] then 2 else 1) * 2 ^ 30 + ready.foldl (fun n i => n + 2 ^ i) 0)

/-- The live word of register `r`, copy `c`, as function `fn` would see it. -/
def Dev.live (d : Dev) (fn : Nat) (r : Reg) (c : Nat) : Word :=
  match r with
  | .TCK_NOW_LO => d.clk.tick.setWidth 32
  | .LNK_CFG => if d.part.hasSpill then d.rd r c else F.LNK_CFG_SPILL_EN.put (d.rd r c) 0
  | .TCK_NOW_HI => (d.clk.tick >>> 32).setWidth 32
  | .HSW_CFG => F.HSW_CFG_FW_HIER.put (d.rd .HSW_CFG 0) (F.HSW_CFG_FW_HIER.ofWord (d.rd .NVS_WORD 2))
  | .EVR_RD_DATA =>
    let t := if d.flag F.EVR_RD_SEL_AREA fn then d.evr.perm else d.evr.circ
    (Tbl.getD t (d.fld F.EVR_RD_SEL_INDEX fn) EvRec.blank).word c
  | .XLT_PROT_SETTLED_LO => BitVec.ofNat 32 d.settled
  | .XLT_PROT_SETTLED_HI => BitVec.ofNat 32 (d.settled / 2 ^ 32)
  | .XLT_PROT_STATUS => F.XLT_PROT_STATUS_PENDING.put (d.rd .XLT_PROT_STATUS 0) d.protSlots
  | .HSW_HIER => F.HSW_HIER_DSPS.put (d.rd .HSW_HIER c) (d.dsps c)
  | .MBR_HIER_STATUS =>
    let n := fun w => (d.mbr.reqs.filter fun r => r.hier == c && r.write == w).length
    F.MBR_HIER_STATUS_WR.put (F.MBR_HIER_STATUS_RD.put (d.rd .MBR_HIER_STATUS c) (n false)) (n true)
  | .MBR_PSET_STATUS => d.psetWord c
  | .ENG_PKG_STATUS =>
    -- ENDPOINT is 0 when the slot is not ENABLED (Table 14-6).
    if d.fld F.ENG_PKG_STATUS_STATE c = 2 then d.rd r c else F.ENG_PKG_STATUS_ENDPOINT.put (d.rd r c) 0
  | .XLT_LOCK_COUNT => BitVec.ofNat 32 (d.xlt.cache.filter (·.locked)).length
  | .WQ_SEL => F.WQ_SEL_VALID.put (d.rd r fn) (if d.selValid fn r then 1 else 0)
  | .MTE_SEL => F.MTE_SEL_VALID.put (d.rd r fn) (if d.selValid fn r then 1 else 0)
  | .XLT_CTX_SEL => F.XLT_CTX_SEL_VALID.put (d.rd r fn) (if d.selValid fn r then 1 else 0)
  | .XLT_RGN_SEL => F.XLT_RGN_SEL_VALID.put (d.rd r fn) (if d.selValid fn r then 1 else 0)
  | .MBR_HIER_SEL => F.MBR_HIER_SEL_VALID.put (d.rd r fn) (if d.selValid fn r then 1 else 0)
  | .MBX_B => if F.MBX_RESULT_RESULT_VALID.ofWord (d.rd .MBX_RESULT fn) = 1 then d.rd r c else 0#32
  | r => d.rd r c &&& ~~~(r.accMask [.wo])

/-- Copies the upper word of a pair into the function's shadow of it, at the offset of the `_HI` word (R110). -/
def Dev.latchShadow (d : Dev) (fn off : Nat) (w : Word) : Dev :=
  let t := Tbl.set (Tbl.getD d.shadow fn []) off w
  { d with shadow := Tbl.set d.shadow fn t }

/-- Whether an offset from 0x00B0_0000 lies in a route table (Table 05-4). -/
def inTables (off : Nat) : Bool :=
  decide ((0x10000 ≤ off ∧ off < 0x18000) ∨ (0x20000 ≤ off ∧ off < 0x28000) ∨ (0x80000 ≤ off ∧ off < 0x100000))

/-- A word of the staged bank as it reads: while the bank is being filled it is the word before the swap or the new active
word, and which of them is not defined (R164). -/
def Dev.readBank (d : Dev) (off : Nat) : Word × Dev :=
  if 0x10000 ≤ off ∧ off < 0x10010 then (0#32, d)
  else if d.flag F.RTE_TBL_STATUS_COPYING 0 then
    let r := d.fresh
    (if r.1.getLsbD 0 then Tbl.getD d.rte.before (off / 4) 0#32 else Tbl.getD d.rte.active (off / 4) 0#32, r.2)
  else (Tbl.getD d.rte.staged (off / 4) 0#32, d)

/-- What a read by `fn` of the word at `off` returns, with its side effects: shadows (R110) and RC fields (Table 20-1).
Offsets that name nothing read 0 (R12, R532). -/
def Dev.readWord (d : Dev) (fn off : Nat) : Word × Dev :=
  match counterAt off with
  | some (g, j, hi) =>
    if hi then (Tbl.getD (Tbl.getD d.shadow fn []) off 0#32, d)
    else
      ((d.cnt g j).setWidth 32,
        d.latchShadow fn (off + 4) ((d.cnt g j >>> 32).setWidth 32))
  | none =>
    if 0x110000 ≤ off ∧ off < 0x120000 then (d.recordWord (off - 0x110000), d)
    else if 0x680000 ≤ off ∧ off < 0x690000 ∧ d.part.code = .tn then
      let r := d.load .cc (off - 0x600000) 4
      (BitVec.ofNat 32 (leNat r.1), r.2)
    else if 0xB00000 ≤ off ∧ inTables (off - 0xB00000) = true then d.readBank (off - 0xB00000)
    else if 0x400000 ≤ off ∧ off < 0x404000 then
      let l := (off - 0x400000) / 4
      let q := if fn = 4224 then 5248 else fn
      if fn = 4224 ∨ Tbl.get d.own.lock l = some fn then ((Tbl.getD d.locks l Lock.free).view q, d) else (0#32, d)
    else
      match regAt off with
      | none => (0#32, d)
      | some (r, i) =>
        if r.absent d.part i then (0#32, d)
        else
          match d.copy fn r i with
          | none => (0#32, d)
          | some c =>
            match shadowPairs.find? (fun p => p.1 = r ∨ p.2 = r) with
            | some (lo, hi) =>
              if r = hi then (Tbl.getD (Tbl.getD d.shadow fn []) off 0#32, d)
              else
                (d.live fn lo c, d.latchShadow fn (off + 4) (d.live fn hi c))
            | none =>
              let m := r.accMask [.rc]
              if m = 0#32 then (d.live fn r c, d) else (d.live fn r c, d.setReg r c (d.rd r c &&& ~~~m))

/-- The profile an event takes: the lowest-numbered enabled one that matches (R475). -/
def Dev.profileOf (d : Dev) (code : Nat) : Option Nat :=
  (List.range 64).find? fun p =>
    d.flag F.EVR_PROF_CFG_EN p &&
      ((code &&& d.fld F.EVR_PROF_MATCH_MASK p) == (d.fld F.EVR_PROF_MATCH_CODE p &&& d.fld F.EVR_PROF_MATCH_MASK p))

/-- Reads the registers of a profile in list order, as REG_READ reads them. -/
def Dev.capture (d : Dev) (p n : Nat) : List Word × Dev :=
  (List.range n).foldl
    (fun (ws, d) i =>
      let (w, d) := d.readWord 4224 (d.fld F.EVR_PROF_REG_OFFSET (31 * p + i) * 4)
      (ws ++ [w], d)) ([], d)

/-- The token bucket of R477: whether the event may be recorded, with the bucket after it. -/
def Dev.bucketTake (d : Dev) (code : Nat) : Bool × Bucket :=
  let b := code / 256
  let rate := d.fld F.EVR_RATE_RATE b
  let cap := max 1 (d.fld F.EVR_RATE_BURST b) * 1024
  let k := Tbl.getD d.evr.buckets code { units := 16 * 1024, last := 0, supp := 0 }
  let u := min cap (k.units + rate * (d.clk.edges - k.last))
  if rate = 0 then (true, { k with units := u, last := d.clk.edges })
  else if 1024 ≤ u then (true, { k with units := u - 1024, last := d.clk.edges })
  else (false, { units := u, last := d.clk.edges, supp := k.supp + 1 })

/-- Writes a slot of the permanent area unless the slot is worn (R504); for a slot that is, sets WORN of `NVS_STATUS` (Table 18-12)
and answers `NVS_WORN`. -/
def Dev.recordPerm (d : Dev) (slot : Nat) (e : EvRec) : Dev × Option Nat :=
  let n := Tbl.getD d.evr.wear slot 0
  if 100000 ≤ n then (d.setFld F.NVS_STATUS_WORN 0 1, some 0x0102)
  else
    ({ d with evr := { d.evr with perm := Tbl.set d.evr.perm slot e, wear := Tbl.set d.evr.wear slot (n + 1),
                                  permNext := d.evr.permNext + 1 } }, none)

/-- Writes a record to the circulating area and, with PERM, to the permanent area (R475 step 7, R476). Answers also the
event that the write itself raises. -/
def Dev.record (d : Dev) (code prof : Nat) (perm : Bool) (ctx regs : List Word) (supp : Nat) : Dev × Option Nat :=
  let e : EvRec := { code := code, profile := prof, perm := perm, ctx := ctx, regs := regs, tick := d.clk.tick,
                     rnum := d.evr.circNext, supp := supp, fabric := d.flag F.TCK_STATUS_FABRIC 0,
                     epoch := d.fld F.TCK_STATUS_EPOCH 0, empty := false }
  let d := { d with evr := { d.evr with circ := Tbl.set d.evr.circ (d.evr.circNext % 4096) e,
                                        circNext := d.evr.circNext + 1 } }
  let d := d.setFld F.EVR_STATUS_CIRC_COUNT 0 d.evr.circNext
  let e := { e with rnum := d.evr.permNext }
  if !perm then (d, none)
  else if code = 2 then
    let r := d.recordPerm (248 + d.evr.f4Count % 8) e
    ({ r.1 with evr := { r.1.evr with f4Count := r.1.evr.f4Count + 1 } }, r.2)
  else if d.evr.permUsed < 248 then
    let r := d.recordPerm d.evr.permUsed e
    let d := { r.1 with evr := { r.1.evr with permUsed := r.1.evr.permUsed + 1 } }
    (d.setFld F.EVR_STATUS_PERM_USED 0 d.evr.permUsed, r.2)
  else
    let first := !d.evr.fullRaised
    let d := d.setFld F.EVR_STATUS_PERM_FULL 0 1
    ({ d with evr := { d.evr with fullRaised := true } }, if first then some 0x0402 else none)

/-- Handles one raised event by R475; the second answer is that of `Dev.record`. -/
def Dev.handleEvent (d : Dev) (code : Nat) (ctx : List Word) : Dev × Option Nat :=
  let prof := d.profileOf code
  let f4 := code == 2
  let mute := match prof with
    | some p => d.flag F.EVR_PROF_CFG_MUTE p && !f4
    | none => false
  if mute then (d, none)
  else if d.flag F.EVR_STATUS_FROZEN 0 && !f4 then (d.bump F.EVR_FROZEN_CNT_COUNT 0 1, none)
  else
    let (ok, k) := if f4 then (true, Tbl.getD d.evr.buckets code { units := 0, last := 0, supp := 0 })
      else d.bucketTake code
    let d := if f4 then d
      else { d with evr := { d.evr with buckets := Tbl.set d.evr.buckets code (if ok then { k with supp := 0 } else k) } }
    if !ok then (d.bump F.EVR_SUPP_CNT_COUNT (code / 256) 1, none)
    else
      let ctx := ctx.take 7
      let perm := f4 || (match prof with
        | some p => d.flag F.EVR_PROF_CFG_PERM p
        | none => false)
      let (regs, d) := match prof with
        | some p => d.capture p (min (d.fld F.EVR_PROF_CFG_NREG p) (31 - ctx.length))
        | none => ([], d)
      d.record code (prof.getD 0x7F) perm ctx regs k.supp

/-- Raises an event with its context words (R475), and the event that its record raises, if any. DEDUCED, unsafe (assumption 15). -/
def Dev.raise (d : Dev) (code : Nat) (ctx : List Nat) : Dev :=
  let r := d.handleEvent code (ctx.map (BitVec.ofNat 32))
  match r.2 with
  | none => r.1
  | some c => (r.1.handleEvent c []).1

/-! Fault classes (R446). -/

/-- An F1 or F2 fault: its bit of `GLB_FAULT` is set. -/
def Dev.fault1 (d : Dev) : Dev := d.setFld F.GLB_FAULT_F1 0 1

/-- An F2 fault. -/
def Dev.fault2 (d : Dev) : Dev := d.setFld F.GLB_FAULT_F2 0 1

/-- An F3 fault declared by event `code`: bit, event and tick are recorded and `GLB_F3` is raised (R464, R465). -/
def Dev.fault3 (d : Dev) (code : Nat) : Dev :=
  let d := d.setFld F.GLB_FAULT_F3 0 1
  let d := if d.flag F.GLB_FAULT_F4 0 then d else
    ((d.setFld F.GLB_FAULT_EVENT 0 code).setReg .GLB_FAULT_TICK_LO 0 (d.clk.tick.setWidth 32)).setReg
      .GLB_FAULT_TICK_HI 0 ((d.clk.tick >>> 32).setWidth 32)
  d.raise 0x0001 [code]

/-- Whether a virtual function's register view holds the word at an offset (Table 20-7). -/
def vfView (off : Nat) : Bool :=
  decide ((0x200000 ≤ off ∧ off < 0x200100) ∨ (0xD00000 ≤ off ∧ off < 0xD00030))

/-- What a word read through a path returns: a view that does not hold the word reads 0 (R533, R528). -/
def Dev.readAs (d : Dev) (src : Src) (off : Nat) : Word × Dev :=
  match src with
  | .vf _ => if vfView off then d.readWord src.fn off else (0#32, d)
  | .debug _ => if d.level src = 0 then d.readWord src.fn off else (0#32, d)
  | _ => d.readWord src.fn off

/-- Whether a path is that of a virtual function. -/
def vfPath : Src → Bool
  | .vf _ => true
  | _ => false

/-- A read access of `size` bytes (R527): the data goes out; an access of another size or alignment reads 0 and sets
`GLB_ERR.SIZE`. In F4 only the management functions answer (R450). -/
def Dev.readAccess (d : Dev) (src : Src) (off size : Nat) : Dev :=
  if d.f4 && vfPath src then d.emit (.unsupported src.fn false)
  else if size = 4 ∧ off % 4 = 0 then
    let r := d.readAs src off
    r.2.emit (.readData src.fn off (r.1.setWidth 64))
  else if size = 8 ∧ off % 8 = 0 then
    let lo := d.readAs src off
    let hi := lo.2.readAs src (off + 4)
    hi.2.emit (.readData src.fn off (hi.1 ++ lo.1))
  else (d.glbErr src.fn F.GLB_ERR_SIZE off).emit (.readData src.fn off 0#64)

/-- Whether the control complex runs and serves commands (R454). -/
def Dev.ccRuns (d : Dev) : Bool := d.fld F.GLB_CC_STATUS_STATE 0 == 0 && d.sec.step == 6

/-! Tick-aligned writes (R32, R35). -/

/-- Whether two staged writes go to the same register. -/
def StagedAct.sameTarget : StagedAct → StagedAct → Bool
  | .reg r i _ _, .reg r' i' _ _ => decide (r = r') && i == i'
  | .obsClear, .obsClear => true
  | .pmcNow, .pmcNow => true
  | .prot i _, .prot i' _ => i == i'
  | .dirEnt x _, .dirEnt x' _ => x == x'
  | _, _ => false

/-- The boundary that applies a tick-aligned write which completes now (R32). -/
def Dev.dueEdge (d : Dev) (late : Bool) : Nat := d.clk.edges + (if late then 2 else 1)

/-- Stages a tick-aligned write of function `fn`. An earlier write to the same register that is due at the same boundary
never takes effect (R32); a function that holds accumulates (R35). DEDUCED, unsafe (assumption 12). -/
def Dev.stage (d : Dev) (fn : Nat) (late : Bool) (a : StagedAct) : Dev :=
  let held := (Tbl.get d.clk.holdAt fn).isSome
  let due := if held then none else some (d.dueEdge late)
  let keep := d.clk.staged.filter fun s =>
    !(s.act.sameTarget a && s.due == due && (due.isSome || s.fn == fn))
  { d with clk := { d.clk with staged := keep ++ [{ due := due, fn := fn, act := a }] } }

/-- Makes held writes due at boundary `e`, in their order: of the writes to one register that are due there only the last is kept
(R32, R35). -/
def makeDue (e : Nat) (staged held : List Staged) : List Staged :=
  held.foldl (fun xs s => (xs.filter fun x => !(x.act.sameTarget s.act && x.due == some e)) ++ [{ s with due := some e }]) staged

/-- Releases a function's held writes: they become due at one boundary, counted from now (R35). -/
def Dev.releaseHold (d : Dev) (fn : Nat) (late : Bool) : Dev :=
  let mine := fun (s : Staged) => s.due == none && s.fn == fn
  { d with clk := { d.clk with
      staged := makeDue (d.dueEdge late) (d.clk.staged.filter fun s => !mine s) (d.clk.staged.filter mine),
      holdAt := Tbl.erase d.clk.holdAt fn } }

end Sys2Proof.Machine
end

