-- ==== Sys2Proof/Machine/Packet.lean ====
section
/-!
DEFINITION. The fabric packet: its header fields (Table 04-1), its checks (R115, Table 04-3), its cells (R112), and how a
unit builds one for the switch core.
-/

namespace Sys2Proof.Machine

/-- Bits `lo` to `lo + w - 1` of a 64-bit word. -/
def bits (x : BitVec 64) (lo w : Nat) : Nat := x.toNat / 2 ^ lo % 2 ^ w

/-- A 64-bit word with bits `lo` to `lo + w - 1` replaced. -/
def putBits (x : BitVec 64) (lo w v : Nat) : BitVec 64 :=
  (x &&& ~~~(BitVec.ofNat 64 ((2 ^ w - 1) * 2 ^ lo))) ||| BitVec.ofNat 64 (v % 2 ^ w * 2 ^ lo)

end Sys2Proof.Machine

namespace Sys2Proof

open Machine

/-! Fields of Table 04-1. -/

def Pkt.ver (p : Pkt) : Nat := bits p.h0 62 2
def Pkt.tc (p : Pkt) : Nat := bits p.h0 60 2
def Pkt.rvc (p : Pkt) : Nat := bits p.h0 58 2
def Pkt.cm (p : Pkt) : Bool := p.h0.getLsbD 57
def Pkt.pin (p : Pkt) : Bool := p.h0.getLsbD 56
def Pkt.nmin (p : Pkt) : Bool := p.h0.getLsbD 55
def Pkt.hops (p : Pkt) : Nat := bits p.h0 50 5
def Pkt.kind (p : Pkt) : Nat := bits p.h0 44 6
def Pkt.src (p : Pkt) : Nat := bits p.h0 22 22
def Pkt.dst (p : Pkt) : Nat := bits p.h0 0 22
def Pkt.len (p : Pkt) : Nat := bits p.h1 52 12
def Pkt.urg (p : Pkt) : Bool := p.h1.getLsbD 51
def Pkt.psn (p : Pkt) : Nat := bits p.h1 24 24
def Pkt.conn (p : Pkt) : Nat := bits p.h1 0 24
def Pkt.ta (p : Pkt) (lo w : Nat) : Nat := bits p.h2 lo w
def Pkt.tb (p : Pkt) (lo w : Nat) : Nat := bits p.h3 lo w
def Pkt.hcrc (p : Pkt) : Nat := bits p.h3 48 16
/-- TFLAGS bit 0 (Table 04-3). -/
def Pkt.poison (p : Pkt) : Bool := p.tflags.getLsbD 0
/-- The device of an endpoint ID (R143). -/
def devOf (ep : Nat) : Nat := ep / 32
/-- The virtual channel: three routing VCs for each class (Table 00-4). -/
def Pkt.vc (p : Pkt) : Nat := 3 * p.tc + p.rvc

/-- The padded payload length P (R112). -/
def padLen (len : Nat) : Nat := max 24 (8 * ((len + 7) / 8))

/-- The packet length S (R112). -/
def Pkt.size (p : Pkt) : Nat := 40 + padLen p.len

/-- The number of cells n (R112). -/
def Pkt.cells (p : Pkt) : Nat := (p.size + 255) / 256

/-- The 32 header bytes (R113). -/
def Pkt.headerBytes (p : Pkt) : List Byte :=
  leBytes 8 p.h0.toNat ++ leBytes 8 p.h1.toNat ++ leBytes 8 p.h2.toNat ++ leBytes 8 p.h3.toNat

/-- The header check of R115: the CRC-16 over header bytes 0 to 29. -/
def Pkt.hcrcOf (p : Pkt) : Nat := (crc16 (p.headerBytes.take 30)).toNat

/-- The packet with HCRC computed afresh (R115). -/
def Pkt.stamp (p : Pkt) : Pkt := { p with h3 := putBits p.h3 48 16 p.hcrcOf }

/-- The packet with its mutable fields RVC, CM, NMIN, HOPS and HCRC taken as 0 (R114). -/
def Pkt.bare (p : Pkt) : Pkt :=
  { p with h0 := putBits (putBits p.h0 57 3 0) 50 6 0, h3 := putBits p.h3 48 16 0 }

/-- The payload with its padding. -/
def Pkt.padded (p : Pkt) : List Byte := 
  p.data ++ p.pad ++ List.replicate (padLen p.data.length - p.data.length - p.pad.length) 0#8

/-- The end-to-end check of Table 04-3. -/
def Pkt.e2eOf (p : Pkt) : BitVec 32 := crc32c (p.bare.headerBytes ++ p.padded)

/-- The packet's bytes as its cells carry them, zero to the end of the last cell (R112). -/
def Pkt.bytes (p : Pkt) : List Byte :=
  let bs := p.headerBytes ++ p.padded ++ leBytes 4 p.e2e.toNat ++ leBytes 3 p.aux.toNat ++ [p.tflags]
  bs ++ List.replicate (256 * p.cells - bs.length) 0#8

/-- Builds a packet: kind, class, source and destination endpoints, connection, PSN, the owner's words, payload, and the
trailer's SRC_AUX and POISON. -/
def Pkt.make (kind tc src dst conn psn : Nat) (ta : BitVec 64) (tb : Nat) (data : List Byte) (aux : Nat)
    (poison urg pin : Bool) : Pkt :=
  let p : Pkt :=
    { h0 := BitVec.ofNat 64 (2 ^ 62 + tc % 4 * 2 ^ 60 + (if pin then 2 ^ 56 else 0) + kind % 64 * 2 ^ 44 +
        src % 2 ^ 22 * 2 ^ 22 + dst % 2 ^ 22)
      h1 := BitVec.ofNat 64 (data.length % 4096 * 2 ^ 52 + (if urg then 2 ^ 51 else 0) + psn % 2 ^ 24 * 2 ^ 24 +
        conn % 2 ^ 24)
      h2 := ta
      h3 := BitVec.ofNat 64 (tb % 2 ^ 48)
      data := data, e2e := 0#32, aux := BitVec.ofNat 24 aux, tflags := if poison then 1#8 else 0#8 }
  { p with e2e := p.e2eOf }.stamp

/-- Whether a packet is an SCT_DATA response (Table 06-4). -/
def Pkt.isResp (p : Pkt) : Bool := p.kind == 1 && (p.ta 56 8 == 4 || p.ta 56 8 == 6)

/-- Whether a packet is a direct packet (R152, Table 05-6). -/
def Pkt.isDirect (p : Pkt) : Bool := p.kind == 0x11 && p.h3.getLsbD 39

/-- SUBKIND of a MGMT packet (Table 05-6). -/
def Pkt.subkind (p : Pkt) : Nat := bits p.h3 40 8

end Sys2Proof

namespace Sys2Proof.Machine

/-- The low 24 bits of the tick number, which other kinds than SCT carry in SRC_AUX (Table 04-3). -/
def Dev.tickAux (d : Dev) : Nat := d.clk.tick.toNat % 2 ^ 24

/-- The endpoint ID of endpoint `e` of this device; device 0 while its ID is not VALID (R439). -/
def Dev.ep (d : Dev) (e : Nat) : Nat :=
  (if d.flag F.RTE_ID_VALID 0 then d.fld F.RTE_ID_DEVICE 0 else 0) * 32 + e

/-- Queues a packet at internal port `q` for injection into the switch core (R124). -/
def Dev.send (d : Dev) (q : Nat) (p : Pkt) : Dev :=
  { d with inj := Tbl.set d.inj q (Tbl.getD d.inj q [] ++ [(p, none)]) }

/-- Queues a collective packet at internal port `q` for the tree port `port` (R301). -/
def Dev.sendVia (d : Dev) (q port : Nat) (p : Pkt) : Dev :=
  { d with inj := Tbl.set d.inj q (Tbl.getD d.inj q [] ++ [(p, some port)]) }

/-- Builds and queues a MGMT packet of a subkind to endpoint 31 of a device (R438). -/
def Dev.sendMgmt (d : Dev) (sub dev term level : Nat) (data : List Byte) : Dev :=
  d.send 156 (Pkt.make 0x11 3 (d.ep 31) (dev * 32 + 31) 0 0 (BitVec.ofNat 64 (term * 2 ^ 32 + level))
    (sub * 2 ^ 40) data d.tickAux false false false)

/-- Keeps mail for the end of a restart, up to 1,024 messages (R455). -/
def Dev.holdMail (d : Dev) (m : HeldMail) : Dev :=
  if 1024 ≤ d.mbx.held.length then d.bump F.GLB_CC_STATUS_DROPPED 0 1
  else { d with mbx := { d.mbx with held := d.mbx.held ++ [m] } }

end Sys2Proof.Machine
end

