-- ==== Sys2Proof/Machine/Arb.lean ====
section
/-!
DEFINITION. Topiary's answer to a piece of work (R418, R420, R423) and the memory-residency arbiter (R201, R202).
-/

namespace Sys2Proof.Machine

/-! Topiary. -/

/-- Topiary's answer to a piece of work of kind `k` on a die: the die's share covers the cost, and the kind's grant or the spare
pool does, or it waits (R420, R423). -/
def Dev.spendOn (d : Dev) (die k cost : Nat) : Option Dev :=
  let g := Tbl.getD d.pwr.grant k 0
  let cap := Tbl.getD d.pwr.cap die 0
  let pay := fun (x : Pwr) => some { d with pwr := { x with charged := x.charged + cost, cap := Tbl.set x.cap die (cap - cost) } }
  if cap < cost then none
  else if cost ≤ g then pay { d.pwr with grant := Tbl.set d.pwr.grant k (g - cost) }
  else if cost ≤ d.pwr.spare then pay { d.pwr with spare := d.pwr.spare - cost }
  else none

/-- Work of kind `k` on the core die. -/
def Dev.spend (d : Dev) (k cost : Nat) : Option Dev := d.spendOn 0 k cost

/-- Units of priority P0 are admitted in full (R418): what exceeds the amount available is the next tick's DEFICIT, and is flagged
and raised once in a tick. -/
def Dev.spendP0 (d : Dev) (cost : Nat) : Dev :=
  let was := decide (d.pwr.avail < d.pwr.p0)
  let d := { d with pwr := { d.pwr with p0 := d.pwr.p0 + cost, charged := d.pwr.charged + cost, spare := d.pwr.spare - cost } }
  if !was && decide (d.pwr.avail < d.pwr.p0) then (d.setFld F.PWR_STATUS_FLOOR_OVER 0 1).raise 0x1401 [] else d

/-- Wakes a hedgerow when it is parked (R422). -/
def Dev.wake (d : Dev) (h : Nat) : Dev :=
  if d.fld F.PWR_HR_STATE h = 0 ∧ (Tbl.get d.pwr.wake h).isNone then
    { d with pwr := { d.pwr with wake := Tbl.set d.pwr.wake h d.clk.edges } }
  else d

/-! The arbiter. -/

/-- The request the arbiter serves next (R201): the oldest of those that have waited 64 ticks, else the oldest of the first
client in the order of Table 06-9. DEDUCED, unsafe (assumption 129). -/
def Dev.arbNext (d : Dev) : Option ArbReq :=
  match d.arb.find? fun r => decide (r.at_ + 64 ≤ d.clk.edges) with
  | some r => some r
  | none => d.arb.foldl (fun m r => match m with
    | none => some r
    | some b => if r.client < b.client then some r else some b) none

/-- Issues the next request, unless it needs an HBM burst that Topiary does not admit: clients 1 and 2 are of priority P0, the
others of P3 (R201, Table 14-2). A write lands as it is issued (R202). -/
def Dev.arbIssue (d : Dev) : Option Dev :=
  match d.arbNext with
  | none => none
  | some r =>
    let cost := d.fld F.PWR_COST_COST 6
    let paid := if !r.hbm then some d else if r.client ≤ 2 then some (d.spendP0 cost) else d.spend 6 cost
    paid.map fun d => { d with arb := d.arb.erase r, wr := d.wr ++ r.writes }

/-- Issues requests until the next one must wait. -/
def Dev.arbRun : Nat → Dev → Dev
  | 0, d => d
  | n + 1, d => match d.arbIssue with
    | none => d
    | some d => Dev.arbRun n d

/-- The arbiter issues what it may. -/
def Dev.arbiter (d : Dev) : Dev := Dev.arbRun d.arb.length d

/-- A unit asks for an access. -/
def Dev.request (d : Dev) (client key : Nat) (hbm : Bool) (writes : List MemWr) : Dev :=
  let r : ArbReq := { client := client, key := key, hbm := hbm, at_ := d.clk.edges, writes := writes }
  ({ d with arb := d.arb ++ [r] }).arbiter

/-- Whether an access has not been issued yet. -/
def Dev.arbWaits (d : Dev) (client key : Nat) : Bool := d.arb.any fun r => r.client == client && r.key == key

/-- A unit gives up an access that has not been issued. -/
def Dev.arbDrop (d : Dev) (client key : Nat) : Dev :=
  if d.arbWaits client key then
    ({ d with arb := d.arb.filter fun r => !(r.client == client && r.key == key) }).arbiter
  else d

end Sys2Proof.Machine
end

