-- ==== Sys2Proof/Machine/Buffer.lean ====
section
/-!
DEFINITION. The shared buffer (R122 to R125), link notices (R108), and what a port's going down does to its traffic (R107,
R108, R539).
-/

namespace Sys2Proof.Machine

/-- The lanes of fabric port `p` beside its registers. -/
def Dev.port (d : Dev) (p : Nat) : PhyPort := Tbl.getD d.phy p PhyPort.reset

/-- Changes the lanes of port `p`. -/
def Dev.modPort (d : Dev) (p : Nat) (f : PhyPort → PhyPort) : Dev := { d with phy := Tbl.set d.phy p (f (d.port p)) }

/-- The link of fabric port `p` beside its registers. -/
def Dev.lnk (d : Dev) (p : Nat) : LinkPort := Tbl.getD d.link p LinkPort.reset

/-- Changes the link of port `p`. -/
def Dev.modLnk (d : Dev) (p : Nat) (f : LinkPort → LinkPort) : Dev := { d with link := Tbl.set d.link p (f (d.lnk p)) }

/-- The link state of Table 03-14: 0 DOWN, 1 INIT, 2 ACTIVE, 3 RETRAIN. -/
def Dev.linkState (d : Dev) (p : Nat) : Nat := d.fld F.LNK_STATUS_STATE p

/-! Credits. -/

/-- AVAIL of virtual channel `v` at port `p` (R96): signed. -/
def Dev.avail (d : Dev) (p v : Nat) : Int :=
  let x := d.fld F.LNK_VC_CREDIT_AVAIL (12 * p + v)
  if x < 65536 then x else (x : Int) - 131072

/-- Stores AVAIL as 17-bit two's complement. -/
def Dev.setAvail (d : Dev) (p v : Nat) (x : Int) : Dev :=
  d.setFld F.LNK_VC_CREDIT_AVAIL (12 * p + v) ((x % 131072).toNat)

/-- Receive credits not yet returned (Table 03-17, OCC). -/
def Dev.occ (d : Dev) (p v : Nat) : Nat := d.fld F.LNK_VC_ALLOC_OCC (12 * p + v)

/-- Stores OCC. -/
def Dev.setOcc (d : Dev) (p v n : Nat) : Dev := d.setFld F.LNK_VC_ALLOC_OCC (12 * p + v) n

/-- Cells of an accepted packet have left the buffer: their return is pending (R97). -/
def Dev.returnCredit (d : Dev) (p v n : Nat) : Dev :=
  d.modLnk p fun l => { l with pend := Tbl.set l.pend v (Tbl.getD l.pend v 0 + n) }

/-! Buffer parts. -/

/-- The cells that input `q`'s reserve holds (R122, R125). -/
def Dev.heldOf (d : Dev) (q : Nat) : Nat :=
  Tbl.getD d.swc.held q (if 128 ≤ q ∧ d.part.hasPort q then 2048 else 0)

/-- The reserve that input `q` is to have: its claim (R123) or `SWC_RSV` (R125). -/
def Dev.reserveOf (d : Dev) (q : Nat) : Nat :=
  if q < 128 then d.fld F.SWC_FAB_RSV_CELLS q
  else if d.part.hasPort q then d.fld F.SWC_RSV_RESERVE (q - 128) else 0

/-- The pool: every cell not reserved (R122). -/
def Dev.poolSize (d : Dev) : Nat :=
  786432 - 4096 - (List.range 160).foldl (fun n q => n + d.heldOf q) 0

/-- The pool's free cells. -/
def Dev.poolFree (d : Dev) : Nat := d.poolSize - d.swc.poolUsed.foldl (fun n e => n + e.2) 0

/-- `SWC_BUF` and `SWC_BUF_FREE` follow the parts; FREE reaching 0 through input `q` is recorded and raised (R142, Tables 04-11 and
04-21). -/
def Dev.bufSync (d : Dev) (q : Nat) : Dev :=
  let was := d.fld F.SWC_BUF_FREE_FREE 0
  let free := d.poolFree
  let d := (d.setFld F.SWC_BUF_POOL 0 d.poolSize).setFld F.SWC_BUF_FREE_FREE 0 free
  if was ≠ 0 ∧ free = 0 then (d.setFld F.SWC_STATUS_POOL_EMPTY 0 1).raise 0x0806 [q] else d

/-- A reserve that is above its new size gives its surplus back as its occupancy falls (R123, R125). -/
def Dev.shrinkReserve (d : Dev) (q : Nat) : Dev :=
  let keep := max (d.reserveOf q) (Tbl.getD d.swc.resUsed q 0)
  if keep < d.heldOf q then { d with swc := { d.swc with held := Tbl.set d.swc.held q keep } }.bufSync q else d

/-- Charges `n` cells of input `q` to a part (R124). -/
def Dev.charge (d : Dev) (q part n : Nat) : Dev :=
  let w := d.swc
  let w := if part = 2 then { w with poolUsed := Tbl.set w.poolUsed q (Tbl.getD w.poolUsed q 0 + n) }
    else if part = 3 then { w with ctlUsed := w.ctlUsed + n }
    else { w with resUsed := Tbl.set w.resUsed q (Tbl.getD w.resUsed q 0 + n) }
  (({ d with swc := w }).setFld F.SWC_OCC_CELLS q (d.fld F.SWC_OCC_CELLS q + n)).bufSync q

/-- Ends a charge (R124): the cells are free again, a surplus reserve shrinks, and a fabric input's credits return. -/
def Dev.uncharge (d : Dev) (x : QPkt) : Dev :=
  let n := x.pkt.cells
  let w := d.swc
  let w := if x.part = 2 then { w with poolUsed := Tbl.set w.poolUsed x.inp (Tbl.getD w.poolUsed x.inp 0 - n) }
    else if x.part = 3 then { w with ctlUsed := w.ctlUsed - n }
    else { w with resUsed := Tbl.set w.resUsed x.inp (Tbl.getD w.resUsed x.inp 0 - n) }
  let d := ({ d with swc := w }).setFld F.SWC_OCC_CELLS x.inp (d.fld F.SWC_OCC_CELLS x.inp - n)
  let d := (d.bufSync x.inp).shrinkReserve x.inp
  if x.inp < 128 then d.returnCredit x.inp x.ivc n else d

/-- Claims the fabric reserve of port `p` (R123): a larger sum takes its difference from the pool's free cells, or the
claim fails and the input keeps what it held. -/
def Dev.claimReserve (d : Dev) (p : Nat) : Dev × Bool :=
  let sum := (List.range 12).foldl (fun n v => n + d.fld F.LNK_VC_ALLOC_ALLOC (12 * p + v)) 0
  let held := d.heldOf p
  if sum ≤ held then ((d.setFld F.SWC_FAB_RSV_CELLS p sum).shrinkReserve p, true)
  else if sum - held ≤ d.poolFree then
    ((({ d with swc := { d.swc with held := Tbl.set d.swc.held p sum } }).setFld F.SWC_FAB_RSV_CELLS p sum).bufSync p, true)
  else ((d.setFld F.SWC_STATUS_CLAIM_FAIL 0 1).raise 0x0804 [p], false)

/-- A DISABLED port releases its fabric reserve as its occupancy falls to 0 (R123). -/
def Dev.releaseReserve (d : Dev) (p : Nat) : Dev := (d.setFld F.SWC_FAB_RSV_CELLS p 0).shrinkReserve p

/-! Queue depths. -/

/-- The scheduling class of a packet (Table 04-6). -/
def schedClass (p : Pkt) : Nat :=
  match p.tc with
  | 0 => 0
  | 1 => if p.urg then 2 else 1
  | 2 => 3
  | _ => 4

/-- `SCH_DEPTH` of a class queue rises by `n` cells. -/
def Dev.deepen (d : Dev) (o k n : Nat) : Dev := d.setFld F.SCH_DEPTH_DEPTH (5 * o + k) (d.fld F.SCH_DEPTH_DEPTH (5 * o + k) + n)

/-- `SCH_DEPTH` falls by `n` cells; a weighted class that becomes empty drops its deficit (R131). -/
def Dev.shallow (d : Dev) (o k n : Nat) : Dev :=
  let x := d.fld F.SCH_DEPTH_DEPTH (5 * o + k) - n
  let d := d.setFld F.SCH_DEPTH_DEPTH (5 * o + k) x
  if x = 0 ∧ k < 2 then { d with swc := { d.swc with deficit := Tbl.set d.swc.deficit (2 * o + k) 0 } } else d

/-! Link notices. -/

/-- The requester endpoint of a lost packet and its connection number there (R108); none for a link notice. -/
def noticeTo (p : Pkt) : Option (Nat × Nat) :=
  if p.kind = 0x10 then none
  else if p.kind = 0x11 then some (p.src, 0)
  else if p.kind = 1 ∧ !p.isResp then some (p.src, p.aux.toNat)
  else some (p.dst, p.conn)

/-- The body of a link notice (Table 03-8) for the lost packets of one connection; the flag of each says that it was
voided. -/
def noticeBody (conn dev port reason : Nat) (lost : List (Pkt × Bool)) : List Byte :=
  let mgmt := lost.any fun x => x.1.kind == 0x11
  let tc := (lost.head?.map fun x => x.1.tc).getD 3
  let psn := if mgmt then 0 else lost.foldl (fun m x => min m x.1.psn) 0xFFFFFF
  leBytes 3 conn ++ leBytes 1 (tc + (if mgmt then 64 else 0) + if lost.any (·.2) then 128 else 0) ++ leBytes 3 psn ++
    [0#8] ++ leBytes 4 lost.length ++ leBytes 4 dev ++ leBytes 1 port ++ leBytes 1 reason ++ List.replicate 6 0#8

/-- Sends one link notice for each distinct pair of requester endpoint and connection that is not in `told` (R108); answers their
number. A device whose ID is not valid sends none (R539). -/
def Dev.notify (d : Dev) (port reason : Nat) (told : List (Nat × Nat)) (lost : List (Pkt × Bool)) : Dev × Nat :=
  if d.fld F.RTE_ID_VALID 0 = 0 then (d, 0)
  else
    let keys := (lost.filterMap fun x => noticeTo x.1).eraseDups.filter fun k => !told.contains k
    (keys.foldl (fun d k =>
      let mine := lost.filter fun x => decide (noticeTo x.1 = some k)
      d.send 158 (Pkt.make 0x10 3 (d.ep 31) k.1 0 0 0#64 0
        (noticeBody k.2 (d.fld F.RTE_ID_DEVICE 0) port reason mine) d.tickAux false false false)) d, keys.length)

/-- TC2 and TC3 packets dropped or voided at port `p`: they are counted, their requesters notified once for the link-down event,
and `LNK_DOWN_DROP` raised (R108). DEDUCED, unsafe (assumption 121). -/
def Dev.loseAt (d : Dev) (p : Nat) (lost : List (Pkt × Bool)) : Dev :=
  if lost.isEmpty then d
  else
    let r := d.notify p (d.fld F.PHY_STATUS_REASON p) (d.lnk p).noticed lost
    let keys := lost.filterMap fun x => noticeTo x.1
    let r := (r.1.modLnk p fun l => { l with noticed := (l.noticed ++ keys).eraseDups }, r.2)
    let d := if lost.any (·.2) then r.1.setFld F.LNK_STATUS_VOIDED p 1 else r.1
    ((d.count 1 (11 * p + 8) lost.length).count 1 (11 * p + 10) r.2).raise 0x0703 [p]

/-! Link down. -/

/-- The distinct packets among cells in sending order. -/
def cellPkts (cs : List Cell) : List Cell :=
  (cs.foldl (fun (acc : List Cell) c =>
    match acc with
    | [] => [c]
    | x :: _ => if c.idx = 0 ∨ c.pkt ≠ x.pkt then c :: acc else acc) []).reverse

/-- The packets with cells in the stored frames of a link or still being placed in frames. -/
def LinkPort.framed (l : LinkPort) : List Cell :=
  cellPkts ((l.store.flatMap fun f => f.slotA.toList ++ f.slotB.toList) ++ l.cur)

/-- Removes queued packets that satisfy `bad` from the queue and the staging of output `o`, ending their charges. Staged
packets whose cells have all crossed are charged no more; one that the link has begun to send is in frames, and its other cells
go on crossing. -/
def Dev.purge (d : Dev) (o : Nat) (bad : QPkt → Bool) : Dev × List Pkt :=
  let gone := d.swc.queue.filter fun x => x.out == o && bad x
  let st := Tbl.getD d.swc.stage o []
  let bad' := fun (x : StPkt) => !x.started && bad x.q
  let sGone := st.filter bad'
  let d := { d with swc := { d.swc with
              queue := d.swc.queue.filter (fun x => !(x.out == o && bad x))
              stage := Tbl.set d.swc.stage o (st.filter fun x => !bad' x)
              holds := if sGone.any (fun x => decide (x.arrived < x.q.pkt.cells)) then
                  d.swc.holds.filter (fun h => h.out != o) else d.swc.holds } }
  let d := gone.foldl (fun d x => (d.shallow o x.cls x.pkt.cells).uncharge x) d
  let d := sGone.foldl (fun d x => if x.arrived < x.q.pkt.cells then d.uncharge x.q else d) d
  (d, sGone.map (·.q.pkt) ++ gone.map (·.pkt))

/-- Whether output `o` holds TC0 or TC1 packets: queued, staged, or in frames. -/
def Dev.holdsTraffic (d : Dev) (p : Nat) : Bool :=
  d.swc.queue.any (fun x => x.out == p && decide (x.pkt.tc < 2)) ||
    (Tbl.getD d.swc.stage p []).any (fun x => decide (x.q.pkt.tc < 2)) ||
    (d.lnk p).framed.any (fun c => decide (c.pkt.tc < 2))

/-- Marks a TC2 or TC3 cell as voided; direct packets are never voided (R539). -/
def Cell.markVoid (c : Cell) : Cell := { c with voided := c.voided || (!c.direct && decide (2 ≤ c.pkt.tc)) }

/-- A link-down event at port `p` (R107, R108, R539): TC0 and TC1 are held, TC2 and TC3 are dropped or voided and their
requesters notified, and unsent direct packets are discarded. -/
def Dev.linkDown (d : Dev) (p : Nat) : Dev :=
  let d := { d with col := { d.col with downs := d.col.downs ++ [p] } }
  let voided := (d.lnk p).framed.filter fun c => !c.direct && !c.voided && decide (2 ≤ c.pkt.tc)
  let r := d.purge p fun x => decide (2 ≤ x.pkt.tc)
  let digests := ((d.lnk p).direct.filter fun x => x.subkind == 1).length
  let d := (r.1.count 3 7 digests).modLnk p fun l => { l with noticed := [] }
  let d := d.loseAt p (r.2.map (fun x => (x, false)) ++ voided.map fun c => (c.pkt, true))
  let d := d.modLnk p fun l =>
    { l with store := l.store.map fun f => { f with slotA := f.slotA.map Cell.markVoid, slotB := f.slotB.map Cell.markVoid }
             cur := l.cur.map Cell.markVoid
             direct := [], replay := none, havePeer := false, sendInit := false, claimed := false, bcHalf := none,
             fetching := false, fetched := false }
  let d := ((d.setFld F.LNK_STATUS_STATE p 0).setFld F.LNK_STATUS_REPLAYING p 0)
  d.setFld F.LNK_STATUS_HELD p (if d.holdsTraffic p then 1 else 0)

/-- Discards the stored frames and the held TC0 and TC1 packets of port `p`, and counts those packets (Table 03-6,
R109). -/
def Dev.discardHeld (d : Dev) (p : Nat) (queued : Bool) : Dev :=
  let framed := ((d.lnk p).framed.filter fun c => decide (c.pkt.tc < 2)).length
  let r := if queued then d.purge p (fun x => decide (x.pkt.tc < 2)) else (d, [])
  let d := r.1.modLnk p fun l => { l with store := [], cur := [], replay := none, replays := 0, lastSent := none,
                                          fetching := false, fetched := false }
  let d := d.setReg .LNK_STORE p 0#32
  let d := (d.setFld F.LNK_STATUS_HELD p 0).setFld F.LNK_STATUS_REPLAYING p 0
  d.count 1 (11 * p + 9) (framed + r.2.length)

/-- Queues a direct packet at a port whose link is ACTIVE (R152). -/
def Dev.sendDirect (d : Dev) (p : Nat) (x : Pkt) : Dev :=
  if d.linkState p = 2 then d.modLnk p fun l => { l with direct := l.direct ++ [x] } else d

end Sys2Proof.Machine
end

