-- ==== Sys2Proof/Machine/Route.lean ====
section
/-!
DEFINITION. Routing (R143 to R168): the route tables, the live mask, digests and the choice of an output.
-/

namespace Sys2Proof.Machine

/-! Tables (R148). -/

/-- A word of the active bank by its byte offset from 0x00B0_0000. Set 0 reads 0. -/
def Dev.rteWord (d : Dev) (off : Nat) : Word := Tbl.getD d.rte.active (off / 4) 0#32

/-- The candidate ports of set `s` that are live. -/
def Dev.candidates (d : Dev) (s : Nat) : List Nat :=
  if s = 0 then []
  else (List.range 128).filter fun p =>
    (d.rteWord (0x10000 + 16 * s + 4 * (p / 32))).getLsbD (p % 32) && (d.rd .RTE_LIVE (p / 32)).getLsbD (p % 32)

/-- A device ID's route entry (R149): the group table in a dragonfly for another group, else the device table. -/
def Dev.routeEntry (d : Dev) (dev : Nat) : Word :=
  let lb := d.fld F.RTE_CFG_LBITS 0
  let lb := if lb < 4 ∨ 6 < lb then 6 else lb
  let own := d.fld F.RTE_ID_DEVICE 0
  if d.fld F.RTE_CFG_TOPO 0 = 1 ∧ dev / 2 ^ lb ≠ own / 2 ^ lb then d.rteWord (0x20000 + 4 * (dev / 2 ^ lb))
  else d.rteWord (0x80000 + 4 * dev)

/-! Costs and keys (R151 to R155). -/

/-- The remote level of port `p` for group `k`: 15 without a digest, or with one built more than 8 ticks ago (R154). -/
def Dev.remoteLevel (d : Dev) (p k : Nat) : Nat :=
  match Tbl.get d.rte.installed p with
  | none => 15
  | some built =>
    let age := (d.clk.tick.toNat + 2 ^ 32 - built) % 2 ^ 32
    if 8 < age then 15
    else
      let w := if k < 8 then d.rd .RTE_DIGEST_IN_LO p else d.rd .RTE_DIGEST_IN_HI p
      w.toNat / 2 ^ (4 * (k % 8)) % 16

/-- The cost Q of a candidate port (R155). -/
def Dev.cost (d : Dev) (k p : Nat) : Nat := Tbl.getD d.rte.level p 0 + d.remoteLevel p k

/-- The key of a packet at port `p` (Table 05-7). -/
def routeKey (x : Pkt) (fixed : Bool) (tick p : Nat) : Nat :=
  (crc32c (leBytes 3 x.src ++ leBytes 3 x.dst ++ leBytes 3 x.conn ++ leBytes 3 (if fixed then 0 else x.psn) ++
    leBytes 1 p ++ leBytes 2 (if fixed then 0 else tick) ++ [0#8])).toNat

/-- The port with the largest key; ties go to the lower number (R155). -/
def pickByKey (key : Nat → Nat) (ps : List Nat) : Option Nat :=
  ps.foldl (fun best p => match best with
    | none => some p
    | some b => if key b < key p then some p else some b) none

/-- The lowest cost in a set. -/
def lowest (f : Nat → Nat) (ps : List Nat) : Nat := ps.foldl (fun m p => min m (f p)) 30

/-- The internal port of endpoint `e` (Table 05-21). -/
def Dev.epPort (d : Dev) (e : Nat) : Option Nat :=
  let q := d.fld F.RTE_EP_PORT e
  if 128 ≤ q ∧ q < 160 ∧ d.part.hasPort q then some q else none

/-- The choice of R156 and R157 between the live minimal and non-minimal candidates: the port, and whether it is a
non-minimal one. DEDUCED, unsafe (assumption 54). -/
def Dev.choose (d : Dev) (x : Pkt) (e : Word) (choicePoint : Bool) : Option (Nat × Bool) :=
  let fixed := x.pin || !(d.fld F.RTE_CFG_ADAPT_TC 0).testBit x.tc
  let m := d.candidates (e.toNat % 2048)
  let n := if choicePoint && !fixed then d.candidates (e.toNat / 2 ^ 11 % 2048) else []
  let key := routeKey x fixed d.clk.tick.toNat
  let qm := d.cost (e.toNat / 2 ^ 27 % 16)
  let qn := d.cost (e.toNat / 2 ^ 23 % 16)
  if fixed then (pickByKey key m).map fun p => (p, false)
  else
    let useN := !n.isEmpty && (m.isEmpty ||
      decide (lowest qn n * d.fld F.RTE_BIAS_W_NMIN 0 + d.fld F.RTE_BIAS_BIAS 0 < lowest qm m * d.fld F.RTE_BIAS_W_MIN 0))
    if useN then (pickByKey key (n.filter fun p => qn p == lowest qn n)).map fun p => (p, true)
    else (pickByKey key (m.filter fun p => qm p == lowest qm m)).map fun p => (p, false)

/-- Route choice for a packet that came in at `inp` on incoming routing VC `rvc` (R146, R149, R157). -/
def Dev.route (d : Dev) (x : Pkt) (inp rvc : Nat) : Route :=
  let dev := devOf x.dst
  if d.fld F.RTE_ID_VALID 0 = 0 then .none
  else if dev = d.fld F.RTE_ID_DEVICE 0 then
    match d.epPort (x.dst % 32) with
    | some q => .deliver q
    | none => .none
  else
    let e := d.routeEntry dev
    if !e.getLsbD 31 || e.toNat % 2048 == 0 then .none
    else
      match d.fld F.RTE_CFG_TOPO 0 with
      | 1 =>
        let v := rvc + if inp < 128 ∧ d.fld F.RTE_PORT_KIND inp = 1 then 1 else 0
        match d.choose x e (!x.nmin && v == 0) with
        | none => .none
        | some (p, n) => if 2 < v then .limit else .out p v n
      | 2 =>
        match d.choose x e (decide (rvc < 2)) with
        | none => .none
        | some (p, n) =>
          let v := rvc + if n then 1 else 0
          if 2 < v then .limit else .out p v n
      | _ =>
        match d.choose x e false with
        | none => .none
        | some (p, _) => .out p 0 false

/-- Marks a packet with the routing VC and NMIN of its hop (R114). -/
def setHop (x : Pkt) (rvc : Nat) (nmin : Bool) : Pkt :=
  { x with h0 := putBits (if nmin then putBits x.h0 55 1 1 else x.h0) 58 2 rvc }

/-! The live mask (R150). -/

/-- Bit `p` of the live mask. -/
def Dev.isLive (d : Dev) (p : Nat) : Bool := (d.rd .RTE_LIVE (p / 32)).getLsbD (p % 32)

/-- Sets bit `p` of the live mask. -/
def Dev.setLive (d : Dev) (p : Nat) (on : Bool) : Dev :=
  let w := d.rd .RTE_LIVE (p / 32)
  let b := BitVec.ofNat 32 (2 ^ (p % 32))
  d.setReg .RTE_LIVE (p / 32) (if on then w ||| b else w &&& ~~~b)

/-- Whether a port's state lets it be live: ACTIVE or QUICKSET, and not administratively out. DESIGN CHOICE, safe (assumption
56). DESIGN CHOICE, safe (assumption 56). -/
def Dev.mayLive (d : Dev) (p : Nat) : Bool :=
  (d.fld F.PHY_STATUS_STATE p == 4 || d.fld F.PHY_STATUS_STATE p == 5) &&
    !(d.rd .RTE_ADMIN_OUT (p / 32)).getLsbD (p % 32)

/-- The rebuild of the live mask at an edge (R150): ports that may no longer be live are removed, ports never removed
since reset come in. A removed port comes in again by RTE_PORT_IN. -/
def Dev.rebuildLive (d : Dev) : Dev :=
  (List.range 128).foldl (fun d p =>
    if d.isLive p && !d.mayLive p then
      -- A port that stays up is removed by `RTE_ADMIN_OUT`: its hold-down counts from this edge.
      let up := (Tbl.get d.rte.upAt p).isSome
      let d := { d with rte := { d.rte with
                  removed := d.rte.removed.filter (· != p) ++ [p],
                  upAt := if up then Tbl.set d.rte.upAt p (d.clk.edges - 1) else d.rte.upAt } }
      (d.setLive p false).raise 0x0A07 [p]
    else if !d.isLive p && d.mayLive p && !d.rte.removed.contains p then d.setLive p true
    else d) d

/-- Whether a removed port has been ACTIVE or QUICKSET for HOLDDOWN whole ticks since it was removed and came up (R150). -/
def Dev.heldDown (d : Dev) (p : Nat) : Bool :=
  match Tbl.get d.rte.upAt p with
  | some e => decide (e + d.fld F.RTE_CFG_HOLDDOWN 0 + 1 ≤ d.clk.edges)
  | none => false

/-! Digests (R151 to R154). -/

/-- The 64-bit digest of the local levels: each group's highest level among its live ports, 15 with none (R151). -/
def Dev.buildDigest (d : Dev) : Nat :=
  (List.range 16).foldl (fun n k =>
    let ps := (List.range 128).filter fun p => d.isLive p && d.fld F.RTE_PORT_PGROUP p == k
    let lv := if ps.isEmpty then 15 else ps.foldl (fun m p => max m (Tbl.getD d.rte.level p 0)) 0
    n + lv * 2 ^ (4 * k)) 0

/-- The local levels latched at an edge (R151): the depths of classes 0 to 3, scaled. -/
def Dev.latchLevels (d : Dev) : Dev :=
  let q := d.fld F.RTE_CFG_QSHIFT 0
  { d with rte := { d.rte with level := (List.range 128).map fun p =>
      (p, min 15 (((List.range 4).foldl (fun n k => n + d.fld F.SCH_DEPTH_DEPTH (5 * p + k)) 0) / 2 ^ q)) } }

/-- The digest packet of R152 for a digest and its build tick. -/
def Dev.digestPkt (d : Dev) (dig : BitVec 64) (built : Nat) : Pkt :=
  Pkt.make 0x11 3 (d.ep 31) 0 0 0 dig (2 ^ 40 + 2 ^ 39 + built % 2 ^ 32) [] d.tickAux false false false

/-- Sends the latest complete digest on every port whose link is ACTIVE, or skips it for lack of credit (R153). -/
def Dev.sendDigests (d : Dev) : Dev :=
  match d.rte.built with
  | none => d
  | some (dig, built) =>
    (List.range 128).foldl (fun d p =>
      if d.linkState p ≠ 2 then d
      else if 1 ≤ d.avail p 9 - ((d.lnk p).direct.map Pkt.cells).sum then d.sendDirect p (d.digestPkt dig built)
      else d.count 3 7) d

/-- Installs the kept digest of every port (R154); one built more than 8 ticks ago counts as stale. -/
def Dev.installDigests (d : Dev) : Dev :=
  d.rte.kept.foldl (fun (d : Dev) (e : Nat × BitVec 64 × Nat) =>
    let p := e.1
    let dig := e.2.1
    let d := (d.setReg .RTE_DIGEST_IN_LO p (dig.setWidth 32)).setReg .RTE_DIGEST_IN_HI p ((dig >>> 32).setWidth 32)
    let d := { d with rte := { d.rte with installed := Tbl.set d.rte.installed p e.2.2 } }
    if 8 < (d.clk.tick.toNat + 2 ^ 32 - e.2.2) % 2 ^ 32 then d.count 3 6 else d) { d with rte := { d.rte with kept := [] } }

/-- The digest of the tick at hand, with its build tick. -/
def Dev.digestNow (d : Dev) : BitVec 64 × Nat := (BitVec.ofNat 64 d.buildDigest, d.clk.tick.toNat % 2 ^ 32)

/-- The tick work of unit 0: a digest that the tick before left over is completed, and the tick's own is built; where `late`, it is
left over (R30, R31). -/
def Dev.buildAt (d : Dev) (late : Bool) : Dev :=
  let done := match d.clk.late.digest with
    | some x => some x
    | none => d.rte.built
  { d with rte := { d.rte with built := if late then done else some d.digestNow },
           clk := { d.clk with late := { d.clk.late with digest := if late then some d.digestNow else none } } }

/-- A port that comes in at the edge counts in the digest of the tick that the edge opens (R151). -/
def Dev.rebuildDigest (d : Dev) : Dev :=
  let fresh := fun (x : Option (BitVec 64 × Nat)) => x.map fun y => if y.2 = d.clk.tick.toNat % 2 ^ 32 then d.digestNow else y
  { d with rte := { d.rte with built := fresh d.rte.built },
           clk := { d.clk with late := { d.clk.late with digest := fresh d.clk.late.digest } } }

/-- RTE_PORT_IN: a removed port has been ACTIVE for HOLDDOWN ticks and re-enters the candidate sets (R150).
DEDUCED, unsafe (assumption 52). -/
def execRtePortIn (p : Port) (s : State) : Host.Outcome State Fault Refusal :=
  s.run fun d =>
    if d.rte.removed.contains p.val && d.mayLive p.val && d.heldDown p.val then
      let d := { d with rte := { d.rte with removed := d.rte.removed.filter (· != p.val) } }
      ((d.setLive p.val true).rebuildDigest).raise 0x0A08 [p.val]
    else d

/-- Takes the first packet that satisfies `ok` out of the direct packets a port has consumed. -/
def Dev.takeInbox (d : Dev) (p : Nat) (ok : Pkt → Bool) : Option (Pkt × Dev) :=
  match (d.lnk p).inbox.find? ok with
  | none => none
  | some x => some (x, d.modLnk p fun l => { l with inbox := l.inbox.erase x })

/-- DIGEST_RECEIVED: a consumed digest is kept for the next edge; of several the latest build tick is kept (R154). -/
def execDigestReceived (p : Port) (s : State) : Host.Outcome State Fault Refusal :=
  s.run fun d =>
    match d.takeInbox p.val (fun x => x.subkind == 1) with
    | none => d
    | some (x, d) =>
      let built := bits x.h3 0 32
      let newer := match Tbl.get d.rte.kept p.val with
        | none => true
        | some (_, b) => decide ((built + 2 ^ 32 - b) % 2 ^ 32 < 2 ^ 31)
      let d := d.count 3 5
      if newer then { d with rte := { d.rte with kept := Tbl.set d.rte.kept p.val (x.h2, built) } } else d

/-! Table commits (R164, R165). -/

/-- Whether the staged bank accepts no write: PENDING or COPYING (R165). -/
def Dev.bankBusy (d : Dev) : Bool := d.flag F.RTE_TBL_STATUS_PENDING 0 || d.flag F.RTE_TBL_STATUS_COPYING 0

/-- Accepts a commit of the staged bank with a version and an activation tick. A tick that is not later than the present
one is LATE (R164). DEDUCED, unsafe (assumption 51). -/
def Dev.commitBank (d : Dev) (version : Nat) (t : Tick) : Dev :=
  let at_ := if t.toNat ≤ d.clk.tick.toNat then d.clk.tick + 1#64 else t
  let d := { d with rte := { d.rte with commit := some (at_, version) } }
  let d := d.setFld F.RTE_TBL_STATUS_PENDING 0 1
  if t.toNat ≤ d.clk.tick.toNat then (d.setFld F.RTE_TBL_STATUS_LATE 0 1).raise 0x0A04 [version] else d

/-- Cancels a pending commit (R165). -/
def Dev.abortCommit (d : Dev) : Dev :=
  ({ d with rte := { d.rte with commit := none } }).setFld F.RTE_TBL_STATUS_PENDING 0 0

/-- A write of `RTE_TBL_CTRL` at L0 (R164, R165). -/
def Dev.tblCtrlWrite (d : Dev) (src : Src) (v : Word) : Dev :=
  if d.level src ≠ 0 then d
  else
    let d := d.setFld F.RTE_TBL_CTRL_VERSION 0 (F.RTE_TBL_CTRL_VERSION.ofWord v)
    let d := if v.getLsbD 30 && d.flag F.RTE_TBL_STATUS_PENDING 0 then d.abortCommit else d
    if !v.getLsbD 31 then d
    else if d.flag F.RTE_TBL_STATUS_PENDING 0 then d.stateWrite src.fn 0xB00014
    else d.commitBank (F.RTE_TBL_CTRL_VERSION.ofWord v) (d.rd .RTE_ACT_HI 0 ++ d.rd .RTE_ACT_LO 0)

/-- RTE_TBL_COMMIT: a write of COMMIT (R164). -/
def execRteTblCommit (src : Src) (version : BitVec 16) (s : State) : Host.Outcome State Fault Refusal :=
  s.run (·.tblCtrlWrite src (0x8000#16 ++ version))

/-- RTE_TBL_ABORT: a write of ABORT (R165). -/
def execRteTblAbort (src : Src) (s : State) : Host.Outcome State Fault Refusal :=
  s.run fun d => d.tblCtrlWrite src (0x40000000#32 ||| d.rd .RTE_TBL_CTRL 0)

/-- RTE_TBL_SWAP: at the edge that opens the activation tick, or the next edge where that has passed, the banks swap
(R164). -/
def execRteTblSwap (s : State) : Host.Outcome State Fault Refusal :=
  s.run fun d =>
    match d.rte.commit with
    | none => d
    | some (t, v) =>
      if d.clk.tick.toNat < t.toNat then d
      else
        let d := { d with rte := { d.rte with active := d.rte.staged, staged := d.rte.staged, before := d.rte.active,
                                              commit := none } }
        let d := (d.setFld F.RTE_TBL_STATUS_ACTIVE_VER 0 v).setFld F.RTE_TBL_STATUS_PENDING 0 0
        let d := (d.setFld F.RTE_TBL_STATUS_COPYING 0 1).setFld F.RTE_TBL_STATUS_EMPTY 0 0
        d.raise 0x0A03 [v]

/-- STAGED_BANK_COPY_DONE: the staged bank equals the active bank, and COPYING clears (R164). -/
def execStagedBankCopyDone (s : State) : Host.Outcome State Fault Refusal :=
  s.run fun d =>
    if d.flag F.RTE_TBL_STATUS_COPYING 0 then
      ({ d with rte := { d.rte with staged := d.rte.active, before := [] } }).setFld F.RTE_TBL_STATUS_COPYING 0 0
    else d

/-- A write of a word of the staged bank at L0 (R148, R165); bit 22 of a route entry is 0 (Table 05-5). -/
def Dev.writeBank (d : Dev) (src : Src) (off : Nat) (v : Word) : Dev :=
  if d.level src ≠ 0 then d
  else if d.bankBusy then d.stateWrite src.fn (0xB00000 + off)
  else if 0x10000 ≤ off ∧ off < 0x10010 then d
  else
    let v := if 0x20000 ≤ off then v &&& 0xFFBFFFFF#32 else v
    { d with rte := { d.rte with staged := Tbl.set d.rte.staged (off / 4) v } }

end Sys2Proof.Machine
end

