-- ==== Sys2Proof/Machine/Switch.lean ====
section
/-!
DEFINITION. The switch core and the output scheduler (R117 to R142): acceptance, queues, matching, marking and sampling.
-/

namespace Sys2Proof.Machine

/-! Acceptance (R118 to R121). -/

/-- The packet whose bytes are given (R112, Tables 04-1 and 04-3). -/
def parsePkt (bs : List Byte) : Pkt :=
  let word := fun k => BitVec.ofNat 64 (leNat ((bs.drop (8 * k)).take 8))
  let len := bits (word 1) 52 12
  let t := bs.drop (32 + padLen len)
  let pad := (bs.drop (32 + len)).take (padLen len - len)
  { h0 := word 0, h1 := word 1, h2 := word 2, h3 := word 3, data := (bs.drop 32).take len,
    e2e := BitVec.ofNat 32 (leNat (t.take 4)), aux := BitVec.ofNat 24 (leNat ((t.drop 4).take 3)),
    tflags := (t.drop 7).headD 0#8, pad := if pad.all (· == 0#8) then [] else pad }

/-- Checks 1 to 4 of Table 04-5 on a first cell. -/
def framingOk (x : Pkt) (slot : List Byte) : Bool :=
  x.ver == 1 && x.hcrc == (crc16 (slot.take 30)).toNat && decide (x.rvc ≤ 2) && decide (x.len ≤ 2048)

/-- Whether a kind is assigned and its class permitted (Table 04-2). -/
def kindOk (kind tc : Nat) : Bool :=
  match kind with
  | 1 | 2 | 3 => true
  | 8 | 9 | 10 => tc == 1
  | 0x10 | 0x11 => tc == 3
  | _ => false

/-- The highest HOPS (Table 04-10): values below 4 act as 4. -/
def Dev.hopMax (d : Dev) : Nat := max 4 (d.fld F.SWC_CFG_HOP_MAX 0)

/-- Whether a slot is idle (R79). -/
def idleSlot (bs : List Byte) : Bool := bs.all (· == 0#8)

/-- Where a packet goes by the tables now in force. A collective packet takes no route choice: it goes to its unit, or to the tree
port `via` that it is sent on (R301); a device whose ID is not valid carries only direct packets (R144). -/
def Dev.routeOf (d : Dev) (x : Pkt) (via : Option Nat) (inp rvc : Nat) : Route :=
  let col := x.kind == 8 || x.kind == 9 || x.kind == 0xA
  match via with
  | some p => if d.flag F.RTE_ID_VALID 0 then .out p 0 false else .none
  | none =>
    if col && decide (inp < 128) then
      (if d.flag F.RTE_ID_VALID 0 then .deliver (if x.kind = 0xA then 159 else 152 + x.psn % 4) else .none)
    else d.route x inp rvc

/-- The first cell of a packet whose framing is good: the packet is gathered, the content checks are noted, and so is the route
that the tables of the tick give it (R34). -/
def Dev.beginPacket (d : Dev) (p : Nat) (x : Pkt) (slot : List Byte) : Dev :=
  let bad := if !kindOk x.kind x.tc then 1 else if d.hopMax < x.hops + 1 then 2 else 0
  let n := (40 + padLen x.len + 255) / 256
  let t := d.clk.tick.toNat
  let r := d.routeOf { x with h0 := putBits x.h0 50 5 (x.hops + 1) } none p x.rvc
  let d := d.modLnk p fun l =>
    { l with cells := [slot], need := n, bad := bad, resync := false, hdrTick := t, hdrRoute := r }
  (d.charge p 0 n).setOcc p x.vc (d.occ p x.vc + 1)

/-- The virtual channel of the packet being gathered. -/
def Dev.rxVc (d : Dev) (p : Nat) : Nat := (parsePkt ((d.lnk p).cells.headD [])).vc

/-- Moves the waiting slots that belong to the packet at hand into it. -/
def Dev.gather (d : Dev) (p : Nat) : Dev :=
  let l := d.lnk p
  let k := min (l.need - l.cells.length) l.slots.length
  let v := d.rxVc p
  (d.modLnk p fun l => { l with cells := l.cells ++ l.slots.take k, slots := l.slots.drop k }).setOcc p v (d.occ p v + k)

/-- Seeks the next packet among the waiting slots: idle slots pass and end a resynchronisation; a first cell that fails a
framing check is discarded with the slots after it (R119). -/
def Dev.seekHeader : List (List Byte) → Dev → Nat → Dev
  | [], d, p => d.modLnk p fun l => { l with slots := [] }
  | s :: rest, d, p =>
    if idleSlot s then Dev.seekHeader rest (d.modLnk p fun l => { l with resync := false }) p
    else
      let x := parsePkt s
      if framingOk x s then
        ((d.modLnk p fun l => { l with slots := rest }).beginPacket p x s).gather p
      else if (d.lnk p).resync then Dev.seekHeader rest d p
      else
        let d := d.modLnk p fun l => { l with resync := true }
        Dev.seekHeader rest ((d.count 2 (7 * p + 2)).raise 0x0801 [p]).fault1 p

/-- PACKET_HEADER_ACCEPT: the acceptance checks of the next first cell (Table 04-5). -/
def execPacketHeaderAccept (p : Port) (s : State) : Host.Outcome State Fault Refusal :=
  s.run fun d => if (d.lnk p.val).cells.isEmpty then Dev.seekHeader (d.lnk p.val).slots d p.val else d

/-- The content failure of a packet at input `q`: counted and raised, its buffer freed (R120, R121). -/
def Dev.contentFail (d : Dev) (q bad : Nat) : Dev :=
  (if bad = 2 then (d.count 2 (7 * q + 4)).raise 0x0803 [q] else (d.count 2 (7 * q + 3)).raise 0x0802 [q]).fault1

/-- A packet has no route: TC2 and TC3 cause a link notice, and the buffer is freed (R159). -/
def Dev.unrouted (d : Dev) (x : QPkt) : Dev :=
  let d := d.uncharge x
  if 2 ≤ x.pkt.tc then (d.notify 0xFF 0 [] [(x.pkt, false)]).1 else d

/-- Puts a routed packet in its virtual output queue (R126). A TC2 or TC3 packet for a port that is down is dropped at once,
and a TC0 or TC1 packet is held (R107, R108). -/
def Dev.enqueue (d : Dev) (x : QPkt) : Dev :=
  if x.out < 128 ∧ d.linkState x.out = 0 ∧ 2 ≤ x.pkt.tc then (d.uncharge x).loseAt x.out [(x.pkt, false)]
  else
    let d := { d with swc := { d.swc with queue := d.swc.queue ++ [x] } }
    let d := d.deepen x.out x.cls x.pkt.cells
    if x.out < 128 ∧ d.linkState x.out = 0 then d.setFld F.LNK_STATUS_HELD x.out 1 else d

/-- An accepted packet joins the queue of the output that its route gives, at its enqueue time (R126, R157, R159). -/
def Dev.letIn (d : Dev) (x : Pkt) (r : Route) (inp part ivc cyc tick : Nat) : Dev :=
  let q : QPkt := { pkt := x, inp := inp, out := 0, cls := schedClass x, enq := d.cycles cyc, part := part,
                    ivc := ivc, tick := tick }
  let col := x.kind == 8 || x.kind == 9 || x.kind == 0xA
  match r with
  | .none => ((d.count 3 2).raise 0x0A01 [inp]).unrouted q
  | .limit => ((d.count 3 3).raise 0x0A02 [inp]).unrouted q
  | .deliver o => d.enqueue { q with out := o }
  | .out p v nmin =>
    let d := if col then d else d.count 3 (if nmin then 1 else 0)
    d.enqueue { q with out := p, pkt := setHop x v nmin }

/-- PACKET_ACCEPTED: the last cell of a packet is here (R118, R120, R126, R154). -/
def execPacketAccepted (p : Port) (cyc : Fin 1025) (s : State) : Host.Outcome State Fault Refusal :=
  s.run fun d =>
    let l := d.lnk p.val
    if l.need = 0 ∨ l.cells.length < l.need then d
    else
      let x := parsePkt l.cells.flatten
      let free : QPkt := { pkt := x, inp := p.val, out := 0, cls := 0, enq := 0, part := 0, ivc := x.vc, tick := 0 }
      let d := d.modLnk p.val fun l => { l with cells := [], need := 0, bad := 0 }
      if l.bad ≠ 0 then (d.contentFail p.val l.bad).uncharge free
      else
        let d := (d.count 2 (7 * p.val)).count 2 (7 * p.val + 1) l.need
        if x.isDirect then (d.modLnk p.val fun l => { l with inbox := l.inbox ++ [x] }).uncharge free
        else d.letIn { x with h0 := putBits x.h0 50 5 (x.hops + 1) } l.hdrRoute p.val 0 x.vc cyc.val l.hdrTick

/-- The buffer part with room for a packet of an internal input (R124). -/
def Dev.partFor (d : Dev) (q : Nat) (x : Pkt) : Option Nat :=
  let n := x.cells
  if x.tc = 3 ∧ d.swc.ctlUsed + n ≤ 4096 then some 3
  else if Tbl.getD d.swc.resUsed q 0 + n ≤ d.reserveOf q then some 1
  else if Tbl.getD d.swc.poolUsed q 0 + n ≤ 64 * d.fld F.SWC_RSV_POOL_MAX (q - 128) ∧ n ≤ d.poolFree then some 2
  else none

/-- INTERNAL_PACKET_INJECT: the packet at the head of an internal input enters once a permitted buffer part has room
(R121, R124). -/
def execInternalPacketInject (q : Fin 32) (cyc : Fin 1025) (s : State) : Host.Outcome State Fault Refusal :=
  s.run fun d =>
    let i := 128 + q.val
    match Tbl.getD d.inj i [] with
    | [] => d
    | (x, via) :: rest =>
      if d.halted || !d.part.hasPort i then d
      else if !kindOk x.kind x.tc then { d with inj := Tbl.set d.inj i rest }.contentFail i 1
      else if d.hopMax < x.hops + 1 then { d with inj := Tbl.set d.inj i rest }.contentFail i 2
      else
        match d.partFor i x with
        | none => d
        | some part =>
          let d := ({ d with inj := Tbl.set d.inj i rest }).charge i part x.cells
          let d := (d.count 2 (7 * i)).count 2 (7 * i + 1) x.cells
          d.letIn x (d.routeOf x via i 0) i part 0 cyc.val d.clk.tick.toNat

/-! Shapers and deficits (R131 to R133). -/

/-- The signed token count of class `k` at output `o` (Table 04-18). -/
def Dev.tokens (d : Dev) (o k : Nat) : Int :=
  let x := d.fld F.SCH_TOKENS_TOKENS (5 * o + k)
  if x < 2 ^ 23 then x else (x : Int) - 2 ^ 24

/-- Stores a token count. -/
def Dev.setTokens (d : Dev) (o k : Nat) (x : Int) : Dev := d.setFld F.SCH_TOKENS_TOKENS (5 * o + k) ((x % 2 ^ 24).toNat)

/-- The bucket size in bytes: a BURST below 9 acts as 9 (R132). -/
def Dev.bucketSize (d : Dev) (o k : Nat) : Nat := 256 * max 9 (d.fld F.SCH_SHAPE_BURST (5 * o + k))

/-- Whether the shaper of a class is enabled. -/
def Dev.shaped (d : Dev) (o k : Nat) : Bool := d.flag F.SCH_SHAPE_EN (5 * o + k)

/-- One refill (R132); a disabled shaper reads its full count. -/
def Dev.refill (d : Dev) (o k : Nat) : Dev :=
  let full : Int := d.bucketSize o k
  if d.shaped o k then d.setTokens o k (min (d.tokens o k + 16 * d.fld F.SCH_SHAPE_RATE (5 * o + k)) full)
  else if d.tokens o k = full then d else d.setTokens o k full

/-- An applied write of `SCH_SHAPE` sets the count to full or to 0 (R133). -/
def Dev.shapeApplied (d : Dev) (i : Nat) (v : Word) : Dev :=
  d.setTokens (i / 5) (i % 5)
    (if v.getLsbD 30 || !d.shaped (i / 5) (i % 5) then d.bucketSize (i / 5) (i % 5) else 0)

/-- The quantum of a weighted class: a weight of 0 acts as 1 (R131). -/
def Dev.quantum (d : Dev) (o c : Nat) : Int :=
  256 * max 1 (if c = 0 then d.fld F.SCH_CLASS_W_TC0 o else d.fld F.SCH_CLASS_W_TC1 o)

/-- The deficit of a weighted class. -/
def Dev.deficit (d : Dev) (o c : Nat) : Int := Tbl.getD d.swc.deficit (2 * o + c) 0

/-- Stores a deficit. -/
def Dev.setDeficit (d : Dev) (o c : Nat) (x : Int) : Dev :=
  { d with swc := { d.swc with deficit := Tbl.set d.swc.deficit (2 * o + c) x } }

/-- Gives a weighted class the turn, with its quantum (R131). -/
def Dev.giveTurn (d : Dev) (o c : Nat) : Dev :=
  ({ d with swc := { d.swc with turn := Tbl.set d.swc.turn o c } }).setDeficit o c (d.deficit o c + d.quantum o c)

/-- The deficit rule of R131 for a dequeue of `n` cells of weighted class `c`. -/
def Dev.chargeDeficit (d : Dev) (o c n : Nat) : Dev :=
  let d := if Tbl.getD d.swc.turn o 0 ≠ c then d.giveTurn o c else d
  let d := d.setDeficit o c (d.deficit o c - 256 * n)
  if d.deficit o c ≤ 0 then d.giveTurn o (1 - c) else d

/-! Matching (R127 to R130). -/

/-- The classes that make up the TC queue of a traffic class (R126). -/
def tcClasses (tc : Nat) : List Nat := if tc = 1 then [1, 2] else if tc = 0 then [0] else [tc + 1]

/-- The packets in an output's staging that the link has not begun to send. -/
def Dev.waiting (d : Dev) (o : Nat) : List StPkt := (Tbl.getD d.swc.stage o []).filter fun x => !x.started

/-- Cells that an output's staging holds: those matched to it and, at a fabric output, those not yet in frames. -/
def Dev.staged (d : Dev) (o : Nat) : Nat :=
  ((d.waiting o).map fun x => x.q.pkt.cells).sum +
    (if o < 128 then ((d.lnk o).cur.filter fun c => !c.direct).length else 0)

/-- Whether a packet at the head of its queue is ready (R127, R535). -/
def Dev.ready (d : Dev) (x : QPkt) : Bool :=
  let n := x.pkt.cells
  let room := decide (d.staged x.out + n ≤ 18)
  let shaped := !d.shaped x.out x.cls || decide (0 < d.tokens x.out x.cls)
  let credit :=
    if x.out < 128 then
      let v := x.pkt.vc
      let taken := ((d.waiting x.out).map fun y => if y.q.pkt.vc = v then y.q.pkt.cells else 0).sum
      d.linkState x.out == 2 && decide ((n : Int) ≤ d.avail x.out v - taken)
    else true
  room && shaped && credit

/-- The packets at the heads of the virtual output queues, in queue order (R126). -/
def heads (q : List QPkt) : List QPkt :=
  q.foldl (fun acc x =>
    if acc.any (fun y => y.inp == x.inp && y.out == x.out && y.cls == x.cls && y.pkt.rvc == x.pkt.rvc) then acc
    else acc ++ [x]) []

/-- The oldest packet of a list; of equally old ones the first. -/
def oldest (xs : List QPkt) : Option QPkt :=
  xs.foldl (fun b x => match b with
    | none => some x
    | some y => if x.enq < y.enq then some x else some y) none

/-- The classes of an output in rank order (R131). -/
def Dev.classRank (d : Dev) (o : Nat) : List Nat :=
  [4, 3, 2] ++ if Tbl.getD d.swc.turn o 0 = 1 then [1, 0] else [0, 1]

/-- The element first found at or after a pointer, counting upwards modulo 160 (R128). -/
def fromPointer (ptr : Nat) (xs : List Nat) : Option Nat :=
  xs.foldl (fun b x => match b with
    | none => some x
    | some y => if (x + 160 - ptr) % 160 < (y + 160 - ptr) % 160 then some x else some y) none

/-- The grant of output `o` among the ready heads of free inputs: the packet it grants (R128, steps 1 and 2). -/
def Dev.grantOf (d : Dev) (hs : List QPkt) (o : Nat) : Option QPkt :=
  let mine := hs.filter fun x => x.out == o
  match (d.classRank o).find? (fun k => mine.any fun x => x.cls == k) with
  | none => none
  | some k =>
    let reqs := mine.filter fun x => x.cls == k
    match fromPointer (Tbl.getD d.swc.grant o 0) (reqs.map (·.inp)) with
    | none => none
    | some i => oldest (reqs.filter fun x => x.inp == i)

/-- A packet is dequeued (R130 to R135): marking, deficit, tokens, depth and delay are charged, and it goes to staging. -/
def Dev.dequeue (d : Dev) (x : QPkt) (now : Nat) : Dev :=
  let n := x.pkt.cells
  let o := x.out
  let depth := ((tcClasses x.pkt.tc).map fun k => d.fld F.SCH_DEPTH_DEPTH (5 * o + k)).sum
  let th := d.fld F.SCH_MARK_THRESH (4 * o + x.pkt.tc)
  let mark := th ≠ 0xFFFF ∧ th < depth
  let y := if mark then { x with pkt := { x.pkt with h0 := putBits x.pkt.h0 57 1 1 } } else x
  let d := d.count 2 (7 * o + 5)
  let d := if mark then d.count 2 (7 * o + 6) else d
  let d := if x.cls < 2 then d.chargeDeficit o x.cls n else d
  let d := if d.shaped o x.cls then d.setTokens o x.cls (d.tokens o x.cls - 256 * n) else d
  let c := 5 * o + x.cls
  let delay := if (Tbl.get d.swc.delay c).isSome then d.swc.delay else Tbl.set d.swc.delay c (now - x.enq)
  let into : StPkt := { q := y, arrived := 0, started := false }
  let hold : Hold := { inp := x.inp, out := o, rem := n }
  let d := { d with swc := { d.swc with
              queue := d.swc.queue.erase x
              stage := Tbl.set d.swc.stage o (Tbl.getD d.swc.stage o [] ++ [into])
              holds := d.swc.holds ++ [hold]
              delay := delay } }
  d.shallow o x.cls n

/-- One iteration of request, grant and accept among the free inputs and outputs; pointers move in the first only (R128,
R129). DEDUCED, unsafe (assumption 50). -/
def Dev.matchRound (d : Dev) (now : Nat) (first : Bool) : Dev :=
  let busyIn := d.swc.holds.map (·.inp)
  let busyOut := d.swc.holds.map (·.out)
  let hs := (heads d.swc.queue).filter fun x => !busyIn.contains x.inp && !busyOut.contains x.out && d.ready x
  let grants := (hs.map (·.out)).eraseDups.filterMap (d.grantOf hs)
  let inputs := (grants.map (·.inp)).eraseDups
  inputs.foldl (fun (d : Dev) (i : Nat) =>
    let offers := grants.filter fun x => x.inp == i
    match fromPointer (Tbl.getD d.swc.accept i 0) (offers.map (·.out)) with
    | none => d
    | some o =>
      match offers.find? (fun x => x.out == o) with
      | none => d
      | some x =>
        let d := d.dequeue x now
        if first then
          { d with swc := { d.swc with grant := Tbl.set d.swc.grant o ((i + 1) % 160),
                                       accept := Tbl.set d.swc.accept i ((o + 1) % 160) } }
        else d) d

/-- Whether the unit at internal output `q` has a use for a packet (Tables 04-2, 04-3 and 06-1). -/
def wantedAt (q : Nat) (x : Pkt) : Bool :=
  match x.kind with
  | 1 | 2 | 0x10 => true
  | 3 => [0x01, 0x10, 0x11, 0x12, 0x13, 0x14].contains (x.ta 56 8)
  | 8 | 9 => decide (152 ≤ q ∧ q < 156)
  | 0xA => q == 159
  | 0x11 => !x.isDirect && (x.subkind == 2 || x.subkind == 3 || x.subkind == 4)
  | _ => false

/-- One cell of every held match crosses; a packet whose last cell has crossed is charged no more, and leaves the staging if the
link has begun to send it, or if it has come to an internal output whose unit discards it (R124, R130, R535). -/
def Dev.cross (d : Dev) : Dev :=
  let holds := d.swc.holds
  let d := holds.foldl (fun (d : Dev) (h : Hold) =>
    let st := Tbl.getD d.swc.stage h.out []
    let done := st.filter fun x => x.arrived + 1 == x.q.pkt.cells
    let st' := (st.map fun x => if x.arrived < x.q.pkt.cells then { x with arrived := x.arrived + 1 } else x).filter fun x =>
      !((x.started || (decide (128 ≤ h.out) && !wantedAt h.out x.q.pkt)) && decide (x.q.pkt.cells ≤ x.arrived))
    let d := { d with swc := { d.swc with stage := Tbl.set d.swc.stage h.out st' } }
    done.foldl (fun d x => d.uncharge x.q) d) d
  { d with swc := { d.swc with holds := (holds.map fun h => { h with rem := h.rem - 1 }).filter fun h => h.rem != 0 } }

/-- CELL_TIME_MATCH: a cell crosses for every held match, and the three iterations run (R128, R130). -/
def execCellTimeMatch (cyc : Fin 1025) (s : State) : Host.Outcome State Fault Refusal :=
  s.run fun d =>
    let now := d.cycles cyc.val
    if d.halted then d else (((d.cross).matchRound now true).matchRound now false).matchRound now false

/-- Takes the first whole packet that satisfies `ok` from the staging of internal output `q`, if it is at the front (R535). -/
def Dev.takeStage (d : Dev) (q : Nat) (ok : Pkt → Bool) : Option (QPkt × Dev) :=
  match Tbl.getD d.swc.stage q [] with
  | [] => none
  | x :: rest =>
    if !d.halted ∧ x.q.pkt.cells ≤ x.arrived ∧ ok x.q.pkt = true then
      some (x.q, { d with swc := { d.swc with stage := Tbl.set d.swc.stage q rest } })
    else none

/-! Statistics (R135 to R137). -/

/-- The histogram bucket of R136. -/
def bucketOf (u : Nat) : Nat := if u = 0 then 0 else if 16384 ≤ u then 15 else Nat.log2 u + 1

/-- The moving average of R136 in units of 1/256. -/
def meanStep (mean sample : Nat) : Nat := ((mean : Int) + ((256 * sample : Int) - mean) / 16).toNat

/-- Folds a depth sample into the statistics of a class queue (R136). -/
def Dev.foldDepth (d : Dev) (c depth : Nat) : Dev :=
  let x := min depth 0xFFFF
  let lo := d.fld F.SCH_DEPTH_RANGE_MIN c
  let hi := d.fld F.SCH_DEPTH_RANGE_MAX c
  let first := lo == 0xFFFF && hi == 0
  let d := (d.setFld F.SCH_DEPTH_RANGE_MIN c (min lo x)).setFld F.SCH_DEPTH_RANGE_MAX c (max hi x)
  let d := d.setFld F.SCH_DEPTH_MEAN_MEAN c (if first then 256 * x else meanStep (d.fld F.SCH_DEPTH_MEAN_MEAN c) x)
  d.bump F.SCH_DEPTH_HIST_COUNT (16 * c + bucketOf depth) 1

/-- Folds a delay sample into the statistics of a class queue (R136). -/
def Dev.foldDelay (d : Dev) (c delay : Nat) : Dev :=
  let x := min delay 0xFFFFFF
  let first := d.fld F.SCH_DELAY_SAMPLES_SAMPLES c == 0
  let d := (d.setFld F.SCH_DELAY_MIN_CYCLES c (min (d.fld F.SCH_DELAY_MIN_CYCLES c) x)).setFld F.SCH_DELAY_MAX_CYCLES c
    (max (d.fld F.SCH_DELAY_MAX_CYCLES c) x)
  let d := d.setFld F.SCH_DELAY_MEAN_MEAN c (if first then 256 * x else meanStep (d.fld F.SCH_DELAY_MEAN_MEAN c) x)
  (d.bump F.SCH_DELAY_SAMPLES_SAMPLES c 1).bump F.SCH_DELAY_HIST_COUNT (16 * c + bucketOf (delay / 16)) 1

/-- CLEAR as an edge applies it (R137). -/
def Dev.clearStats (d : Dev) : Dev :=
  let keep := d.regs.filter fun e =>
    !([Reg.SCH_DEPTH_RANGE, .SCH_DEPTH_MEAN, .SCH_DELAY_MIN, .SCH_DELAY_MAX, .SCH_DELAY_MEAN, .SCH_DELAY_SAMPLES,
      .SCH_DEPTH_HIST, .SCH_DELAY_HIST].map Reg.code).contains e.1
  { d with regs := keep }

/-- The class queues of the ports that are present. -/
def Dev.classQueues (d : Dev) : List Nat := (List.range 800).filter fun c => d.part.hasPort (c / 5)

/-- Folds one latched sample of a class queue into its statistics. -/
def Dev.foldSample (d : Dev) (x : Nat × Nat × Option Nat) : Dev :=
  let d := d.foldDepth x.1 x.2.1
  match x.2.2 with
  | some y => d.foldDelay x.1 y
  | none => d

/-- Depths latched at the edge and the delays of the tick that ends are folded into the statistics (R135); samples that the tick
before left over come first, and those of the queues in `late` are left over (R30). -/
def Dev.sampleQueues (d : Dev) (late : List Nat) : Dev :=
  let old := d.clk.late.samples
  let now := d.classQueues.map fun c => (c, d.fld F.SCH_DEPTH_DEPTH c, Tbl.get d.swc.delay c)
  let left := now.filter fun x => late.contains x.1
  let d := { d with swc := { d.swc with delay := [] },
                    clk := { d.clk with late := { d.clk.late with samples := left } } }
  (old ++ now.filter fun x => !late.contains x.1).foldl Dev.foldSample d

/-- Every queue is refilled once for the boundary (R132); refills that the tick before left over come first, and the queues in
`late` are left over (R30). -/
def Dev.refillAll (d : Dev) (late : List Nat) : Dev :=
  let old := d.clk.late.refill
  let left := d.classQueues.filter late.contains
  let d := { d with clk := { d.clk with late := { d.clk.late with refill := left } } }
  (old ++ d.classQueues.filter fun c => !late.contains c).foldl (fun d c => d.refill (c / 5) (c % 5)) d

/-- SCH_OBS_CLEAR: a write of CLEAR at L0 is staged for its edge (R137, R140). -/
def execSchObsClear (src : Src) (late : Bool) (s : State) : Host.Outcome State Fault Refusal :=
  s.run fun d => if d.level src = 0 then d.stage src.fn late .obsClear else d

/-- An applied write of `SWC_RSV` (R125): an increase comes from the pool's free cells or the whole write is refused. -/
def Dev.rsvApplied (d : Dev) (i : Nat) (v : Word) : Dev :=
  let q := 128 + i
  if !d.part.hasPort q then d
  else
    let new := F.SWC_RSV_RESERVE.ofWord v
    let held := d.heldOf q
    if held < new ∧ d.poolFree < new - held then (d.setFld F.SWC_STATUS_RSV_REFUSED 0 1).raise 0x0805 [q]
    else
      let d := d.setReg .SWC_RSV i v
      if held < new then ({ d with swc := { d.swc with held := Tbl.set d.swc.held q new } }).bufSync q
      else d.shrinkReserve q

end Sys2Proof.Machine
end

