-- ==== Sys2Proof/Machine/Xlt.lean ====
section
/-!
DEFINITION. Translation contexts, the large translation cache and walks (R322 to R337), and the protection table with its
versions, regions and windows (R251 to R260).
-/

namespace Sys2Proof.Machine

/-- The current tick number. -/
def Dev.tickNow (d : Dev) : Nat := d.clk.tick.toNat

/-- The hierarchy of a function; 24 for firmware. -/
def Dev.hierOf (d : Dev) (fn : Nat) : Nat := if d.pfOf fn = 4224 then 24 else d.pfOf fn - 4096

/-- Whether the host memory of hierarchy `h` cannot be reached by its management function (Table 07-13, R392), or
every tag is in quarantine (R395). -/
def Dev.heldHier (d : Dev) (h : Nat) : Bool :=
  d.hsw.unreach.contains h || d.hsw.held.contains (4096 + h) ||
    decide (16384 ≤ (d.hsw.quarantine.filter fun x => x.1 == h).length)

/-- Whether function `fn` can issue no upstream request. -/
def Dev.heldFn (d : Dev) (fn : Nat) : Bool := d.hsw.unreach.contains (d.hierOf fn) || d.hsw.held.contains fn

/-! The protection table. -/

/-- An entry that is not in use. -/
def ProtVer.off : ProtVer := { from_ := 0, attr := 0#32, owner := 0#32, base := 0, len := 0, parent := 0#32 }

def ProtVer.en (v : ProtVer) : Bool := F.XLT_RGN_ATTR_EN.ofWord v.attr == 1
def ProtVer.window (v : ProtVer) : Bool := F.XLT_RGN_ATTR_KIND.ofWord v.attr == 1
def ProtVer.tag (v : ProtVer) : Nat := F.XLT_RGN_ATTR_TAG.ofWord v.attr
def ProtVer.gen (v : ProtVer) : Nat := F.XLT_RGN_ATTR_GEN.ofWord v.attr
def ProtVer.rights (v : ProtVer) : Nat := F.XLT_RGN_ATTR_RIGHTS.ofWord v.attr
def ProtVer.pd (v : ProtVer) : Nat := F.XLT_RGN_OWNER_PD.ofWord v.owner
def ProtVer.xctx (v : ProtVer) : Nat := F.XLT_RGN_OWNER_XCTX.ofWord v.owner
def ProtVer.parentIdx (v : ProtVer) : Nat := F.XLT_RGN_PARENT_PARENT.ofWord v.parent
def ProtVer.parentGen (v : ProtVer) : Nat := F.XLT_RGN_PARENT_PARENT_GEN.ofWord v.parent

/-- Entry `i` in the version in force in tick `t` (R257); entry 0 is never enabled (R252). -/
def Dev.protAt (d : Dev) (t i : Nat) : ProtVer :=
  if i = 0 then ProtVer.off
  else ((Tbl.getD d.prot.ents i []).find? fun v => decide (v.from_ ≤ t)).getD ProtVer.off

/-- Whether a window is usable with its parent in one version (R253). -/
def windowOk (w p : ProtVer) : Bool :=
  p.en && !p.window && p.gen == w.parentGen && p.pd == w.pd && (w.rights &&& p.rights) == w.rights &&
    decide (w.base + w.len ≤ p.len)

/-- What a key names in the version of tick `t`: the entry, the translation context, and the address of its first byte. -/
structure Region where
  ver : ProtVer
  xctx : Nat
  base : Nat
  /-- Whether it is a tunnel's staging region, which lies at its base in HBM (R382). -/
  staging : Bool
  deriving DecidableEq, Repr

/-- Checks 1 and 2 of Table 08-4 on a key. -/
def Dev.regionOf (d : Dev) (t key : Nat) : Option Region :=
  let v := d.protAt t (key % 2 ^ 17)
  if !v.en || v.tag != key / 2 ^ 17 then none
  else if v.window then
    let p := d.protAt t v.parentIdx
    if windowOk v p then some { ver := v, xctx := p.xctx, base := p.base + v.base, staging := false } else none
  else some { ver := v, xctx := v.xctx, base := v.base, staging := false }

/-- Checks 6 and 7 of Table 07-8 on a local range: the region's context, or the failing status. -/
def Dev.localCheck (d : Dev) (t pd key rights addr len : Nat) : Except Nat Region :=
  match d.regionOf t key with
  | none => .error 4
  | some r =>
    if r.ver.pd ≠ pd ∨ r.ver.rights &&& rights ≠ rights then .error 4
    else if addr < r.base ∨ r.base + r.ver.len < addr + len then .error 5
    else .ok r

/-! Translation contexts. -/

/-- STATE of a context: 0 DISABLED, 1 ACTIVE, 2 DRAINING (Table 11-11). -/
def Dev.xctxState (d : Dev) (c : Nat) : Nat := d.fld F.XLT_CTX_STATUS_STATE c

/-- Table levels of a context (Table 11-10); LEVELS = 3 cannot be enabled (R337). -/
def Dev.xctxLevels (d : Dev) (c : Nat) : Nat := 3 + d.fld F.XLT_CTX_CFG_LEVELS c

/-- KIND of a context: 0 RMA, 1 ENGINE, 2 BRIDGE; 3 acts as 0. -/
def Dev.xctxKind (d : Dev) (c : Nat) : Nat := if d.fld F.XLT_CTX_CFG_KIND c = 3 then 0 else d.fld F.XLT_CTX_CFG_KIND c

/-- Address bits that an entry of level `l` covers (Table 11-2). -/
def spanBits (l : Nat) : Nat := 12 + 9 * l

/-- Installed HBM in bytes: 24 GB for each stack (R323). DEDUCED, unsafe (assumption 85). -/
def Dev.hbmBytes (d : Dev) : Nat := d.part.hbmGb * ((List.range 4).filter d.part.hbmMask.testBit).length * 2 ^ 30

/-- A 57-bit address held in two registers, its low 12 bits 0. -/
def Dev.addr57 (d : Dev) (lo hi : Fld) (i : Nat) : Nat := d.fld lo i * 2 ^ 12 + d.fld hi i * 2 ^ 32

/-- Whether a table address is legal in a context (R323). The VX9-TN has neither HBM nor host memory for tables (R10, R332). -/
def Dev.tableLegal (d : Dev) (c t : Nat) : Bool :=
  if d.part.code = .tn then false
  else if d.flag F.XLT_CTX_CFG_MEM c then decide (t + 4096 ≤ d.hbmBytes)
  else
    let h := d.fld F.XLT_CTX_CFG_HIER c
    (List.range 8).any fun i =>
      let k := 8 * h + i
      decide (h < 24) && d.flag F.XLT_HMEM_BASE_LO_VALID k &&
        decide (d.addr57 F.XLT_HMEM_BASE_LO_BASE F.XLT_HMEM_BASE_HI_BASE k ≤ t ∧
          t ≤ d.addr57 F.XLT_HMEM_LIMIT_LO_LIMIT F.XLT_HMEM_LIMIT_HI_LIMIT k)

def entV (e : BitVec 64) : Bool := e.getLsbD 0
def entTbl (e : BitVec 64) : Bool := e.getLsbD 1
def entTgt (e : BitVec 64) : Nat := bits e 6 2
def entAddr (e : BitVec 64) : Nat := bits e 12 45 * 2 ^ 12
def entRights (e : BitVec 64) : Nat := bits e 2 3

/-- Whether reserved bits of an entry are 0 (Table 11-3). -/
def entRsvOk (e : BitVec 64) : Bool :=
  bits e 57 7 == 0 && bits e 8 4 == 0 && bits e 5 1 == 0 && (!entTbl e || bits e 2 6 == 0)

/-- Whether TGT is permitted for a leaf of level `l` in a context (R327). -/
def Dev.tgtOk (d : Dev) (c l : Nat) (e : BitVec 64) : Bool :=
  match entTgt e with
  | 0 => true
  | 1 => d.part.hasHbm
  | 2 => d.flag F.XLT_CTX_CFG_DEV_OK c
  | _ => d.xctxKind c == 2 && (l == 2 || l == 0)

/-- The cause that a leaf value of level `l` faults with as it is installed; 0 for none (R325 to R327). -/
def Dev.leafCause (d : Dev) (c l : Nat) (e : BitVec 64) : Nat :=
  if !entV e then 3
  else if !entRsvOk e then 4
  else if entTbl e || l == 4 then 5
  else if entAddr e % 2 ^ spanBits l ≠ 0 then 6
  else if !d.tgtOk c l e then 7
  else 0

/-! The large translation cache (R330). -/

def XEnt.isLeaf (x : XEnt) : Bool := x.level == 0 || !entTbl x.ent

/-- Whether an entry's span holds an address. -/
def XEnt.covers (x : XEnt) (c va : Nat) : Bool := x.ctx == c && x.va == va / 2 ^ spanBits x.level * 2 ^ spanBits x.level

/-- The set an entry occupies. -/
def XEnt.set (x : XEnt) : Nat := Config.xltSet x.ctx x.level (x.va / 2 ^ spanBits x.level) % 16384

/-- The least recently used unlocked entry of a set. -/
def lruOf (xs : List XEnt) (s : Nat) : Option XEnt :=
  xs.foldl (fun m x =>
    if x.locked || x.set != s then m
    else match m with
      | none => some x
      | some y => if x.used < y.used then some x else m) none

/-- Puts an entry in the cache; a full set evicts its least recently used unlocked entry (R332). -/
def Dev.cachePut (d : Dev) (x : XEnt) : Dev :=
  let x := { x with used := d.xlt.seq }
  let xs := d.xlt.cache.filter fun y => y.locked || !(y.ctx == x.ctx && y.level == x.level && y.va == x.va)
  let d := if (xs.filter fun y => y.set == x.set).length < 8 then { d with xlt := { d.xlt with cache := x :: xs } }
    else match lruOf xs x.set with
      | some y => ({ d with xlt := { d.xlt with cache := x :: xs.erase y } }).count 8 7
      | none => d
  { d with xlt := { d.xlt with seq := d.xlt.seq + 1 } }

/-- Where a leaf sends an input address: the space and the address (R325). -/
def Dev.leafOut (d : Dev) (x : XEnt) (va : Nat) : Space × Nat :=
  let h := d.fld F.XLT_CTX_CFG_HIER x.ctx
  let sp := match entTgt x.ent with
    | 0 => Space.host h
    | 1 => Space.hbm
    | 2 => Space.dev h
    | _ => Space.pool
  (sp, entAddr x.ent + va % 2 ^ spanBits x.level)

/-- The answer of a lookup: where the bytes up to the end of the leaf's span lie, a miss, or a fault with cause, level, table
and whether it was found on a cached leaf. -/
inductive Look where
  | hit (sp : Space) (addr rest : Nat)
  | miss
  | fault (cause level table : Nat) (cached : Bool)

/-- What a cached leaf answers: the rights are checked on every lookup, and a leaf is good up to the end of the installed HBM (R326,
R327). -/
def Dev.leafLook (d : Dev) (x : XEnt) (va need : Nat) : Look :=
  let o := d.leafOut x va
  if entRights x.ent &&& need ≠ need then .fault 8 x.level 0 true
  else if entTgt x.ent = 1 ∧ d.hbmBytes ≤ o.2 then .fault 7 x.level 0 true
  else
    let rest := 2 ^ spanBits x.level - va % 2 ^ spanBits x.level
    .hit o.1 o.2 (if entTgt x.ent = 1 then min rest (d.hbmBytes - o.2) else rest)

/-- The faults that precede every lookup: a context that is not ACTIVE, and an address above its width (R326). -/
def Dev.ctxFault (d : Dev) (c va : Nat) : Option Look :=
  if d.xctxState c ≠ 1 then some (.fault 1 (d.xctxLevels c - 1) 0 false)
  else if 2 ^ (12 + 9 * d.xctxLevels c) ≤ va then some (.fault 2 (d.xctxLevels c - 1) 0 false)
  else none

/-- A lookup in the large translation cache (R326, R330). -/
def Dev.look (d : Dev) (c va need : Nat) : Look × Dev :=
  let d := d.count 8 0
  match d.ctxFault c va with
  | some f => (f, d)
  | none =>
    match d.xlt.cache.find? fun x => x.isLeaf && x.covers c va with
    | none => (.miss, d)
    | some x =>
      let d := d.count 8 1
      let xs := d.xlt.cache.map fun y => if y = x then { y with used := d.xlt.seq } else y
      let d := { d with xlt := { d.xlt with cache := xs, seq := d.xlt.seq + 1 } }
      (d.leafLook x va need, d)

/-! The tiers of the engines (Table 11-5). -/

/-- Puts a leaf first in a tier of `n` entries; the least recently used leaves (R332). -/
def tierPut (xs : List XEnt) (x : XEnt) (n : Nat) : List XEnt :=
  (x :: xs.filter fun y => !(y.ctx == x.ctx && y.level == x.level && y.va == x.va)).take n

/-- Whether a hedgerow is in LOCKED mode (R331). -/
def Dev.hrLocked (d : Dev) (h : Nat) : Bool := d.flag F.XLT_HR_MODE_MODE h

/-- Fills the TLB of an engine with a leaf; in LOCKED mode it has none. -/
def Dev.fillTlb (d : Dev) (e : Nat) (fetch : Bool) (x : XEnt) : Dev :=
  let t := d.xlt
  if d.hrLocked (e / 16) then d
  else if fetch then { d with xlt := { t with itlb := Tbl.set t.itlb e (tierPut (Tbl.getD t.itlb e []) x 32) } }
  else { d with xlt := { t with dtlb := Tbl.set t.dtlb e (tierPut (Tbl.getD t.dtlb e []) x 64) } }

/-- Fills the TLB of a hedgerow with a leaf. -/
def Dev.fillHr (d : Dev) (h : Nat) (x : XEnt) : Dev :=
  let t := d.xlt
  { d with xlt := { t with hr := Tbl.set t.hr h (tierPut (Tbl.getD t.hr h []) x (if d.hrLocked h then 1024 else 2048)) } }

/-- An engine's lookup (R330): its locked slots or its TLB, its hedgerow's TLB, then the large translation cache; a hit fills the
tiers passed. -/
def Dev.engLook (d : Dev) (e : Nat) (fetch : Bool) (c va need : Nat) : Look × Dev :=
  match d.ctxFault c va with
  | some f => (f, d)
  | none =>
    let hit := fun (xs : List XEnt) => xs.find? fun x => x.covers c va
    let own := if d.hrLocked (e / 16) then d.xlt.slots else if fetch then d.xlt.itlb else d.xlt.dtlb
    match hit (Tbl.getD own e []), hit (Tbl.getD d.xlt.hr (e / 16) []) with
    | some x, _ => (d.leafLook x va need, d.fillTlb e fetch x)
    | none, some x => (d.leafLook x va need, (d.fillHr (e / 16) x).fillTlb e fetch x)
    | none, none =>
      let r := (d.count 8 8).look c va need
      match r.2.xlt.cache.find? fun x => x.isLeaf && x.covers c va with
      | none => r
      | some x =>
        let x := { x with locked := false, used := 0 }
        (r.1, (r.2.fillHr (e / 16) x).fillTlb e fetch x)

/-- The answer for a whole range: its stretches of memory, the first address that misses, or a fault at an address. -/
inductive Xlate where
  | ok (segs : List Seg)
  | miss (va : Nat)
  | fault (cause level table : Nat) (cached : Bool) (va : Nat)

/-- Translates `len` bytes from `va`, one leaf after the other, each by the lookup `f`. -/
def Dev.xlate (f : Dev → Nat → Look × Dev) : Nat → Dev → Nat → Nat → List Seg → Xlate × Dev
  | 0, d, _, _, acc => (.ok acc.reverse, d)
  | n + 1, d, va, len, acc =>
    if len = 0 then (.ok acc.reverse, d)
    else
      match f d va with
      | (.hit sp a rest, d) =>
        Dev.xlate f n d (va + rest) (len - rest) ({ space := sp, addr := a, len := min rest len } :: acc)
      | (.miss, d) => (.miss va, d)
      | (.fault k l t h, d) => (.fault k l t h va, d)

/-- Reports a walk fault (R329): the fault record of the context's physical function, counters and the event. The answer is
the status. -/
def Dev.walkFault (d : Dev) (c va cause level table user : Nat) (cached : Bool) : Nat × Dev :=
  let st := if cause = 0xA then 0x0E else 0x0D
  let fn := match Tbl.get d.own.xctx c with
    | some o => d.pfOf o
    | none => 4224
  let d := if d.flag F.XLT_FAULT_INFO_VALID fn then d.setFld F.XLT_FAULT_INFO_MORE fn 1
    else
      let w := d.rd .XLT_FAULT_INFO fn
      let w := F.XLT_FAULT_INFO_HIT.put w (if cached then 1 else 0)
      let w := F.XLT_FAULT_INFO_CAUSE.put (F.XLT_FAULT_INFO_LEVEL.put (F.XLT_FAULT_INFO_USER.put w user) level) cause
      let w := F.XLT_FAULT_INFO_CTX.put (F.XLT_FAULT_INFO_VALID.put w 1) c
      let d := (d.setReg .XLT_FAULT_INFO fn w).setReg .XLT_FAULT_VA_LO fn (BitVec.ofNat 32 va)
      let d := d.setReg .XLT_FAULT_VA_HI fn (BitVec.ofNat 32 (va / 2 ^ 32 % 2 ^ 25))
      let t := if cached then 0 else table
      (d.setReg .XLT_FAULT_TBL_LO fn (BitVec.ofNat 32 (t % 2 ^ 32 / 4096 * 4096))).setReg .XLT_FAULT_TBL_HI fn
        (BitVec.ofNat 32 (t / 2 ^ 32 % 2 ^ 25))
  let d := d.count 8 (if cause = 0xA then 5 else 4)
  (st, d.raise (if cause = 0xA then 0x0F02 else 0x0F01) [c, cause, level])

/-! Walks. -/

/-- Where a walk of an address begins (R330): below the deepest cached table entry, or at the root. -/
def Dev.walkStart (d : Dev) (c va : Nat) : Nat × Nat :=
  let t := d.xlt.cache.foldl (fun (m : Option XEnt) x =>
    if x.isLeaf || !x.covers c va then m
    else match m with
      | none => some x
      | some y => if x.level < y.level then some x else m) none
  match t with
  | some x => (x.level - 1, entAddr x.ent)
  | none => (d.xctxLevels c - 1, d.addr57 F.XLT_CTX_ROOT_LO_ROOT F.XLT_CTX_ROOT_HI_ROOT c)

/-- Starts a walk unless one for the page runs or 256 run (R328). A table address that is not legal is refused at once: the
answer is then the level and table of the refusal. -/
def Dev.startWalk (d : Dev) (c va user : Nat) (lock : Option Nat) : Option (Nat × Nat) × Dev :=
  let same := d.xlt.walks.any fun w => w.ctx == c && w.va / 4096 == va / 4096 && w.lock == lock
  if same || decide (256 ≤ d.xlt.walks.length) then (none, d)
  else
    let (l, t) := d.walkStart c va
    let d := d.count 8 2
    if !d.tableLegal c t then (some (l, t), d)
    else
      let w : Walk := { ctx := c, va := va, level := l, table := t, user := user, lock := lock, drop := [],
                        seq := d.xlt.seq }
      let d := ({ d with xlt := { d.xlt with walks := d.xlt.walks ++ [w], seq := d.xlt.seq + 1 } }).count 8 3
      (none, d.request 3 w.seq (d.flag F.XLT_CTX_CFG_MEM c) [])

/-- The answer to a memory access: where to go now, wait, or a status. -/
inductive Asked where
  | go (segs : List Seg)
  | wait
  | fault (status : Nat)

/-- Whether a stretch of memory lies in a hierarchy that is HELD (R255). -/
def Dev.segHeld (d : Dev) (s : Seg) : Bool :=
  match s.space with
  | .host h => d.heldHier h
  | .dev h => d.heldHier h
  | _ => false

/-- Puts an access among those that wait. -/
def Dev.park (d : Dev) (a : Access) : Dev :=
  { d with xlt := { d.xlt with wait := d.xlt.wait ++ [{ a with seq := d.xlt.seq }], seq := d.xlt.seq + 1 } }

/-- Makes a memory access with the lookup `f`: translated in a cache it goes on, on a miss it waits for a walk, and a translated
access to a HELD hierarchy waits too (R255, R326, R330). -/
def Dev.askBy (f : Dev → Nat → Look × Dev) (d : Dev) (a : Access) : Asked × Dev :=
  match Dev.xlate f (a.len / 4096 + 2) d a.va a.len [] with
  | (.ok segs, d) => if segs.any d.segHeld then (.wait, d.park { a with segs := some segs }) else (.go segs, d)
  | (.fault k l t h va, d) =>
    let r := d.walkFault a.ctx va k l t a.user h
    (.fault r.1, r.2)
  | (.miss va, d) =>
    match d.startWalk a.ctx va a.user none with
    | (some (l, t), d) =>
      let r := d.walkFault a.ctx va 0xA l t a.user false
      (.fault r.1, r.2)
    | (none, d) => (.wait, d.park { a with missing := va })

/-- Makes an access that starts at the large translation cache (R330). -/
def Dev.ask (d : Dev) (a : Access) : Asked × Dev := d.askBy (fun d va => d.look a.ctx va a.need) a

/-- An access as its user makes it. -/
def Access.make (k : Cont) (ctx va len need user : Nat) (tick : Option Nat) : Access :=
  { cont := k, ctx := ctx, va := va, len := len, need := need, user := user, missing := va, segs := none, tick := tick,
    seq := 0 }

/-! Reading and writing what an access reached. -/

/-- Stores bytes over stretches of memory. -/
def Dev.storeSegs : Dev → List Seg → List Byte → Dev
  | d, [], _ => d
  | d, s :: ss, bs => Dev.storeSegs (d.store s.space s.addr (bs.take s.len)) ss (bs.drop s.len)

/-- The bytes that a read of stretches of memory returns: the device's own HBM answers for itself, and `given` is what the
host returns for the rest. -/
def Dev.readSegs : Dev → List Seg → List Byte → List Byte × Dev
  | d, [], _ => ([], d)
  | d, s :: ss, given =>
    let r := if s.space = .hbm then d.load .hbm s.addr s.len else ((given ++ List.replicate s.len 0#8).take s.len, d)
    let rest := Dev.readSegs r.2 ss (given.drop s.len)
    (r.1 ++ rest.1, rest.2)

/-- The part of stretches of memory from byte `off`, `len` bytes long. -/
def sliceSegs : List Seg → Nat → Nat → List Seg
  | [], _, _ => []
  | s :: ss, off, len =>
    if s.len ≤ off then sliceSegs ss (off - s.len) len
    else
      let n := min (s.len - off) len
      if n = 0 then [] else { s with addr := s.addr + off, len := n } :: sliceSegs ss 0 (len - n)

/-! Invalidations (R334, R335). -/

/-- Whether an entry overlaps an invalidation's range. -/
def XEnt.hitBy (x : XEnt) (v : Inval) : Bool :=
  (match v.ctx with
    | none => true
    | some c => c == x.ctx) &&
    decide (x.va ≤ v.hi ∧ v.lo < x.va + 2 ^ spanBits x.level)

/-- Applies an invalidation: unlocked entries it covers leave every tier, and running walks may no longer install there. The
answer says whether it met a locked entry. With `all`, locked entries leave too (R337). -/
def Dev.invalidate (d : Dev) (v : Inval) (all : Bool) : Dev × Bool :=
  let met := d.xlt.cache.any (fun x => x.locked && x.hitBy v) || d.xlt.slots.any (fun t => t.2.any fun x => x.hitBy v)
  let x := d.xlt
  let hits := fun (w : Walk) => match v.ctx with
    | none => true
    | some c => c == w.ctx
  let x := { x with
    cache := x.cache.filter fun e => !(e.hitBy v && (all || !e.locked))
    itlb := Tbl.mapVal (fun es => es.filter fun e => !e.hitBy v) x.itlb
    dtlb := Tbl.mapVal (fun es => es.filter fun e => !e.hitBy v) x.dtlb
    hr := Tbl.mapVal (fun es => es.filter fun e => !e.hitBy v) x.hr
    slots := if all then Tbl.mapVal (fun es => es.filter fun e => !e.hitBy v) x.slots else x.slots
    walks := x.walks.map fun w => if hits w then { w with drop := (v.lo, v.hi) :: w.drop } else w
    invals := x.invals ++ [{ v with seq := x.seq }]
    seq := x.seq + 1 }
  ({ d with xlt := x }, met)

/-- LOCKED of `XLT_CTX_STATUS` and SLOTS_USED follow the locked entries. -/
def Dev.lockSync (d : Dev) (c : Nat) : Dev :=
  let ls := d.xlt.cache.filter (·.locked)
  let d := d.setFld F.XLT_CTX_STATUS_LOCKED c ((ls.filter fun x => x.ctx == c).length)
  (List.range 64).foldl (fun d h =>
    d.setFld F.XLT_HR_MODE_SLOTS_USED h
      (((d.xlt.slots.filter fun t => t.1 / 16 == h).foldl (fun n t => n + t.2.length) 0) / 16)) d

end Sys2Proof.Machine
end

