-- ==== Sys2Proof/Machine/Conn.lean ====
section
/-!
DEFINITION. Connection contexts: their numbers, residency and records (R169 to R174, R194 to R200), the packets the transport
builds (R175 to R178), and the operations a connection carries (R187, R243 to R245, R269).
-/

namespace Sys2Proof.Machine

/-- Context `n`. -/
def Dev.conn (d : Dev) (n : Nat) : Conn := Tbl.getD d.trn.conns n Conn.reset

/-- Stores context `n`. -/
def Dev.setConn (d : Dev) (n : Nat) (c : Conn) : Dev := { d with trn := { d.trn with conns := Tbl.set d.trn.conns n c } }

/-- Changes context `n`. -/
def Dev.modConn (d : Dev) (n : Nat) (f : Conn → Conn) : Dev := d.setConn n (f (d.conn n))

/-- Connection states (Table 06-8). -/
def Conn.free (c : Conn) : Bool := c.state == 0
def Conn.opening (c : Conn) : Bool := c.state == 1
def Conn.ready (c : Conn) : Bool := c.state == 2
def Conn.draining (c : Conn) : Bool := c.state == 3
def Conn.closing (c : Conn) : Bool := c.state == 4
def Conn.failed (c : Conn) : Bool := c.state == 5

/-- KIND of tier `r` (Table 06-17): 0 none, 1 HBM, 2 host memory; 3 acts as 0. On the VX9-TN both words read 0. -/
def Dev.tierKind (d : Dev) (r : Nat) : Nat :=
  if d.part.hasHbm then (if d.fld F.TRN_CTX_TIER_LO_KIND r = 3 then 0 else d.fld F.TRN_CTX_TIER_LO_KIND r) else 0

/-- Whether a connection number is usable (R171, R196). -/
def Dev.usable (d : Dev) (n : Nat) : Bool := decide (n < 65536) || (decide (n < 2 ^ 24) && d.tierKind (n / 2 ^ 20) != 0)

/-- Whether context `n` needs no fetch: it is in the cache, or it can never leave it (R197). -/
def Dev.isResident (d : Dev) (n : Nat) : Bool :=
  (d.conn n).resident || (decide (n < 65536) && d.tierKind 0 == 0)

/-- Contexts in the cache. -/
def Dev.residents (d : Dev) : Nat := (d.trn.conns.filter fun c => c.2.resident).length

/-- `TRN_CACHE` follows the contexts. -/
def Dev.cacheSync (d : Dev) : Dev :=
  let d := d.setFld F.TRN_CACHE_RESIDENT 0 (min 65536 d.residents)
  d.setFld F.TRN_CACHE_NOEVICT 0 ((d.trn.conns.filter fun c => c.2.noevict && !c.2.free).length)

/-- The PSNs of requests whose response is still awaited (R189). -/
def Op.awaited (o : Op) : List Nat :=
  if (o.kind = 3 ∨ o.kind = 4) ∧ o.nsent = 1 ∧ o.synd = none ∧ o.fault = 0 then
    let n := if o.kind = 4 then 1 else (o.len + 2047) / 2048
    if o.got.length < n then [o.first] else []
  else []

/-- The awaited PSNs of a connection. -/
def Conn.awaited (c : Conn) : List Nat := c.ops.flatMap Op.awaited

/-- Whether work for a context waits or is being processed: an operation, a received packet, or a packet in the miss
buffer. -/
def Dev.connBusy (d : Dev) (n : Nat) : Bool :=
  !(d.conn n).ops.isEmpty || !(d.conn n).resps.isEmpty || (d.conn n).rcvd.any (fun r => r.2.kept || r.2.busy) ||
      d.trn.miss.any (fun m => m.conn == n) ||
    d.trn.gets.any (fun g => g.conn == n) ||
    d.wq.any (fun q => q.2.taken.any fun e => e.done.isNone && e.key.any fun k => k.1 == 4 * n)

/-- Whether a resident context may be evicted (R197). -/
def Dev.evictable (d : Dev) (n : Nat) : Bool :=
  let c := d.conn n
  c.resident && (decide (65536 ≤ n) || d.tierKind (n / 2 ^ 20) != 0) && !c.noevict && c.sndUna == c.sndNxt &&
    c.awaited.isEmpty && !d.connBusy n && !d.trn.evict.contains n

/-! The record (Table 06-8). -/

/-- Bytes of a bit map. -/
def mapBytes (m : BitVec 256) : List Byte := leBytes 32 m.toNat

/-- Bytes 0 to 247 of the record. -/
def Conn.body (c : Conn) (n : Nat) : List Byte :=
  let atomics := (c.ops.filter fun o => o.kind == 4 && !o.awaited.isEmpty).length
  leBytes 4 (n + c.state * 2 ^ 24) ++
    leBytes 4 (c.peerEp + c.localEp * 2 ^ 22 + c.tc * 2 ^ 27 + (if c.pinned then 2 ^ 29 else 0) +
      (if c.noevict then 2 ^ 30 else 0)) ++
    leBytes 4 (c.peerConn + c.peerInc * 2 ^ 24) ++ leBytes 4 (c.inc + c.pd * 2 ^ 8) ++
    leBytes 4 (c.sndNxt % 2 ^ 24 + atomics * 2 ^ 24 + c.retry * 2 ^ 28) ++ leBytes 4 (c.sndUna % 2 ^ 24) ++
    leBytes 4 c.epsn ++ leBytes 4 (c.rto + c.retryMax * 2 ^ 14) ++ leBytes 4 c.rate ++
    leBytes 4 (c.sq + c.rq * 2 ^ 16) ++ leBytes 8 (c.lastSend % 2 ^ 48) ++ List.replicate 16 0#8 ++
    mapBytes c.rcvMap ++ mapBytes c.sackMap ++
    ((c.atoms.flatMap fun a => leBytes 3 a.1) ++ List.replicate 24 0#8).take 24 ++
    ((c.atoms.flatMap fun a => leBytes 8 a.2.toNat) ++ List.replicate 64 0#8).take 64 ++ List.replicate 32 0#8

/-- The commit word (R195). -/
def Conn.commit (c : Conn) (n : Nat) : List Byte :=
  let hi := leBytes 2 c.wbSeq ++ leBytes 1 c.inc ++ leBytes 3 n
  leBytes 2 (crc16 (c.body n ++ hi)).toNat ++ hi

/-- A bit of a little-endian number. -/
def field (bs : List Byte) (off size lo w : Nat) : Nat := leNat ((bs.drop off).take size) / 2 ^ lo % 2 ^ w

/-- Whether a fetched record is valid: its commit word is all zero, or names the connection and passes CHECK (R195). -/
def recordOk (n : Nat) (bs : List Byte) : Bool :=
  bs.length == 256 &&
    (field bs 248 8 0 64 == 0 ||
      (field bs 248 8 40 24 == n && field bs 248 8 0 16 == (crc16 (bs.take 248 ++ bs.drop 250)).toNat))

/-- The context that a valid record holds; the working state beside it is kept. -/
def Conn.ofRecord (c : Conn) (bs : List Byte) : Conn :=
  if field bs 248 8 0 64 = 0 then { c with state := 0, inc := 0 }
  else
    let atoms := (List.range 8).filterMap fun i =>
      if i < c.atoms.length then some (field bs (128 + 3 * i) 3 0 24, BitVec.ofNat 64 (field bs (152 + 8 * i) 8 0 64)) else none
    { c with
      state := field bs 0 4 24 3, peerEp := field bs 4 4 0 22, localEp := field bs 4 4 22 5, tc := field bs 4 4 27 2,
      pinned := field bs 4 4 29 1 == 1, noevict := field bs 4 4 30 1 == 1, peerConn := field bs 8 4 0 24,
      peerInc := field bs 8 4 24 8, inc := field bs 12 4 0 8, pd := field bs 12 4 8 16,
      sndNxt := field bs 16 4 0 24, retry := field bs 16 4 28 4, sndUna := field bs 20 4 0 24,
      epsn := field bs 24 4 0 24, rto := field bs 28 4 0 14, retryMax := field bs 28 4 14 4,
      rate := field bs 32 4 0 16, sq := field bs 36 4 0 16, rq := field bs 36 4 16 16, lastSend := field bs 40 8 0 48,
      rcvMap := BitVec.ofNat 256 (field bs 64 32 0 256), sackMap := BitVec.ofNat 256 (field bs 96 32 0 256),
      atoms := atoms, wbSeq := field bs 248 8 16 16 }

/-- Where the record of connection `n` lies (R194). -/
def Dev.recordAt (d : Dev) (n : Nat) : Space × Nat :=
  let r := n / 2 ^ 20
  (if d.tierKind r = 1 then .hbm else .host (d.fld F.TRN_CTX_TIER_LO_HIER r),
    d.addr57 F.TRN_CTX_TIER_LO_BASE F.TRN_CTX_TIER_HI_BASE r + 256 * (n % 2 ^ 20))

/-! Residency (R197 to R199, R201). -/

/-- The stores that write the record of context `n` to its tier, the commit word last (R195, R199). -/
def Dev.recordWrites (d : Dev) (n : Nat) (c : Conn) : List MemWr :=
  let (sp, a) := d.recordAt n
  [{ space := sp, addr := a, bytes := c.body n }, { space := sp, addr := a + 248, bytes := c.commit n }]

/-- Whether the tier of context `n` is in HBM. -/
def Dev.tierHbm (d : Dev) (n : Nat) : Bool := d.tierKind (n / 2 ^ 20) == 1

/-- Asks the arbiter to write the record of context `n` back (R199, R201). -/
def Dev.writeBack (d : Dev) (n : Nat) : Dev :=
  let c := { d.conn n with wbSeq := ((d.conn n).wbSeq + 1) % 65536 }
  let d := d.setConn n c
  d.request 5 n (d.tierHbm n) (d.recordWrites n c)

/-- Starts the eviction of the least recently used evictable context: its record is written back (R197, R199). -/
def Dev.startEvict (d : Dev) : Dev :=
  let c := d.trn.conns.foldl (fun (m : Option (Nat × Conn)) x =>
    if !d.evictable x.1 then m
    else match m with
      | none => some x
      | some y => if x.2.used < y.2.used then some x else m) none
  match c with
  | none => d
  | some (n, _) => ({ d with trn := { d.trn with evict := d.trn.evict ++ [n] } }).writeBack n

/-- Places of the cache in use: resident contexts and those being fetched. -/
def Dev.slotsUsed (d : Dev) : Nat := d.residents + d.trn.fetch.length

/-- Gives free places of the cache to the contexts that wait for one, oldest first: a fetch begins, or a context whose content is at
hand is resident. -/
def Dev.takeSlots : Nat → Dev → Dev
  | 0, d => d
  | k + 1, d =>
    match d.trn.need with
    | [] => d
    | (n, fetch) :: rest =>
      if 65536 ≤ d.slotsUsed then d
      else
        let d := { d with trn := { d.trn with need := rest } }
        let d := if fetch then
            (({ d with trn := { d.trn with fetch := d.trn.fetch ++ [n] } }).count 4 11).request 2 n (d.tierHbm n) []
          else d.modConn n fun c => { c with resident := true }
        Dev.takeSlots k d

/-- Evicts as long as more contexts wait for a place than evictions run, and one is evictable. -/
def Dev.evictFor : Nat → Dev → Dev
  | 0, d => d
  | k + 1, d =>
    if d.trn.need.length ≤ d.trn.evict.length then d
    else
      let e := d.startEvict
      if e.trn.evict.length = d.trn.evict.length then d else Dev.evictFor k e

/-- Contexts that wait for a place in the cache get one, or evictions make room (R197). -/
def Dev.makeRoom (d : Dev) : Dev :=
  let d := Dev.takeSlots d.trn.need.length d
  Dev.evictFor d.trn.need.length d

/-- A packet or descriptor needs context `n`: an eviction of it is cancelled (R199). -/
def Dev.touch (d : Dev) (n : Nat) : Dev :=
  if !Tbl.has d.trn.conns n then d
  else
    let d := d.modConn n fun c => { c with used := d.trn.clock }
    let d := { d with trn := { d.trn with clock := d.trn.clock + 1 } }
    if d.trn.evict.contains n then
      (({ d with trn := { d.trn with evict := d.trn.evict.erase n } }.arbDrop 5 n).count 4 13).makeRoom
    else d

/-- Starts the fetch of context `n` unless it runs or waits for a place (R198). -/
def Dev.startFetch (d : Dev) (n : Nat) : Dev :=
  if d.trn.fetch.contains n || d.trn.need.any (fun x => x.1 == n) then d
  else ({ d with trn := { d.trn with need := d.trn.need ++ [(n, true)] } }).makeRoom

/-- Makes context `n` resident as it opens, as soon as it has a place (R197). -/
def Dev.admitConn (d : Dev) (n : Nat) : Dev :=
  if (d.conn n).resident then d.touch n
  else (({ d with trn := { d.trn with need := (d.trn.need.filter fun (x : Nat × Bool) => x.1 != n) ++ [(n,
      false)] } }).makeRoom).touch n

/-! Packets. -/

/-- Sends a transport packet of context `n` from its local endpoint: kind, traffic class, PSN, the owner's words and
data. -/
def Dev.sctSend (d : Dev) (c : Conn) (n kind tc psn dstConn : Nat) (ta : BitVec 64) (tb : Nat) (data : List Byte)
    (poison : Bool) : Dev :=
  match d.epPort c.localEp with
  | none => d
  | some q => d.send q (Pkt.make kind tc (d.ep c.localEp) c.peerEp dstConn psn ta tb data n poison false c.pinned)

/-- An SCT_CTRL packet (R178) on the connection's own class, to a connection number and incarnation. -/
def Dev.sendCtrl (d : Dev) (n sub psn arg peerConn peerInc : Nat) (data : List Byte) : Dev :=
  let c := d.conn n
  d.sctSend c n 3 c.tc psn peerConn (BitVec.ofNat 64 (sub * 2 ^ 56 + peerInc * 2 ^ 48 + arg)) 0 data false

/-- An SCT_CTRL packet of a connection to its peer. -/
def Dev.ctrl (d : Dev) (n sub psn arg : Nat) : Dev :=
  d.sendCtrl n sub psn arg (d.conn n).peerConn (d.conn n).peerInc []

/-- Sends RECEIVER_BUSY for a packet that the miss buffer cannot hold, to the connection it names as its source (R198, Table
04-3). The incarnation of that end is in the context, which is not at hand: one never opened here gives a free value. DESIGN
CHOICE, unsafe (assumption 131). DESIGN CHOICE, unsafe (assumption 131). -/
def Dev.refuseMiss (d : Dev) (n : Nat) (p : Pkt) : Dev :=
  let c := d.conn n
  let r := if c.free then d.fresh else (BitVec.ofNat 64 c.peerInc, d)
  match r.2.epPort (p.dst % 32) with
  | none => r.2
  | some q =>
    let arg := max 1 (r.2.fld F.TRN_CFG_BUSY_BACKOFF 0)
    (r.2.send q (Pkt.make 3 p.tc p.dst p.src p.aux.toNat p.psn
      (BitVec.ofNat 64 (2 ^ 56 + r.1.toNat % 256 * 2 ^ 48 + arg)) 0 [] n false false p.pin)).count 4 9

/-- Sends RECEIVER_BUSY for a refused PSN (R183, R226, R284, R404). -/
def Dev.refuseBusy (d : Dev) (n psn : Nat) : Dev :=
  (d.ctrl n 1 psn (max 1 (d.fld F.TRN_CFG_BUSY_BACKOFF 0))).count 4 9

/-- Sends an ack (R177, R186): the cumulative PSN, a syndrome, the marks since the last ack and the selective map. -/
def Dev.sendAck (d : Dev) (n synd syndPsn : Nat) : Dev :=
  let c := d.conn n
  let ta := BitVec.ofNat 64 (synd * 2 ^ 56 + syndPsn * 2 ^ 32 + (if c.ece then 2 ^ 31 else 0) +
    min 127 c.marked * 2 ^ 24 + c.peerInc * 2 ^ 16)
  let data := if c.rcvMap = 0#256 then [] else mapBytes c.rcvMap
  let d := d.sctSend c n 2 c.tc ((c.epsn + 2 ^ 24 - 1) % 2 ^ 24) c.peerConn ta 0 data false
  d.modConn n fun c => { c with acc := 0, ece := false, marked := 0 }

/-- The H2 word of an SCT_DATA packet (Table 06-3). -/
def sctWord (op seg : Nat) (ackReq retx : Bool) (inc gen key : Nat) : BitVec 64 :=
  BitVec.ofNat 64 (op * 2 ^ 56 + seg * 2 ^ 54 + (if ackReq then 2 ^ 53 else 0) + (if retx then 2 ^ 52 else 0) +
    inc * 2 ^ 40 + gen * 2 ^ 32 + key % 2 ^ 32)

/-- SEG of packet `k` of `n` (Table 06-3). -/
def segOf (k n : Nat) : Nat := if n = 1 then 0 else if k = 0 then 1 else if k + 1 = n then 3 else 2

/-! Operations. -/

/-- Packets of 2,048 B that `len` bytes take. -/
def chunks (len : Nat) : Nat := (len + 2047) / 2048

/-- The packets an operation sends (R243, R269). -/
def Op.npk (o : Op) : Nat :=
  match o.kind with
  | 1 => chunks o.len
  | 2 => chunks o.len + 1
  | 5 => if o.hdr.isEmpty then 0 else chunks (32 + o.len)
  | _ => 1

/-- Bytes of source data in packet `k`: offset and length in the source. -/
def Op.src (o : Op) (k : Nat) : Nat × Nat :=
  match o.kind with
  | 1 | 2 => (2048 * k, min 2048 (o.len - 2048 * k))
  | 5 => if k = 0 then (0, min 2016 o.len) else (2048 * k - 32, min 2048 (o.len + 32 - 2048 * k))
  | _ => (0, 0)

/-- Whether packet `k` carries source data that must be read. -/
def Op.needsRead (o : Op) (k : Nat) : Bool := o.inl.isNone && (o.src k).2 != 0

/-- The data of packet `k`, when it is at hand, and whether it is bad. -/
def Op.dataOf (o : Op) (k : Nat) : Option (List Byte × Bool) :=
  match o.inl with
  | some bs => some ((bs.drop (o.src k).1).take (o.src k).2, false)
  | none => if o.needsRead k then Tbl.get o.data k else some ([], false)

/-- Packet `k` of an operation: OP, SEG, GEN, KEY, OFFSET and payload (Tables 06-3 and 06-4, R244 to R246, R269). -/
def Op.packet (o : Op) (k : Nat) (bs : List Byte) : Nat × Nat × Nat × Nat × Nat × List Byte :=
  match o.kind with
  | 1 => (1, segOf k o.npk, o.rgen, o.rkey, o.roff + 2048 * k, bs)
  | 2 =>
    if k + 1 = o.npk then (2, segOf k o.npk, o.rgen, o.imm, o.rkey, [])
    else (1, segOf k o.npk, o.rgen, o.rkey, o.roff + 2048 * k, bs)
  | 3 => (3, 0, o.rgen, o.rkey, o.roff, leBytes 4 o.len ++ List.replicate 4 0#8)
  | 4 => (5, 0, o.rgen, o.rkey, o.roff, leBytes 1 o.akind ++ List.replicate 7 0#8 ++ leBytes 8 o.opnd.toNat ++
      leBytes 8 (if o.akind = 2 then o.swap.toNat else 0))
  | _ => (7, segOf k o.npk, 0, 0, 2048 * k, if k = 0 then o.hdr ++ bs else bs)

/-- An operation with nothing set but its kind and owner. -/
def Op.blank (own : Owner) (kind : Nat) : Op :=
  { id := 0, own := own, kind := kind, len := 0, laddr := 0, xctx := 0, roff := 0, rkey := 0, rgen := 0, imm := 0,
    akind := 0, opnd := 0#64, swap := 0#64, hdr := [], inl := none, poison := false, ackReq := true, first := 0,
    nsent := 0, reading := [], data := [], got := [], placing := [], val := 0#64, synd := none, fault := 0,
    retried := false, tick := none }

/-- Changes operation `id` of a connection. -/
def Conn.modOp (c : Conn) (id : Nat) (f : Op → Op) : Conn := { c with ops := c.ops.map fun o => if o.id = id then f o else o }

/-- Gives an operation to a connection, after those it has. -/
def Dev.addOp (d : Dev) (n : Nat) (o : Op) : Dev :=
  let o := { o with id := d.trn.nextOp }
  let d := { d with trn := { d.trn with nextOp := d.trn.nextOp + 1 } }
  (d.modConn n fun c => { c with ops := c.ops ++ [o] }).touch n

/-- Makes the read of packet `k` of an operation. A local translation fault is noted on the operation (R224). -/
def Dev.readSource (d : Dev) (n : Nat) (o : Op) (k : Nat) : Dev :=
  let (off, len) := o.src k
  let set := fun (d : Dev) (x : Option (List Seg)) => d.modConn n fun c => c.modOp o.id fun o =>
    { o with reading := Tbl.set o.reading k x }
  match d.ask (Access.make (.src n o.id k) o.xctx (o.laddr + off) len 1 3 none) with
  | (.go segs, d) => set d (some segs)
  | (.wait, d) => set d none
  | (.fault st, d) => d.modConn n fun c => c.modOp o.id fun o =>
      { o with fault := st, reading := Tbl.erase o.reading k, data := Tbl.set o.data k ([], true) }

/-- Makes the reads that the packets within the window of 256 still need (R187). DEDUCED, unsafe (assumption 64). -/
def Dev.readAhead (d : Dev) (n : Nat) : Dev :=
  let c := d.conn n
  let room := 256 - (c.sndNxt - c.sndUna)
  let want := (c.ops.flatMap fun o => ((List.range (min (o.npk - o.nsent) room)).map fun i => (o, o.nsent + i))).take room
  want.foldl (fun (d : Dev) (x : Op × Nat) =>
    if x.1.needsRead x.2 && (Tbl.get x.1.reading x.2).isNone && (Tbl.get x.1.data x.2).isNone then d.readSource n x.1 x.2 else d) d

/-- The operation that holds a sequence number, with the packet's place in it. -/
def Conn.opAt (c : Conn) (psn : Nat) : Option (Op × Nat) :=
  (c.ops.find? fun o => decide (o.first ≤ psn ∧ psn < o.first + o.nsent ∧ 0 < o.nsent)).map fun o => (o, psn - o.first)

/-- Marks PSNs to be sent again, in order; their source data is read again (R189, R542). -/
def Dev.resend (d : Dev) (n : Nat) (psns : List Nat) : Dev :=
  let d := d.modConn n fun c => { c with resend := psns }
  psns.foldl (fun (d : Dev) (p : Nat) =>
    match (d.conn n).opAt p with
    | none => d
    | some (o, k) =>
      if o.needsRead k then
        let d := d.modConn n fun c => c.modOp o.id fun o =>
          { o with data := Tbl.erase o.data k, reading := Tbl.erase o.reading k }
        d.readSource n o k
      else d) d

/-- PSNs from SND_UNA that are unacknowledged and whose selective bit is clear (R189). -/
def Conn.unacked (c : Conn) : List Nat :=
  ((List.range (c.sndNxt - c.sndUna)).filter fun i => !c.sackMap.getLsbD i).map fun i => c.sndUna + i

/-- Everything a resend covers: awaited requests below SND_UNA and the unacknowledged (R189). -/
def Conn.lost (c : Conn) : List Nat := (c.awaited.filter fun p => decide (p < c.sndUna)) ++ c.unacked

/-- RATE_MAX of a traffic class, and RATE_MIN: values above RATE_MAX act as RATE_MAX (Table 06-18). -/
def Dev.rateMax (d : Dev) (tc : Nat) : Nat := d.fld F.TRN_RC_RATE_RATE_MAX tc
def Dev.rateMin (d : Dev) (tc : Nat) : Nat := min (d.rateMax tc) (d.fld F.TRN_RC_RATE_RATE_MIN tc)

/-- The rate in force: RATE_MAX while rate control is off (R203). -/
def Dev.rateOf (d : Dev) (c : Conn) : Nat :=
  if d.flag F.TRN_RC_EN c.tc then max (d.rateMin c.tc) (min (d.rateMax c.tc) c.rate) else d.rateMax c.tc

/-- The timer of R189: the earliest last send among SND_UNA and the awaited requests, or the start of its present run, when it
runs. -/
def Conn.timerBase (c : Conn) : Option Nat :=
  let ps := (if c.sndUna ≠ c.sndNxt then [c.sndUna] else []) ++ c.awaited
  match ps with
  | [] => none
  | p :: ps => some (max c.timer (ps.foldl (fun m p => min m (Tbl.getD c.sent p 0)) (Tbl.getD c.sent p 0)))

/-- RTO in core cycles: 1 µs is 1,600. -/
def Conn.rtoCycles (c : Conn) : Nat := c.rto * 1600

/-! Numbers. -/

/-- The next number never used of a tier, if it is usable. -/
def Dev.unused (d : Dev) : Option Nat :=
  (List.range 16).findSome? fun r =>
    let n := Tbl.getD d.trn.fresh r 0
    if n < 2 ^ 20 ∧ d.usable (r * 2 ^ 20 + n) then some (r * 2 ^ 20 + n) else none

/-- Takes a number for a new connection: one never used, else the one freed least recently (R173). -/
def Dev.allocConn (d : Dev) : Option (Nat × Dev) :=
  match d.unused with
  | some n => some (n, { d with trn := { d.trn with fresh := Tbl.set d.trn.fresh (n / 2 ^ 20) (n % 2 ^ 20 + 1) } })
  | none =>
    match d.trn.freed.find? d.usable with
    | some n => some (n, { d with trn := { d.trn with freed := d.trn.freed.erase n } })
    | none => none

end Sys2Proof.Machine
end

