-- ==== Sys2Proof/Machine/Queue.lean ====
section
/-!
DEFINITION. Work queues and event queues: rings, entries, completion in place, event reports, and aborts (R209 to R239); and
the entry store of the match logic that an abort takes RECVs out of (R283, R284).
-/

namespace Sys2Proof.Machine

/-! The match store. -/

/-- A matching context beside its registers. -/
def Dev.mctx (d : Dev) (m : Nat) : MCtx := Tbl.getD d.mte.ctxs m MCtx.reset

/-- Changes a matching context. -/
def Dev.modMctx (d : Dev) (m : Nat) (f : MCtx → MCtx) : Dev :=
  { d with mte := { d.mte with ctxs := Tbl.set d.mte.ctxs m (f (d.mctx m)) } }

/-- Spill entries that `MTE_SPILL_SIZE` gives; none without a spill area (R283). -/
def Dev.spillSize (d : Dev) : Nat :=
  let k := d.fld F.MTE_SPILL_LO_KIND 0
  if !d.part.hasHbm || k == 0 || k == 3 then 0 else 65536 * min 256 (d.fld F.MTE_SPILL_SIZE_UNITS 0)

/-- Entries reserved in contexts that satisfy `p`: by packets received, and by messages at a hedgerow's input (R284). -/
def Dev.reservedIn (d : Dev) (p : Nat → Bool) : Nat :=
  (d.mte.resv.filter fun r => p r.2.1).length +
    d.mte.ctxs.foldl (fun n c => if p c.1 then n + (c.2.input.filter fun i => match i with
      | .arrival _ => true
      | _ => false).length else n) 0

/-- Entries of a hedgerow: on die, in spill and reserved. -/
def Dev.entriesOf (d : Dev) (h : Nat) : Nat :=
  d.fld F.MTE_HR_OCC_ENTRIES h + (d.mte.spilled.filter fun s => s.ctx % 64 == h && !s.moving).length +
    d.reservedIn fun m => m % 64 == h

/-- Whether hedgerow `h` has an entry free: on die, or in the spill area that all hedgerows share (R283, R284). -/
def Dev.mteFree (d : Dev) (h : Nat) : Bool :=
  decide (d.entriesOf h < 4096) ||
    decide (((List.range 64).foldl (fun n h => n + (d.entriesOf h - 4096)) 0) < d.spillSize)

/-- Whether a context is at its limit (R284). -/
def Dev.atLimit (d : Dev) (m : Nat) : Bool :=
  decide (d.fld F.MTE_CTX_LIMIT_ENTRIES m ≤ d.fld F.MTE_CTX_STATUS_ENTRIES m + d.reservedIn fun c => c == m)

/-- The spilled entry that holds an item of a context. -/
def Dev.spillOf (d : Dev) (m : Nat) (x : MteIn) : Option SpillEnt := d.mte.spilled.find? fun s => s.ctx == m && s.ent == x

/-- Free bytes. -/
def Dev.freshBytes : Nat → Dev → List Byte × Dev
  | 0, d => ([], d)
  | n + 1, d =>
    let r := d.fresh
    let rest := Dev.freshBytes n r.2
    (leBytes 8 r.1.toNat ++ rest.1, rest.2)

/-- Whether the spill area is in HBM (Table 09-7). -/
def Dev.spillHbm (d : Dev) : Bool := d.fld F.MTE_SPILL_LO_KIND 0 == 1

/-- The write of a spilled entry at place `i` of the spill area. The layout of its 64 bytes is not stated: they are free values.
DESIGN CHOICE, safe (assumption 68). -/
def Dev.spillWrite (d : Dev) (i : Nat) : Dev :=
  let r := Dev.freshBytes 8 d
  let sp := if r.2.spillHbm then Space.hbm else .host (r.2.fld F.MTE_SPILL_LO_HIER 0)
  let a := r.2.addr57 F.MTE_SPILL_LO_BASE F.MTE_SPILL_HI_BASE 0 + 64 * i
  (r.2.count 6 11).request 6 i r.2.spillHbm [{ space := sp, addr := a, bytes := r.1 }]

/-- `MTE_SPILL_OCC` follows the spilled entries. -/
def Dev.spillSync (d : Dev) : Dev := d.setFld F.MTE_SPILL_OCC_ENTRIES 0 d.mte.spilled.length

/-- An item becomes an entry of context `m`: on die, or, when its hedgerow's store is full, in the lowest free place of the
spill area (R283). -/
def Dev.holdEntry (d : Dev) (m : Nat) (x : MteIn) : Dev :=
  let d := d.setFld F.MTE_CTX_STATUS_ENTRIES m (d.fld F.MTE_CTX_STATUS_ENTRIES m + 1)
  if d.fld F.MTE_HR_OCC_ENTRIES (m % 64) < 4096 then
    d.setFld F.MTE_HR_OCC_ENTRIES (m % 64) (d.fld F.MTE_HR_OCC_ENTRIES (m % 64) + 1)
  else
    let i := ((List.range (d.mte.spilled.length + 1)).find? fun i => !d.mte.spilled.any fun s => s.place == i).getD 0
    let s : SpillEnt := { place := i, ctx := m, ent := x, moving := false }
    (({ d with mte := { d.mte with spilled := d.mte.spilled ++ [s] } }).spillWrite i).spillSync

/-- Takes an entry out of the spill area, with what the arbiter has not yet issued for it. -/
def Dev.unspill (d : Dev) (s : SpillEnt) : Dev :=
  let d := { d with mte := { d.mte with spilled := d.mte.spilled.filter fun y => y.place != s.place } }
  let d := d.modMctx s.ctx fun c => { c with reads := c.reads.filter (fun r => r.1 != s.place), seen := 0 }
  ((d.arbDrop 6 s.place).arbDrop 4 s.place).spillSync

/-- Reads the spilled entry at place `i` for context `m` (R201, R286). -/
def Dev.spillRead (d : Dev) (m i : Nat) (move : Bool) : Dev :=
  ((d.modMctx m fun c => { c with reads := c.reads ++ [(i, move)] }).count 6 10).request 4 i d.spillHbm []

/-- As entries of a hedgerow on die free, its oldest spilled entries move back: each takes its place on die and is read, or,
while it is still to be written, stays where it is (R283). -/
def Dev.refillDie : Nat → Dev → Nat → Dev
  | 0, d, _ => d
  | n + 1, d, h =>
    if 4096 ≤ d.fld F.MTE_HR_OCC_ENTRIES h then d
    else match d.mte.spilled.find? fun s => s.ctx % 64 == h && !s.moving with
      | none => d
      | some s =>
        let d := d.setFld F.MTE_HR_OCC_ENTRIES h (d.fld F.MTE_HR_OCC_ENTRIES h + 1)
        if d.arbWaits 6 s.place then Dev.refillDie n (d.unspill s) h
        else
          let mark := fun (y : SpillEnt) => if y.place = s.place then { y with moving := true } else y
          let d := { d with mte := { d.mte with spilled := d.mte.spilled.map mark } }
          Dev.refillDie n (d.spillRead s.ctx s.place true) h

/-- An entry of context `m` is given up. -/
def Dev.dropHeld (d : Dev) (m : Nat) (x : MteIn) : Dev :=
  let h := m % 64
  let d := d.setFld F.MTE_CTX_STATUS_ENTRIES m (d.fld F.MTE_CTX_STATUS_ENTRIES m - 1)
  let s := d.spillOf m x
  let d := match s with
    | some s => d.unspill s
    | none => d
  let d := if (s.map (·.moving)).getD true then d.setFld F.MTE_HR_OCC_ENTRIES h (d.fld F.MTE_HR_OCC_ENTRIES h - 1) else d
  Dev.refillDie 4096 d h

/-- Takes a RECV out of the posted list and the input of its context. -/
def Dev.unpost (d : Dev) (m q idx : Nat) : Dev :=
  let x := MteIn.posting q idx
  let was := (d.mctx m).posted.any fun p => p.q == q && p.idx == idx
  let front := (d.mctx m).input.head? == some x
  let d := d.modMctx m fun c =>
    { c with posted := c.posted.filter (fun p => !(p.q == q && p.idx == idx)), input := c.input.filter (· != x)
             waited := c.waited && !front, seen := if front then 0 else c.seen }
  if was then d.dropHeld m x else d

/-! Queues. -/

/-- Queue `q` beside its registers. -/
def Dev.queue (d : Dev) (q : Nat) : Queue := Tbl.getD d.wq q Queue.reset

/-- Changes queue `q`. -/
def Dev.modQueue (d : Dev) (q : Nat) (f : Queue → Queue) : Dev := { d with wq := Tbl.set d.wq q (f (d.queue q)) }

/-- STATE of a queue: 0 DISABLED, 1 ACTIVE, 2 HELD, 3 ABORTING, 4 ERROR (Table 07-20). -/
def Dev.qState (d : Dev) (q : Nat) : Nat := d.fld F.WQ_Q_STATUS_STATE q

/-- Stores STATE. -/
def Dev.setQState (d : Dev) (q s : Nat) : Dev := d.setFld F.WQ_Q_STATUS_STATE q s

/-- KIND of a queue (Table 07-1). -/
def Dev.qKind (d : Dev) (q : Nat) : Nat := d.fld F.WQ_Q_CFG_KIND q

/-- Entries of its ring (R210). -/
def Dev.qSize (d : Dev) (q : Nat) : Nat := 2 ^ d.fld F.WQ_Q_CFG_LOG_SIZE q

/-- The function a queue is assigned to; firmware where none. -/
def Dev.queueFn (d : Dev) (q : Nat) : Nat := Tbl.getD d.own.queue q 4224

/-- The space its ring lies in (R210). -/
def Dev.qSpace (d : Dev) (q : Nat) : Space :=
  if d.flag F.WQ_Q_CFG_MEM q then .hbm else .host (d.hierOf (d.queueFn q))

/-- Address of entry `i` of a ring. -/
def Dev.qAddr (d : Dev) (q i : Nat) : Nat :=
  d.addr57 F.WQ_Q_BASE_LO_BASE F.WQ_Q_BASE_HI_BASE q + i * (if d.qKind q = 3 then 16 else 64)

/-- Descriptor fields (Tables 07-3 and 07-5 to 07-7). -/
def Entry.f (e : Entry) (off size : Nat) : Nat := field e.desc off size 0 (8 * size)
def Entry.opc (e : Entry) : Nat := e.f 0 1
def Entry.conn (e : Entry) : Nat := field e.desc 4 4 0 24
def Entry.len (e : Entry) : Nat := e.f 16 4
def Entry.lkey (e : Entry) : Nat := e.f 20 4
def Entry.laddr (e : Entry) : Nat := e.f 8 8
def Entry.signal (e : Entry) : Bool := field e.desc 63 1 0 1 == 1

/-- The taken entry at place `idx`. -/
def Queue.at_ (x : Queue) (idx : Nat) : Option Entry := x.taken.find? fun e => e.idx == idx

/-- Changes the taken entry at place `idx`. -/
def Queue.modAt (x : Queue) (idx : Nat) (f : Entry → Entry) : Queue :=
  { x with taken := x.taken.map fun e => if e.idx = idx then f e else e }

/-- COUNT of `WQ_Q_INFLIGHT` follows the taken set. -/
def Dev.inflight (d : Dev) (q : Nat) : Dev := d.setFld F.WQ_Q_INFLIGHT_COUNT q (d.queue q).taken.length

/-! Event queues (R232 to R236). -/

/-- Sends the MSI-X message of an armed event queue and disarms it (R236). -/
def Dev.signal (d : Dev) (eq : Nat) : Dev :=
  if (d.queue eq).armed then
    (d.modQueue eq fun x => { x with armed := false }).emit (.msix (d.queueFn eq) (d.fld F.WQ_EQ_COAL_VECTOR eq))
  else d

/-- Producer position P modulo 2^17. -/
def Dev.eqPos (d : Dev) (eq : Nat) : Nat := d.fld F.WQ_Q_STATUS_CURSOR eq

/-- Whether an event queue is full (R234). -/
def Dev.eqFull (d : Dev) (eq : Nat) : Bool := (d.eqPos eq + 2 ^ 17 - (d.queue eq).cons) % 2 ^ 17 == d.qSize eq

/-- Writes an entry to an event queue; the answer is whether it was written or kept (R232 to R236). An event queue that is not
ACTIVE drops reports (Table 07-14), but HELD it keeps them. -/
def Dev.writeEvent (d : Dev) (eq q kind n : Nat) : Dev × Bool :=
  if d.qKind eq ≠ 3 then (d, true)
  else if d.qState eq = 2 then (d.modQueue eq fun x => { x with keptEv := x.keptEv ++ [(q, kind, n)] }, true)
  else if d.qState eq ≠ 1 then (d, true)
  else if d.flag F.WQ_Q_STATUS_OVF eq then (d.count 5 6, false)
  else if d.eqFull eq then
    (((((d.setFld F.WQ_Q_STATUS_OVF eq 1).raise 0x0C02 [eq]).count 5 6).signal eq), false)
  else
    let p := d.eqPos eq
    let a := d.qAddr eq (p % d.qSize eq)
    let body := leBytes 2 q ++ leBytes 1 kind ++ [0#8] ++ leBytes 4 d.tickNow ++ leBytes 4 (min n 0xFFFFFFFF) ++
      List.replicate 3 0#8
    let phase : Byte := if p / d.qSize eq % 2 = 0 then 0x80#8 else 0#8
    let d := ((d.store (d.qSpace eq) a body).store (d.qSpace eq) (a + 15) [phase]).count 5 5
    ((d.setFld F.WQ_Q_STATUS_CURSOR eq ((p + 1) % 2 ^ 17)).signal eq, true)

/-- Reports a queue's own event: 1 QUEUE_ERROR, 2 ABORT_DONE (Table 07-12). -/
def Dev.reportQueue (d : Dev) (q kind : Nat) : Dev :=
  if d.flag F.WQ_Q_CFG_EQ_EN q then (d.writeEvent (d.fld F.WQ_Q_BIND_EQ q) q kind 0).1 else d

/-- Writes the COMPLETIONS entry that is due and resets the count (R233). -/
def Dev.reportNow (d : Dev) (q : Nat) : Dev :=
  let r := d.writeEvent (d.fld F.WQ_Q_BIND_EQ q) q 0 (d.queue q).pend
  if r.2 then r.1.modQueue q fun x => { x with pend := 0 } else r.1

/-- Writes the COMPLETIONS entry if the pending count has reached COUNT (R233); a COUNT of 0 acts as 1. -/
def Dev.reportDue (d : Dev) (q : Nat) : Dev :=
  let need := max 1 (d.fld F.WQ_EQ_COAL_COUNT (d.fld F.WQ_Q_BIND_EQ q))
  if need ≤ (d.queue q).pend then d.reportNow q else d

/-- A completion counts towards event reporting (R233). -/
def Dev.report (d : Dev) (q : Nat) : Dev :=
  if d.flag F.WQ_Q_CFG_EQ_EN q then (d.modQueue q fun x => { x with pend := x.pend + 1 }).reportDue q else d

/-! Completion in place (R227 to R230). -/

/-- A completion with a status alone. -/
def Dev.compl (d : Dev) (status : Nat) : Compl :=
  { status := status, len := 0, val := 0#64, tick := d.tickNow, ext := none, started := false, retried := false }

/-- Whether an opcode of a queue's entry is a RECV or NOTIFY, whose completion has bytes 16 to 23 (R230). -/
def Dev.extended (d : Dev) (q opc : Nat) : Bool := d.qKind q == 2 && (opc == 0x10 || opc == 0x11)

/-- A completion with bytes 16 to 23 where its entry has them; SRC and CONN of one that no message or immediate reached are free
values. DESIGN CHOICE, safe (assumption 132). -/
def Dev.withExt (d : Dev) (c : Compl) (ext : Bool) : Compl × Dev :=
  if !ext then ({ c with ext := none }, d)
  else match c.ext with
    | some _ => (c, d)
    | none =>
      let r := d.fresh
      ({ c with ext := some (r.1.toNat % 2 ^ 22, r.1.toNat / 2 ^ 22 % 2 ^ 24) }, r.2)

/-- Writes a completion into its ring entry: bytes 0 to 15, and 16 to 23 with `ext`, then byte 63 (R230); it is counted and
reported. -/
def Dev.writeCompl (d : Dev) (q idx : Nat) (c : Compl) (signal ext : Bool) : Dev :=
  let r := d.withExt c ext
  let c := r.1
  let d := r.2
  let a := d.qAddr q idx
  let body := leBytes 1 c.status ++ leBytes 3 c.tick ++ leBytes 4 c.len ++ leBytes 8 c.val.toNat ++
    match c.ext with
    | some (src, conn) => leBytes 4 (src % 2 ^ 22) ++ leBytes 4 (conn % 2 ^ 24)
    | none => []
  let flags := 0x80 + (if c.ext.isSome then 1 else 0) + (if c.started && c.status == 1 then 2 else 0) +
    (if c.retried then 4 else 0)
  let d := (d.store (d.qSpace q) a body).store (d.qSpace q) (a + 63) (leBytes 1 flags)
  let d := d.count 5 2
  let d := if c.status = 1 then d.count 5 4 else d
  if signal || c.status != 0 then d.report q else d

/-- Whether an earlier entry with the same key has not completed (R228). -/
def Queue.blocked (x : Queue) (e : Entry) : Bool :=
  match e.key with
  | none => false
  | some (k, n) => x.taken.any fun y => match y.key with
    | some (k', n') => k' == k && decide (n' < n)
    | none => false

/-- The next completion that may be written. -/
def Queue.next (x : Queue) : Option Entry :=
  x.kept.findSome? fun i => (x.at_ i).bind fun e => if e.done.isSome && !x.blocked e then some e else none

/-- Takes an entry out of the taken set. -/
def Dev.dropEntry (d : Dev) (q idx : Nat) : Dev :=
  (d.modQueue q fun x =>
    { x with taken := x.taken.filter (fun e => e.idx != idx), kept := x.kept.filter (· != idx) }).inflight q

/-- A FENCE completes once every entry taken before it has (R248). -/
def Dev.fenceDue (d : Dev) (q : Nat) : Dev :=
  match (d.queue q).taken with
  | e :: _ =>
    if e.opc = 6 ∧ e.done = none ∧ d.qKind q = 1 then
      d.modQueue q fun x => { x.modAt e.idx (fun e => { e with done := some (d.compl 0) }) with kept := x.kept ++ [e.idx] }
    else d
  | [] => d

/-- Writes the completions that may be written, in the order they fell due. A HELD or ABORTING queue writes none (Table
07-13). -/
def Dev.flushQueue : Nat → Dev → Nat → Dev
  | 0, d, _ => d
  | n + 1, d, q =>
    if d.qState q = 2 ∨ d.qState q = 3 ∨ d.qState q = 0 then d
    else
      let d := d.fenceDue q
      match (d.queue q).next with
      | none => d
      | some e =>
        match e.done with
        | none => d
        | some c => Dev.flushQueue n ((d.dropEntry q e.idx).writeCompl q e.idx c e.signal (d.extended q e.opc)) q

/-! Aborts (R238). -/

/-- The match header of Table 09-2. -/
def matchHeader (tag len mctx proto status cookie rkey roff rgen : Nat) : List Byte :=
  leBytes 8 tag ++ leBytes 4 len ++ leBytes 2 mctx ++ leBytes 1 proto ++ leBytes 1 status ++ leBytes 4 cookie ++
    leBytes 4 rkey ++ leBytes 6 roff ++ leBytes 1 rgen ++ [0#8]

/-- Sends a FIN or CANCEL (R278, R281). -/
def Dev.sendMsg (d : Dev) (n proto status cookie : Nat) : Dev :=
  d.addOp n { Op.blank .msg 5 with hdr := matchHeader 0 0 0 proto status cookie 0 0 0 }

/-- The COOKIE of a rendezvous table entry (R279). -/
def Dev.cookie (d : Dev) (i : Nat) : Nat := i + Tbl.getD d.mte.rdvSeq i 0 * 2 ^ 16

/-- Sends the CANCEL of a rendezvous SEND that an abort has reached, once its RTS has been sent (R281). -/
def Dev.cancelRdv (d : Dev) (q idx i : Nat) : Dev :=
  match Tbl.get d.mte.rdv i with
  | none => d
  | some r =>
    if r.q ≠ q ∨ r.idx ≠ idx then d
    else
      let sent := (d.conn r.conn).ops.all fun o => o.own != .entry r.q r.idx || o.nsent != 0
      if r.cancelled || !sent then d
      else ({ d with mte := { d.mte with rdv := Tbl.set d.mte.rdv i { r with cancelled := true } } }).sendMsg r.conn 3 0 (d.cookie i)

/-- An abort ends: the queue is ACTIVE or DISABLED, its cursor 0, and ABORT_DONE is reported (Table 07-13). -/
def Dev.endAbort (d : Dev) (q : Nat) (disable : Bool) : Dev :=
  let d := d.modQueue q fun x => { x with abort := none, scan := false, rescan := false, stall := false, taken := [], kept := [] }
  let d := (d.setFld F.WQ_Q_STATUS_CURSOR q 0).inflight q
  let d := d.setQState q (if disable then 0 else 1)
  (d.reportQueue q 2).raise 0x0C03 [q]

/-- A NOTIFY entry is aborted: the immediate that reserved it notifies nothing (R226, R238). -/
def Dev.unreserve (d : Dev) (q idx : Nat) : Dev :=
  let clear := fun (c : Conn) =>
    { c with rcvd := Tbl.mapVal (fun r => if r.notify = some (q, idx) then { r with notify := none } else r) c.rcvd }
  { d with trn := { d.trn with conns := Tbl.mapVal clear d.trn.conns } }

/-- A scan that waited for the match logic goes on, when its queue leaves HELD where it is in it (R237, R279, R285). -/
def Dev.unstall (d : Dev) (q : Nat) : Dev :=
  if !(d.queue q).stall then d
  else
    let st := d.qState q
    d.modQueue q fun x =>
      { x with stall := false, scan := x.scan || st == 1, rescan := x.rescan || (st == 2 && x.prior == 1) }

/-- `MTE_RDV` follows the table. -/
def Dev.rdvSync (d : Dev) : Dev := d.setFld F.MTE_RDV_OUTSTANDING 0 d.mte.rdv.length

/-- Frees a rendezvous entry; SEND queues that wait for one scan on (R279). -/
def Dev.rdvFree (d : Dev) (i : Nat) : Dev :=
  let d := ({ d with mte := { d.mte with rdv := Tbl.erase d.mte.rdv i } }).rdvSync
  (d.wq.map (·.1)).foldl (fun (d : Dev) q => if d.qKind q = 1 then d.unstall q else d) d

/-- The rendezvous SEND at a place of a queue has ended without its FIN. -/
def Dev.rdvDrop (d : Dev) (q idx : Nat) : Dev :=
  let d := { d with mte := { d.mte with ended := d.mte.ended.filter fun x => !(x.1 == q && x.2.1 == idx) } }
  match d.mte.rdv.find? fun r => r.2.q == q && r.2.idx == idx with
  | some r => d.rdvFree r.1
  | none => d

/-- Goes on with an abort: entries found POSTED complete ABORTED in ring order; a started one waits until the VX9 no longer
needs its buffer (R238). -/
def Dev.pumpAbort : Nat → Dev → Nat → Dev
  | 0, d, _ => d
  | n + 1, d, q =>
    if d.qState q ≠ 3 then d
    else match (d.queue q).abort with
      | none => d
      | some a =>
        match a.found with
        | [] => if a.left = 0 then d.endAbort q a.disable else d
        | (idx, ext) :: rest =>
          let next := fun (d : Dev) => d.modQueue q fun x => { x with abort := some { a with found := rest } }
          match (d.queue q).at_ idx with
          | none => Dev.pumpAbort n (next (d.writeCompl q idx (d.compl 1) false ext)) q
          | some e =>
            if !e.started || e.done.isSome then
              let d := if e.opc = 0x10 ∧ !e.started then d.unpost (d.fld F.WQ_Q_BIND_MCTX q) q idx else d
              let d := if e.reserved then d.unreserve q idx else d
              let d := if e.rdv.isSome && !e.started && e.done.isNone then d.rdvDrop q idx else d
              let c := { d.compl 1 with started := e.started, retried := e.retried || (e.done.map (·.retried)).getD false,
                                        ext := e.done.bind (·.ext) }
              Dev.pumpAbort n (next ((d.dropEntry q idx).writeCompl q idx c e.signal ext)) q
            else match e.rdv with
              | some i => d.cancelRdv q idx i
              | none => d

/-- Writes what may be written of a queue. -/
def Dev.pumpQueue (d : Dev) (q : Nat) : Dev :=
  let n := 2 * (d.queue q).taken.length + 2
  if d.qState q = 3 then
    Dev.pumpAbort (n + ((d.queue q).abort.map (·.found.length)).getD 0) d q
  else Dev.flushQueue n d q

/-- A completion of the taken entry at place `idx` falls due. -/
def Dev.entryDone (d : Dev) (q idx : Nat) (c : Compl) : Dev :=
  match (d.queue q).at_ idx with
  | none => d
  | some e =>
    if e.done.isSome then d
    else
      let c := { c with started := e.started, retried := c.retried || e.retried }
      (d.modQueue q fun x => { x.modAt idx (fun e => { e with done := some c, verdict := false }) with
                               kept := x.kept ++ [idx] }).pumpQueue q

/-- The oldest taken NOTIFY entry of a queue that is ACTIVE and that no IMM has reserved (R226). -/
def Dev.freeNotify (d : Dev) (q : Nat) : Option Nat :=
  if d.qState q = 1 ∧ d.qKind q = 2 then
    ((d.queue q).taken.find? fun e => e.opc == 0x11 && !e.reserved && e.done.isNone).map (·.idx)
  else none

/-- Reserves a NOTIFY entry; entries complete in reservation order (R228). -/
def Dev.reserveNotify (d : Dev) (q idx : Nat) : Dev :=
  d.modQueue q fun x =>
    { x.modAt idx (fun e => { e with reserved := true, key := some (2, x.stamp) }) with stamp := x.stamp + 1 }

/-- Completes a NOTIFY entry: the immediate or argument, its source and connection (Tables 07-9 and 07-10). -/
def Dev.notifyDone (d : Dev) (q idx : Nat) (v : BitVec 64) (src conn : Nat) : Dev :=
  d.entryDone q idx { d.compl 0 with val := v, ext := some (src, conn) }

/-- A queue enters ERROR (Table 07-13): a fault of class F2. -/
def Dev.queueError (d : Dev) (q : Nat) : Dev :=
  let d := d.modQueue q fun x => { x with scan := false, rescan := false }
  let d := ((d.setQState q 4).setFld F.WQ_STATUS_RING_FAULT (d.queueFn q) 1).fault2
  (d.raise 0x0C01 [q]).reportQueue q 1

end Sys2Proof.Machine
end

