-- ==== Sys2Proof/Machine/Mte.lean ====
section
/-!
DEFINITION. Message matching: reservations, matching, eager delivery and rendezvous (R266 to R287).
-/

namespace Sys2Proof.Machine

/-- STATE of a matching context: 0 DISABLED, 1 ACTIVE, 2 FAILED (Table 09-10). -/
def Dev.mctxState (d : Dev) (m : Nat) : Nat := d.fld F.MTE_CTX_STATUS_STATE m

/-- Slot size of a context: values outside 12 to 16 act as 12 (Table 09-8). -/
def Dev.slotSize (d : Dev) (m : Nat) : Nat :=
  let l := d.fld F.MTE_CTX_CFG_SLOT_LOG m
  2 ^ (if 12 ≤ l ∧ l ≤ 16 then l else 12)

/-- Where slot `i` of a context lies (R268). -/
def Dev.slotAt (d : Dev) (m i : Nat) : Space × Nat :=
  (if d.flag F.MTE_CTX_CFG_MEM m then .hbm else .host (d.fld F.MTE_CTX_CFG_HIER m),
    d.addr57 F.MTE_CTX_UX_LO_BASE F.MTE_CTX_UX_HI_BASE m + i * d.slotSize m)

/-- SLOTS_USED follows the slots in use. DEDUCED, safe (assumption 69). -/
def Dev.slotSync (d : Dev) (m : Nat) : Dev := d.setFld F.MTE_CTX_UX_USED_SLOTS_USED m (d.mctx m).slots.length

/-- Frees a slot. -/
def Dev.freeSlot (d : Dev) (m : Nat) (s : Option Nat) : Dev :=
  match s with
  | none => d
  | some i => (d.modMctx m fun c => { c with slots := c.slots.erase i }).slotSync m

/-- Changes a message. -/
def Dev.modMsg (d : Dev) (i : Nat) (f : Msg → Msg) : Dev :=
  match Tbl.get d.mte.msgs i with
  | some x => { d with mte := { d.mte with msgs := Tbl.set d.mte.msgs i (f x) } }
  | none => d

/-- Forgets a message. -/
def Dev.dropMsg (d : Dev) (i : Nat) : Dev := { d with mte := { d.mte with msgs := Tbl.erase d.mte.msgs i } }

/-! Reservations (R284). -/

/-- A packet of connection `n` is refused for a shortage, which is raised once in an episode (R284, R290). -/
def Dev.mteShort (d : Dev) (m n event : Nat) (noted : Bool) : Dev :=
  let d := d.count 6 7
  if noted then d else d.raise event [m, n]

/-- Reserves what a message of connection `n` needs at receipt of its first packet: an entry within the store and the context's
limit, and a slot for eager data. None, with the shortage noted, when one is lacking. -/
def Dev.mteReserve (d : Dev) (m n : Nat) (slot : Bool) : Option (Option Nat) × Dev :=
  if !d.mteFree (m % 64) then
    let noted := d.mte.noEntry.contains (m % 64)
    let d := { d with mte := { d.mte with noEntry := m % 64 :: d.mte.noEntry.erase (m % 64) } }
    (none, (d.setFld F.MTE_STATUS_STORE_FULL 0 1).mteShort m n 0x0D01 noted)
  else
    let d := { d with mte := { d.mte with noEntry := d.mte.noEntry.erase (m % 64) } }
    if d.atLimit m then
      let noted := d.mte.atLimit.contains m
      (none, ({ d with mte := { d.mte with atLimit := m :: d.mte.atLimit.erase m } }).mteShort m n 0x0D03 noted)
    else
      let d := { d with mte := { d.mte with atLimit := d.mte.atLimit.erase m } }
      if !slot then (some none, d)
      else
        match (List.range (d.fld F.MTE_CTX_SLOTS_SLOTS m)).find? fun i => !(d.mctx m).slots.contains i with
        | none =>
          let noted := d.mte.noSlot.contains m
          let d := { d with mte := { d.mte with noSlot := m :: d.mte.noSlot.erase m } }
          (none, (d.setFld F.MTE_STATUS_UX_FULL 0 1).mteShort m n 0x0D02 noted)
        | some i =>
          let d := { d with mte := { d.mte with noSlot := d.mte.noSlot.erase m } }
          (some (some i), (d.modMctx m fun c => { c with slots := c.slots ++ [i] }).slotSync m)

/-! Filling a RECV (R275 to R278). -/

/-- The RECV being filled at a place of a queue. -/
def Dev.recvJob (d : Dev) (q idx : Nat) : Option RecvJob := d.mte.recvs.find? fun j => j.q == q && j.idx == idx

/-- Changes a RECV being filled. -/
def Dev.modRecv (d : Dev) (q idx : Nat) (f : RecvJob → RecvJob) : Dev :=
  { d with mte := { d.mte with recvs := d.mte.recvs.map fun j => if j.q = q ∧ j.idx = idx then f j else j } }

/-- A RECV ends: its completion falls due, and the FIN of a rendezvous carries its status, TRUNCATED as OK (R278). -/
def Dev.endRecv (d : Dev) (j : RecvJob) (status : Nat) (fin : Bool) : Dev :=
  let d := { d with mte := { d.mte with recvs := d.mte.recvs.filter fun k => !(k.q == j.q && k.idx == j.idx) } }
  match Tbl.get d.mte.msgs j.msg with
  | none => d.entryDone j.q j.idx (d.compl status)
  | some m =>
    let d := d.freeSlot m.ctx m.slot
    let st := if status = 0 ∧ j.want < m.len then 9 else status
    let good := st == 0 || st == 9
    let d := if st = 9 then d.count 6 3 else d
    let d := d.entryDone j.q j.idx { d.compl st with
      len := if good then j.want else 0, val := if good then m.tag else 0#64, ext := some (m.src, m.conn) }
    let d := if m.rts && fin then (d.sendMsg m.conn 2 (if st = 9 then 0 else st) m.cookie).count 6 5 else d
    if m.rts || m.whole then d.dropMsg j.msg else d.modMsg j.msg fun m => { m with into := none, slot := none }

/-- A RECV that is being filled is given up without a completion; its message is consumed. -/
def Dev.dropRecv (d : Dev) (j : RecvJob) : Dev :=
  let d := { d with mte := { d.mte with recvs := d.mte.recvs.filter fun k => !(k.q == j.q && k.idx == j.idx) } }
  match Tbl.get d.mte.msgs j.msg with
  | none => d
  | some m =>
    let d := d.freeSlot m.ctx m.slot
    if m.rts || m.whole then d.dropMsg j.msg else d.modMsg j.msg fun m => { m with into := none, slot := none }

/-- A RECV ends once its last byte is placed. -/
def Dev.recvCheck (d : Dev) (q idx : Nat) : Dev :=
  match d.recvJob q idx with
  | none => d
  | some j =>
    let whole := match Tbl.get d.mte.msgs j.msg with
      | some m => !m.rts && (m.whole || decide (j.want ≤ m.data.length))
      | none => true
    let bad := ((Tbl.get d.mte.msgs j.msg).map (·.bad)).getD 0
    if whole && (decide (j.want ≤ j.placed) || (bad != 0 && decide (j.handed ≤ j.placed))) then
      d.endRecv j (if j.status ≠ 0 then j.status else bad) false
    else d

/-- Bytes of an eager message were placed, or their placement failed. -/
def Dev.recvPlaced (d : Dev) (q idx n status : Nat) : Dev :=
  (d.modRecv q idx fun j => { j with placed := j.placed + n, status := if j.status = 0 then status else j.status }).recvCheck
    q idx

/-- Places what has come of an eager message and is not yet handed to placement. -/
def Dev.recvFeed (d : Dev) (q idx : Nat) : Dev :=
  match d.recvJob q idx, (d.queue q).at_ idx with
  | some j, some e =>
    match Tbl.get d.mte.msgs j.msg with
    | none => d
    | some m =>
      let bs := (m.data.take j.want).drop j.handed
      if bs.isEmpty then d.recvCheck q idx
      else
        let xctx := match d.localCheck e.tick (d.fld F.WQ_Q_CFG_PD q) e.lkey 2 e.laddr e.len with
          | .ok r => r.xctx
          | .error _ => 0
        let d := d.modRecv q idx fun j => { j with handed := j.handed + bs.length }
        match d.ask (Access.make (.recv q idx bs) xctx (e.laddr + j.handed) bs.length 2 3 (some e.tick)) with
        | (.go segs, d) => (d.storeSegs segs bs).recvPlaced q idx bs.length 0
        | (.wait, d) => d
        | (.fault st, d) => d.recvPlaced q idx bs.length st
  | _, _ => d

/-- A message meets a RECV (R274 to R278): the entry is judged anew, and the message is placed, pulled, or consumed. Its slot,
if it has one still, is free once its data has been copied. -/
def Dev.deliver (d : Dev) (i q idx : Nat) : Dev :=
  match Tbl.get d.mte.msgs i, (d.queue q).at_ idx with
  | some m, some e =>
    let t := d.tickNow
    let d := d.modQueue q fun x =>
      { x.modAt idx (fun e => { e with started := true, key := some (3, x.stamp), tick := t, verdict := true }) with
        stamp := x.stamp + 1 }
    match d.localCheck t (d.fld F.WQ_Q_CFG_PD q) e.lkey 2 e.laddr e.len with
    | .error st =>
      let d := d.freeSlot m.ctx m.slot
      let d := ((d.count 5 3).entryDone q idx { d.compl st with ext := some (m.src, m.conn) }).dropMsg i
      if m.rts then (d.sendMsg m.conn 2 st m.cookie).count 6 5 else d
    | .ok r =>
      let want := min m.len e.len
      let j : RecvJob := { q := q, idx := idx, msg := i, want := want, handed := 0, placed := 0, status := 0 }
      let d := { d with mte := { d.mte with recvs := d.mte.recvs ++ [j] } }
      if m.rts then
        if want = 0 then d.endRecv j 0 true
        else
          d.addOp m.conn { Op.blank (.pull q idx) 3 with
            len := want, laddr := e.laddr, xctx := r.xctx, roff := m.roff, rkey := m.rkey, rgen := m.rgen, tick := some t }
      else
        (d.modMsg i fun m => { m with into := some (q, idx) }).recvFeed q idx
  | _, _ => d

/-- The pull of a rendezvous has ended with a status (R278). -/
def Dev.pullDone (d : Dev) (q idx status : Nat) (fin : Bool) : Dev :=
  match d.recvJob q idx with
  | none => d
  | some j => d.endRecv j status fin

/-- Writes what has come of an unexpected message into its slot, from byte `off` on (R276). -/
def Dev.slotStore (d : Dev) (m : Msg) (off : Nat) : Dev :=
  match m.slot with
  | none => d
  | some i =>
    let bs := m.data.drop off
    if bs.isEmpty then d else d.store (d.slotAt m.ctx i).1 ((d.slotAt m.ctx i).2 + off) bs

/-- Whether a message waits at its hedgerow's input or in the unexpected list. -/
def Dev.msgWaits (d : Dev) (m : Msg) : Bool :=
  (d.mctx m.ctx).unexpected.contains m.id || (d.mctx m.ctx).input.contains (.arrival m.id)

/-- Data of a message commits, or a packet of it fails with a status (R276): it goes to its slot, and on to the RECV it was matched
with. -/
def Dev.msgData (d : Dev) (i : Nat) (bs : List Byte) (last : Bool) (bad : Nat) : Dev :=
  match Tbl.get d.mte.msgs i with
  | none => d
  | some m =>
    let bad := if m.bad ≠ 0 then m.bad else bad
    let m' := { m with data := if bad ≠ 0 then m.data else m.data ++ bs, whole := m.whole || last, bad := bad }
    let d := d.modMsg i fun _ => m'
    let d := if (d.mctx m.ctx).input.contains (.arrival i) then d else d.slotStore m' m.data.length
    match m.into with
    | some (q, idx) => d.recvFeed q idx
    | none => if !d.msgWaits m && last then d.dropMsg i else d

/-! Matching (R272 to R274). -/

/-- Whether a message fits the RECV at a place of a queue (R272). -/
def Dev.fits (d : Dev) (m : Msg) (q idx : Nat) : Bool :=
  match (d.queue q).at_ idx with
  | none => false
  | some e =>
    let tag := BitVec.ofNat 64 (e.f 24 8)
    let ign := BitVec.ofNat 64 (e.f 32 8)
    ((m.tag ^^^ tag) &&& ~~~ign) == 0#64 && (field e.desc 40 4 31 1 == 1 || field e.desc 40 4 0 22 == m.src)

/-- Whether the hedgerow of a context can work: it is not parked (R422). -/
def Dev.hrAwake (d : Dev) (m : Nat) : Bool := d.fld F.PWR_HR_STATE (m % 64) != 0

/-- Entries up to and with the first that satisfies `ok`. -/
def examined {α : Type} (ok : α → Bool) (xs : List α) : Nat :=
  match xs.findIdx? ok with
  | some i => i + 1
  | none => xs.length

/-- Takes the front of a context's input away. -/
def Dev.mtePop (d : Dev) (m : Nat) : Dev := d.modMctx m fun c => { c with input := c.input.tail, seen := 0, waited := false }

/-- A search of a list of context `m`, oldest entry first (R274, R286): the entries on die, then those spilled entries that it
has read. The answer is the entry found, the number examined, and the place of the next spilled entry to read. -/
def Dev.search (d : Dev) (m : Nat) (ok : MteIn → Bool) (xs : List MteIn) : Option MteIn × Nat × Option Nat :=
  let die := xs.filter fun x => (d.spillOf m x).isNone
  let far := xs.filterMap fun x => (d.spillOf m x).map fun s => (x, s.place)
  let known := die ++ (far.take (d.mctx m).seen).map (·.1)
  match known.find? ok with
  | some x => (some x, examined ok known, none)
  | none => (none, known.length, ((far.drop (d.mctx m).seen).head?).map (·.2))

/-- A search goes on to the spilled entry at place `i`: it is read, unless it is still to be written (R286). -/
def Dev.searchOn (d : Dev) (m i : Nat) : Dev :=
  if d.arbWaits 6 i then d.modMctx m fun c => { c with seen := c.seen + 1 } else d.spillRead m i false

/-- MTE_ARRIVAL: the message at the front of a context's input matches the oldest fitting RECV, or joins the unexpected list
(R274, R276). -/
def execMteArrival (m : BitVec 16) (s : State) : Host.Outcome State Fault Refusal :=
  s.run fun d =>
    let c := m.toNat
    let x := d.mctx c
    match x.input with
    | .arrival i :: _ =>
      match Tbl.get d.mte.msgs i with
      | none => d.mtePop c
      | some msg =>
        if !x.reads.isEmpty || !d.hrAwake c then d
        else if d.mctxState c ≠ 1 then (((d.mtePop c).freeSlot c msg.slot).dropMsg i).count 6 9
        else
          let ok := fun (y : MteIn) => match y with
            | .posting q idx => d.fits msg q idx
            | .arrival _ => false
          match d.search c ok (x.posted.map fun p => .posting p.q p.idx) with
          | (some (.posting q idx), k, _) =>
            let d := ((d.count 6 0).count 6 1).count 6 12 k
            let d := (if msg.rts then d.count 6 4 else d).mtePop c
            let d := d.modMctx c fun y => { y with posted := y.posted.filter fun p => !(p.q == q && p.idx == idx) }
            let d := ((d.dropHeld c (.posting q idx)).freeSlot c msg.slot).modMsg i fun m => { m with slot := none }
            d.deliver i q idx
          | (_, _, some place) => d.searchOn c place
          | (_, k, none) =>
            let d := (d.count 6 0).count 6 12 k
            let d := (if msg.rts then d.count 6 4 else d).mtePop c
            ((d.modMctx c fun y => { y with unexpected := y.unexpected ++ [i] }).holdEntry c (.arrival i)).slotStore msg 0
    | _ => d

/-- A posting finds no entry free (R285): it is counted and raised as it begins to wait, and the scan of its queue stops. -/
def Dev.postWaits (d : Dev) (c q : Nat) : Dev :=
  if (d.mctx c).waited then d
  else
    let d := (d.modMctx c fun y => { y with waited := true }).count 6 8
    let d := d.modQueue q fun y => { y with stall := true }
    if d.mteFree (c % 64) then d.raise 0x0D03 [c] else (d.setFld F.MTE_STATUS_STORE_FULL 0 1).raise 0x0D01 [c]

/-- MTE_POSTING: the RECV at the front of a context's input matches the oldest fitting message, or joins the posted list; with
no entry free it waits (R274, R285, R287). -/
def execMtePosting (m : BitVec 16) (s : State) : Host.Outcome State Fault Refusal :=
  s.run fun d =>
    let c := m.toNat
    let x := d.mctx c
    match x.input with
    | .posting q idx :: _ =>
      if !x.reads.isEmpty || !d.hrAwake c then d
      else if d.mctxState c = 2 then ((d.mtePop c).unstall q).entryDone q idx (d.compl 8)
      else if d.mctxState c = 0 then ((d.mtePop c).unstall q).entryDone q idx (d.compl 1)
      else
        let ok := fun (y : MteIn) => match y with
          | .arrival i => match Tbl.get d.mte.msgs i with
            | some msg => d.fits msg q idx
            | none => false
          | .posting _ _ => false
        match d.search c ok (x.unexpected.map .arrival) with
        | (some (.arrival i), k, _) =>
          let d := ((d.count 6 2).count 6 12 k).mtePop c
          let d := (d.unstall q).modMctx c fun y => { y with unexpected := y.unexpected.erase i }
          (d.dropHeld c (.arrival i)).deliver i q idx
        | (_, _, some place) => d.searchOn c place
        | (_, k, none) =>
          if !d.mteFree (c % 64) || d.atLimit c then d.postWaits c q
          else
            let d := ((d.mtePop c).unstall q).count 6 12 k
            (d.modMctx c fun y => { y with posted := y.posted ++ [{ q := q, idx := idx }] }).holdEntry c (.posting q idx)
    | _ => d

/-! Contexts (Table 09-1). -/

/-- Gives up entries of context `m`, the spilled ones first. -/
def Dev.dropAll (d : Dev) (m : Nat) (xs : List MteIn) : Dev :=
  let far := xs.filter fun x => (d.spillOf m x).isSome
  let die := xs.filter fun x => (d.spillOf m x).isNone
  (far ++ die).foldl (fun (d : Dev) x => d.dropHeld m x) d

/-- Takes every entry out of a context: posted RECVs complete with a status in posting order, unexpected entries are
discarded (Table 09-1). -/
def Dev.emptyMctx (d : Dev) (m status : Nat) : Dev :=
  let c := d.mctx m
  let ins := c.input.filterMap fun i => match i with
    | .arrival i => some i
    | _ => none
  let waits := c.input.filterMap fun i => match i with
    | .posting q idx => some (q, idx)
    | _ => none
  let d := d.dropAll m ((c.posted.map fun p => .posting p.q p.idx) ++ c.unexpected.map .arrival)
  let d := d.modMctx m fun c => { c with posted := [], unexpected := [], input := [], reads := [], seen := 0, waited := false }
  let d := c.posted.foldl (fun (d : Dev) (p : Posted) => d.entryDone p.q p.idx (d.compl status)) d
  let d := waits.foldl (fun (d : Dev) (p : Nat × Nat) => (d.unstall p.1).entryDone p.1 p.2 (d.compl status)) d
  (c.unexpected ++ ins).foldl (fun (d : Dev) (i : Nat) =>
    match Tbl.get d.mte.msgs i with
    | none => d
    | some x => ((d.freeSlot m x.slot).dropMsg i).count 6 9) d

/-- MTE_SPILL_READ_DONE: the oldest spill read of a context returns: its entry is on die again, or the search at hand has it.
One that fails puts the context in FAILED (R283, R286, R287). A hierarchy that is HELD, or the arbiter, keeps it waiting (R201).
-/
def execMteSpillReadDone (m : BitVec 16) (ok : Bool) (s : State) : Host.Outcome State Fault Refusal :=
  s.run fun d =>
    let c := m.toNat
    match (d.mctx c).reads with
    | [] => d
    | (i, move) :: rest =>
      if d.arbWaits 4 i || (ok && !d.spillHbm && d.heldHier (d.fld F.MTE_SPILL_LO_HIER 0)) then d
      else if !ok then
        let d := ((d.setFld F.MTE_CTX_STATUS_STATE c 2).setFld F.MTE_STATUS_SPILL_BAD 0 1).fault2
        (d.raise 0x0D04 [c]).emptyMctx c 8
      else
        let d := d.modMctx c fun x => { x with reads := rest }
        if !move then d.modMctx c fun x => { x with seen := x.seen + 1 }
        else match d.mte.spilled.find? fun s => s.place == i with
          | some s => d.unspill s
          | none => d

/-- Setting ENABLE of a context (Table 09-1): its hedgerow, if parked, is to wake (R422). -/
def Dev.mctxEnable (d : Dev) (m : Nat) : Dev :=
  if d.mctxState m ≠ 0 then d
  else
    let d := (d.setFld F.MTE_CTX_CTRL_ENABLE m 1).setFld F.MTE_CTX_STATUS_STATE m 1
    let held := (d.mte.msgs.filterMap fun x => if x.2.ctx = m then x.2.slot else none) ++
      d.mte.resv.filterMap fun r => if r.2.1 = m then r.2.2 else none
    ((d.modMctx m fun _ => { MCtx.reset with slots := held }).slotSync m).wake (m % 64)

/-- Clearing ENABLE of a context (Table 09-1). -/
def Dev.mctxDisable (d : Dev) (m : Nat) : Dev :=
  if d.mctxState m = 0 then d
  else
    let d := ((d.setFld F.MTE_CTX_CTRL_ENABLE m 0).setFld F.MTE_CTX_STATUS_STATE m 0)
    d.emptyMctx m 1

/-- MTE_CTX_ENABLE (R267); on a part without HBM it is ignored (R10). -/
def execMteCtxEnable (src : Src) (m : BitVec 16) (s : State) : Host.Outcome State Fault Refusal :=
  s.run fun d =>
    if !d.part.hasHbm then d.stateWrite src.fn 0xE00038
    else if d.mayReach src (Tbl.get d.own.mctx m.toNat) then d.mctxEnable m.toNat
    else d

/-- MTE_CTX_DISABLE (R267). -/
def execMteCtxDisable (src : Src) (m : BitVec 16) (s : State) : Host.Outcome State Fault Refusal :=
  s.run fun d => if d.mayReach src (Tbl.get d.own.mctx m.toNat) then d.mctxDisable m.toNat else d

/-! Rendezvous at the sender (R279 to R282). -/

/-- Takes a rendezvous entry for a SEND; none while all 65,536 are in use. -/
def Dev.rdvTake (d : Dev) (q idx conn : Nat) : Option (Nat × Dev) :=
  if 65536 ≤ d.mte.rdv.length then none
  else
    match (List.range (d.mte.rdv.length + 1)).find? fun i => (Tbl.get d.mte.rdv i).isNone with
    | none => none
    | some i =>
      let r : Rdv := { q := q, idx := idx, conn := conn, cancelled := false }
      let sq := (Tbl.getD d.mte.rdvSeq i 0 + 1) % 65536
      some (i, ({ d with mte := { d.mte with rdv := Tbl.set d.mte.rdv i r, rdvSeq := Tbl.set d.mte.rdvSeq i sq } }).rdvSync)

/-- The RTS of a rendezvous SEND is acknowledged: it completes if its FIN has come (R280). -/
def Dev.rdvAcked (d : Dev) (q idx i : Nat) : Dev :=
  match d.mte.ended.find? fun x => x.1 == q && x.2.1 == idx with
  | some (_, _, st) =>
    let len := if st = 0 then (((d.queue q).at_ idx).map (·.len)).getD 0 else 0
    ({ d with mte := { d.mte with ended := d.mte.ended.filter fun x => !(x.1 == q && x.2.1 == idx) } }).entryDone q idx
      { d.compl st with len := len }
  | none => if (d.queue q).abort.isSome then d.cancelRdv q idx i else d

/-- The FIN of a rendezvous SEND has committed: its table entry is free, and it completes once its RTS is acknowledged (R279,
R280). -/
def Dev.rdvFin (d : Dev) (i st : Nat) (r : Rdv) : Dev :=
  let acked := (d.conn r.conn).ops.all fun o => o.own != .entry r.q r.idx
  let d := d.rdvFree i
  let d := { d with mte := { d.mte with ended := d.mte.ended ++ [(r.q, r.idx, st)] } }
  if acked then d.rdvAcked r.q r.idx i else d

/-- FIN: the FIN that committed first completes its rendezvous SEND; one that names no outstanding entry is counted stale
(R280). -/
def execFin (s : State) : Host.Outcome State Fault Refusal :=
  s.run fun d =>
    match d.mte.fins with
    | [] => d
    | (n, cookie, st) :: rest =>
      let d := { d with mte := { d.mte with fins := rest } }
      let i := cookie % 65536
      match Tbl.get d.mte.rdv i with
      | none => (d.count 6 6).raise 0x0D05 [0, n]
      | some r => if d.cookie i ≠ cookie then (d.count 6 6).raise 0x0D05 [0, n] else d.rdvFin i st r

/-- Takes a message out of the unexpected list, or the input, of its context. -/
def Dev.removeMsg (d : Dev) (x : Msg) : Dev :=
  let a := MteIn.arrival x.id
  let was := (d.mctx x.ctx).unexpected.contains x.id
  let front := (d.mctx x.ctx).input.head? == some a
  let d := d.modMctx x.ctx fun c =>
    { c with unexpected := c.unexpected.erase x.id, input := c.input.filter (· != a), seen := if front then 0 else c.seen }
  ((if was then d.dropHeld x.ctx a else d).freeSlot x.ctx x.slot).dropMsg x.id

/-- CANCEL: the CANCEL that committed first removes an unexpected RTS and sends a FIN with ABORTED, or is ignored (R281). -/
def execCancel (s : State) : Host.Outcome State Fault Refusal :=
  s.run fun d =>
    match d.mte.cancels with
    | [] => d
    | (n, cookie) :: rest =>
      let d := { d with mte := { d.mte with cancels := rest } }
      match d.mte.msgs.find? fun x => x.2.rts && x.2.conn == n && x.2.cookie == cookie with
      | none => (d.count 6 6).raise 0x0D05 [0, n]
      | some (_, x) =>
        if d.mte.recvs.any fun j => j.msg == x.id then d
        else ((d.removeMsg x).sendMsg n 2 1 cookie).count 6 5

/-- What happens to messages and rendezvous when a connection enters ERROR or FREE (R277, R282). -/
def Dev.mteConnGone (d : Dev) (n status : Nat) : Dev :=
  let ms := d.mte.msgs.filter fun x => x.2.conn == n
  let d := ms.foldl (fun (d : Dev) (x : Nat × Msg) =>
    match d.mte.recvs.find? fun j => j.msg == x.1 with
    | some j => if x.2.rts || !x.2.whole then d.endRecv j 7 false else d
    | none =>
      if !d.msgWaits x.2 then d.dropMsg x.1
      else if x.2.rts || !x.2.whole then (d.removeMsg x.2).count 6 9 else d) d
  let rs := d.mte.rdv.filter fun r => r.2.conn == n
  rs.foldl (fun (d : Dev) (r : Nat × Rdv) => (d.rdvDrop r.2.q r.2.idx).entryDone r.2.q r.2.idx (d.compl status)) d

end Sys2Proof.Machine
end

