-- ==== Sys2Proof/Machine/Bridge.lean ====
section
/-!
DEFINITION. The memory bridge: host requests in their line order, the extent directory and its cache, path sets, failure and
re-pathing (R340 to R365).
-/

namespace Sys2Proof.Machine

/-! The extent directory (R348). -/

/-- Entries of the directory: LOG outside 10 to 22 acts as 0, which stands for none. -/
def Dev.dirSize (d : Dev) : Nat :=
  let l := d.fld F.MBR_DIR_LO_LOG 0
  if 10 ≤ l ∧ l ≤ 22 then 2 ^ l else 0

/-- Where the entry of an extent lies in HBM. -/
def Dev.dirAt (d : Dev) (x : Nat) : Nat := d.addr57 F.MBR_DIR_LO_BASE F.MBR_DIR_HI_BASE 0 + 32 * x

def DirEnt.valid (e : DirEnt) : Bool := e.flags % 2 == 1
def DirEnt.writable (e : DirEnt) : Bool := e.flags / 2 % 2 == 1
def DirEnt.failed (e : DirEnt) : Bool := e.flags / 4 % 2 == 1

/-- Bytes 0 to 23 of an entry (Table 12-2). -/
def DirEnt.body (e : DirEnt) (x : Nat) : List Byte :=
  leBytes 4 (e.flags % 8) ++ leBytes 4 (x % 2 ^ 27) ++ leBytes 2 (e.pset % 2 ^ 12) ++ leBytes 1 e.gen ++ [0#8] ++
    leBytes 4 e.key ++ leBytes 8 (e.offset % 2 ^ 48)

/-- The COMMIT word of an entry. -/
def DirEnt.commit (e : DirEnt) (x : Nat) : List Byte :=
  leBytes 8 (x % 2 ^ 27 * 2 ^ 16 + (crc16 (e.body x)).toNat)

/-- The entry that 32 bytes hold; none where COMMIT fails its check (R355). -/
def dirOfBytes (x : Nat) (bs : List Byte) : Option DirEnt :=
  if field bs 24 8 16 27 = x ∧ field bs 4 4 0 27 = x ∧ field bs 24 8 0 16 = (crc16 (bs.take 24)).toNat then
    some { flags := field bs 0 4 0 3, pset := field bs 8 2 0 12, gen := field bs 10 1 0 8, key := field bs 12 4 0 32,
           offset := field bs 16 8 0 48 }
  else none

/-- Puts an entry in the cache of 16,384; the one put in first makes room. DEDUCED, unsafe (assumption 81). -/
def Dev.dirCache (d : Dev) (x : Nat) (e : DirEnt) : Dev :=
  let b := d.mbr
  let order := b.order.filter (· != x) ++ [x]
  let (dir, order) := if 16384 < order.length then
      match order with
      | y :: ys => (Tbl.erase b.dir y, ys)
      | [] => (b.dir, [])
    else (b.dir, order)
  { d with mbr := { b with dir := Tbl.set dir x e, order := order } }

/-- The entry of an extent in force now, from the cache or else from HBM. -/
def Dev.dirNow (d : Dev) (x : Nat) : Option DirEnt × Dev :=
  match Tbl.get d.mbr.dir x with
  | some e => (some e, d)
  | none =>
    let r := d.load .hbm (d.dirAt x) 32
    (dirOfBytes x r.1, r.2)

/-- Writes an entry, COMMIT last; a cached copy follows. -/
def Dev.dirStore (d : Dev) (x : Nat) (e : DirEnt) : Dev :=
  let d := (d.store .hbm (d.dirAt x) (e.body x)).store .hbm (d.dirAt x + 24) (e.commit x)
  if (Tbl.get d.mbr.dir x).isSome then d.dirCache x e else d

/-- A tick-aligned entry takes effect at an edge; requests accepted earlier keep the old one (R365). An extent leaves FAILED
only through POOL_EXTENT_CLEAR (R364). -/
def Dev.dirApply (d : Dev) (x : Nat) (e : DirEnt) : Dev :=
  let r := d.dirNow x
  let e := { e with flags := e.flags ||| if r.1.any (·.failed) then 4 else 0 }
  let past := r.2.mbr.past.filter fun p => r.2.mbr.reqs.any fun q => decide (q.at_ < p.2.1)
  ({ r.2 with mbr := { r.2.mbr with past := past ++ [(x, r.2.clk.edges, r.1)] } }).dirStore x e

/-- The entry under which a request accepted at boundary count `t` is served, where the one in force is `now` (R365). Whether the
extent is FAILED is as it stands now (R364). -/
def Dev.dirFor (d : Dev) (x t : Nat) (now : Option DirEnt) : Option DirEnt :=
  match d.mbr.past.find? fun p => p.1 == x && decide (t < p.2.1) with
  | some p => p.2.2.map fun e => { e with flags := e.flags % 4 + (if now.any (·.failed) then 4 else 0) }
  | none => now

/-! Requests. -/

/-- STATE of a hierarchy's bridge: 0 OFF, 1 ACTIVE, 2 DRAINING (Table 12-10). -/
def Dev.brState (d : Dev) (h : Nat) : Nat := d.fld F.MBR_HIER_STATUS_STATE h

/-- The host-lane die of a hierarchy: that of its upstream port (R371). -/
def Dev.hierDie (d : Dev) (h : Nat) : Nat := d.fld F.HSW_HIER_USP h / 24

/-- Requests of one direction that a host-lane die has outstanding (R351). -/
def Dev.brOut (d : Dev) (h : Nat) (write : Bool) : Nat :=
  (d.mbr.reqs.filter fun r => r.write == write && d.hierDie r.hier == d.hierDie h).length

/-- Request `id`. -/
def Dev.brReq (d : Dev) (id : Nat) : Option BrReq := d.mbr.reqs.find? fun r => r.id == id

/-- Changes request `id`. -/
def Dev.brMod (d : Dev) (id : Nat) (f : BrReq → BrReq) : Dev :=
  { d with mbr := { d.mbr with reqs := d.mbr.reqs.map fun r => if r.id = id then f r else r } }

/-- Whether an earlier request to its line holds a request back (R352). -/
def Dev.brBlocked (d : Dev) (r : BrReq) : Bool :=
  (d.mbr.reqs.takeWhile fun q => q.id != r.id).any fun q =>
    q.hier == r.hier && q.off / 64 == r.off / 64 && (q.write || r.write)

/-- Takes a request out; a draining bridge with no write left is OFF. -/
def Dev.brDrop (d : Dev) (id : Nat) : Dev :=
  match d.brReq id with
  | none => d
  | some r =>
    let d := { d with mbr := { d.mbr with reqs := d.mbr.reqs.filter fun q => q.id != id } }
    if d.brState r.hier = 2 ∧ d.mbr.reqs.all (fun q => q.hier != r.hier) then
      d.setFld F.MBR_HIER_STATUS_STATE r.hier 0
    else d

/-- Adds a General Media Event record for a request (R363). -/
def Dev.brRecord (d : Dev) (r : BrReq) : Dev := d.emit (.mediaEvent r.hier r.off r.write)

/-- Answers a read and ends it. -/
def Dev.brAnswer (d : Dev) (r : BrReq) (data : List Byte) (poison : Bool) : Dev :=
  (d.emit (.memData r.hier r.tag data poison)).brDrop r.id

/-- Answers a read that cannot be served (R361). DEDUCED, unsafe (assumption 79). -/
def Dev.brPoison (d : Dev) (r : BrReq) : Dev := (d.count 10 6).brAnswer r (List.replicate 64 0#8) true

/-- An extent enters FAILED (R364). -/
def Dev.brFailExtent (d : Dev) (h x conn : Nat) : Dev :=
  let r := d.dirNow x
  match r.1 with
  | none => r.2
  | some e =>
    if e.failed then r.2
    else
      let d := (r.2.dirStore x { e with flags := e.flags ||| 4 }).setFld F.MBR_STATUS_EXT_FAILED 0 1
      let d := d.fault2
      d.raise 0x1003 [h, x, conn]

/-- Fails a write (R362). DEDUCED, unsafe (assumption 80). -/
def Dev.brFailWrite (d : Dev) (r : BrReq) : Dev :=
  (((d.brRecord r).count 10 7).brFailExtent r.hier (r.pool / 2 ^ 30) r.conn).brDrop r.id

/-- A map fault (R355). -/
def Dev.brMapFault (d : Dev) (r : BrReq) : Dev :=
  let d := ((d.brRecord r).count 10 9).setFld F.MBR_STATUS_MAP_FAULT 0 1
  let d := d.raise 0x1005 [r.hier, r.pool / 2 ^ 30]
  if r.write then d.brDrop r.id else d.brPoison r

/-- The READY connections of a path set, in slot order (R349). -/
def Dev.psetReady (d : Dev) (p : Nat) : List Nat :=
  (List.range 4).filterMap fun i =>
    let n := d.fld F.MBR_PSET_CONN_CONN (4 * p + i)
    if d.flag F.MBR_PSET_CONN_VALID (4 * p + i) && (d.conn n).ready && (d.conn n).localEp == 24 then some n else none

/-- Sends a read on a connection (Table 12-3). -/
def Dev.brSendRead (d : Dev) (r : BrReq) (e : DirEnt) (n : Nat) : Dev :=
  (d.brMod r.id fun r => { r with stage := 3, conn := n, left := 1 }).addOp n
    { Op.blank (.bridge r.id) 3 with len := 64, roff := e.offset + r.pool % 2 ^ 30, rkey := e.key, rgen := e.gen }

/-- Sends a write on a connection: one PUT for each run of enabled bytes, ACKREQ on the last (Table 12-3). -/
def Dev.brSendWrite (d : Dev) (r : BrReq) (e : DirEnt) (n : Nat) : Dev :=
  let d := d.brMod r.id fun r => { r with stage := 3, conn := n, left := r.runs.length }
  (List.range r.runs.length).foldl (fun (d : Dev) (i : Nat) =>
    let run := r.runs.getD i (0, [])
    d.addOp n { Op.blank (.bridge r.id) 1 with
      len := run.2.length, roff := e.offset + r.pool % 2 ^ 30 + run.1, rkey := e.key, rgen := e.gen,
      inl := some run.2, poison := r.poison, ackReq := i + 1 == r.runs.length }) d

/-- A request meets its directory entry (R350, R355, R359, R361, R362). -/
def Dev.brEntry (d : Dev) (r : BrReq) (e : Option DirEnt) : Dev :=
  match e with
  | none => d.brMapFault r
  | some e =>
    if !e.valid then d.brMapFault r
    else if r.write && !e.writable then (d.brRecord r).brDrop r.id
    else
      let rs := d.psetReady e.pset
      let d := d.brMod r.id fun r => { r with ent := some e }
      if e.failed || rs.isEmpty then (if r.write then d.brFailWrite r else d.brPoison r)
      else
        let n := rs.getD (r.pool / 64 % 8 % rs.length) 0
        if r.write then d.brSendWrite r e n else d.brSendRead r e n

/-- A request's window offset has been translated to a pool address; its directory entry is looked up (R345, R348). -/
def Dev.brPool (d : Dev) (r : BrReq) (pool : Nat) : Dev :=
  let r := { r with pool := pool }
  let d := d.brMod r.id fun q => { q with pool := pool }
  let x := pool / 2 ^ 30
  if d.dirSize ≤ x then d.brMapFault r
  else
    match Tbl.get d.mbr.dir x with
    | some e => d.brEntry r (d.dirFor x r.at_ (some e))
    | none => (d.brMod r.id fun r => { r with stage := 2 }).count 10 3

/-- The translation of a request is at hand: it must lie in the pool (R344). -/
def Dev.brXlated (d : Dev) (id : Nat) (segs : List Seg) : Dev :=
  match d.brReq id with
  | none => d
  | some r =>
    match segs with
    | [s] => if s.space = .pool then d.brPool r s.addr else d.brMapFault r
    | _ => d.brMapFault r

/-- The translation of a request has failed. DEDUCED, unsafe (assumption 148). -/
def Dev.brFault (d : Dev) (id : Nat) : Dev :=
  match d.brReq id with
  | none => d
  | some r => d.brMapFault r

/-- Starts a request whose line is free: it is translated, an offset beyond the window being a translation fault (R342,
R344). -/
def Dev.brStart (d : Dev) (r : BrReq) : Dev :=
  let d := d.brMod r.id fun r => { r with stage := 1 }
  let c := d.fld F.MBR_HIER_CTX_XCTX r.hier
  if Tbl.getD d.mbr.shown r.hier 0 * 2 ^ 30 ≤ r.off then
    (d.walkFault c r.off 2 3 0 2 false).2.brFault r.id
  else
    match d.ask (Access.make (.mbr r.id) c (r.off / 64 * 64) 64 (if r.write then 2 else 1) 2 none) with
    | (.go segs, d) => d.brXlated r.id segs
    | (.wait, d) => d
    | (.fault _, d) => d.brFault r.id

/-- Starts the requests whose line has become free, in the order in which they arrived. -/
def Dev.brWake : Nat → Dev → Dev
  | 0, d => d
  | n + 1, d =>
    match d.mbr.reqs.find? fun r => r.stage == 0 && !d.brBlocked r with
    | none => d
    | some r => Dev.brWake n (d.brStart r)

/-- Starts whatever may start. -/
def Dev.brPump (d : Dev) : Dev := Dev.brWake (d.mbr.reqs.length + 1) d

/-- A host request is accepted (R350 to R352). A write is answered at once. -/
def Dev.brAccept (d : Dev) (h : Nat) (write : Bool) (off tag : Nat) (runs : List (Nat × List Byte)) (poison : Bool) : Dev :=
  let r : BrReq := { id := d.mbr.nextReq, hier := h, write := write, off := off, tag := tag, runs := runs,
                     poison := poison, stage := 0, pool := 0, ent := none, conn := 0, left := 0, at_ := d.clk.edges, told := false }
  let d := { d with mbr := { d.mbr with reqs := d.mbr.reqs ++ [r], nextReq := d.mbr.nextReq + 1 } }
  let d := if write then (d.count 10 1).emit (.cmp h tag) else d.count 10 0
  if d.brBlocked r then d.count 10 2 else d.brPump

/-- Whether the bridge takes a request of a hierarchy: it is presented there, and the die's limit is not reached (R351). -/
def Dev.brTakes (d : Dev) (h : Nat) (write : Bool) : Bool :=
  d.part.hasMbr && d.brState h == 1 && decide (d.brOut h write < if write then 8192 else 16384)

/-- The maximal runs of enabled bytes of a line. -/
def runsOf (mask : BitVec 64) (data : List Byte) : List (Nat × List Byte) :=
  (List.range 64).foldr (fun i rs =>
    if !mask.getLsbD i then rs
    else match rs with
      | (j, bs) :: rest => if j = i + 1 then (i, data.getD i 0#8 :: bs) :: rest else (i, [data.getD i 0#8]) :: rs
      | [] => [(i, [data.getD i 0#8])]) []

/-- MEM_RD: MemRd and MemRdData (R350). At the die's limit no request comes, since credits are withheld (R351). -/
def execMemRd (h : Hier) (off : BitVec 52) (tag : BitVec 16) (s : State) : Host.Outcome State Fault Refusal :=
  s.run fun d =>
    if d.halted then d.emit (.unsupported (4096 + h.val) false)
    else if d.brTakes h.val false then d.brAccept h.val false (off.toNat / 64 * 64) tag.toNat [] false else d

/-- MEM_WR: MemWr of a line (R350). -/
def execMemWr (h : Hier) (off : BitVec 52) (tag : BitVec 16) (data : List Byte) (poison : Bool) (s : State) :
    Host.Outcome State Fault Refusal :=
  s.runHost fun d =>
    if d.brTakes h.val true then
      d.brAccept h.val true (off.toNat / 64 * 64) tag.toNat [(0, (data ++ List.replicate 64 0#8).take 64)] poison
    else d

/-- MEM_WR_PTL: MemWrPtl; with no byte enabled it is answered and sends nothing (R350). -/
def execMemWrPtl (h : Hier) (off : BitVec 52) (tag : BitVec 16) (data : List Byte) (mask : BitVec 64) (poison : Bool)
    (s : State) : Host.Outcome State Fault Refusal :=
  s.runHost fun d =>
    if !d.brTakes h.val true then d
    else if mask = 0#64 then (d.count 10 1).emit (.cmp h.val tag.toNat)
    else d.brAccept h.val true (off.toNat / 64 * 64) tag.toNat (runsOf mask data) poison

/-- MEM_SPEC_RD: the hint is dropped (R341). -/
def execMemSpecRd (_h : Hier) (_off : BitVec 52) (s : State) : Host.Outcome State Fault Refusal := s.runHost fun d => d

/-- MEM_INV: MemInv, MemInvNT and MemClnEvct are answered Cmp and have no effect (Table 12-1). -/
def execMemInv (h : Hier) (_off : BitVec 52) (tag : BitVec 16) (s : State) : Host.Outcome State Fault Refusal :=
  s.runHost fun d => if d.part.hasMbr ∧ d.brState h.val = 1 then d.emit (.cmp h.val tag.toNat) else d

/-- EXTENT_DIRECTORY_READ_DONE: the read of an extent's entry returns, and the requests that wait for it go on. An
uncorrectable error is a map fault, of class F2 (R348, R355, R448). -/
def execExtentDirectoryReadDone (x : Nat) (ok : Bool) (s : State) : Host.Outcome State Fault Refusal :=
  s.runHost fun d =>
    let rs := d.mbr.reqs.filter fun r => r.stage == 2 && r.pool / 2 ^ 30 == x
    if rs.isEmpty then d
    else
      let (e, d) := if ok then
          let r := d.load .hbm (d.dirAt x) 32
          (dirOfBytes x r.1, r.2)
        else (none, d.fault2)
      let d := match e with
        | some e => d.dirCache x e
        | none => d
      (rs.foldl (fun (d : Dev) (r : BrReq) => d.brEntry r (if ok then d.dirFor x r.at_ e else none)) d).brPump

/-- MBR_DEADLINE: a read that has not been answered within DEADLINE ticks is answered with poison (R353). -/
def execMbrDeadline (h : Hier) (tag : BitVec 16) (s : State) : Host.Outcome State Fault Refusal :=
  s.runHost fun d =>
    let due := fun (r : BrReq) => r.at_ + max 1 (d.fld F.MBR_CFG_DEADLINE 0) ≤ d.clk.edges
    match d.mbr.reqs.find? fun r => r.hier == h.val && r.tag == tag.toNat && !r.write && decide (due r) with
    | none => d
    | some r =>
      let d := ((d.count 10 8).setFld F.MBR_STATUS_DEADLINE 0 1).raise 0x1004 [r.hier, r.pool / 2 ^ 30, r.conn]
      (d.brPoison r).brPump

/-! What the transport tells the bridge. -/

/-- An operation of a request has ended on connection `n`: a read with its line, a write acknowledged (R350, R352, R353,
R361, R362). -/
def Dev.brOpDone (d : Dev) (id n status : Nat) (data : List Byte) : Dev :=
  match d.brReq id with
  | none => d.count 10 5
  | some r =>
    if !r.write then (if status = 0 then d.brAnswer r data false else d.brPoison r).brPump
    else if r.conn ≠ n then d
    else
      let d := if status = 0 ∨ r.told then d else (d.brRecord r).brMod id fun r => { r with told := true }
      if r.left ≤ 1 then (d.brDrop id).brPump else d.brMod id fun r => { r with left := r.left - 1 }

/-- Issues the outstanding reads of a connection anew on another READY connection of their path set, or answers the rest by
R361 when `poison` is set. -/
def Dev.brReissue (d : Dev) (n : Nat) (poison : Bool) : Dev :=
  (d.mbr.reqs.filter fun r => !r.write && r.stage == 3 && r.conn == n).foldl (fun (d : Dev) (r : BrReq) =>
    match r.ent with
    | none => d
    | some e =>
      match (d.psetReady e.pset).find? (· != n) with
      | some m => (d.count 10 4).brSendRead r e m
      | none => if poison then d.brPoison r else d) d

/-- A link notice reached connection `n`: its reads are issued anew at the second edge after it (R356). -/
def Dev.brNotice (d : Dev) (n : Nat) : Dev :=
  let x := (n, d.clk.edges + 2)
  if d.mbr.repath.contains x then d else { d with mbr := { d.mbr with repath := d.mbr.repath ++ [x] } }

/-- MBR_REPATH: the second edge after a notice has come (R356). -/
def execMbrRepath (n : BitVec 24) (s : State) : Host.Outcome State Fault Refusal :=
  s.run fun d =>
    match d.mbr.repath.find? fun x => x.1 == n.toNat with
    | none => d
    | some x =>
      if d.clk.edges < x.2 then d
      else
        let d := { d with mbr := { d.mbr with repath := d.mbr.repath.erase x } }
        (d.brReissue n.toNat false).raise 0x1001 [n.toNat]

/-- Connection `n` of the bridge has entered ERROR (R358). -/
def Dev.brConnError (d : Dev) (n : Nat) : Dev :=
  let d := d.brReissue n true
  let ws := d.mbr.reqs.filter fun r => r.write && r.stage == 3 && r.conn == n
  let d := ws.foldl (fun (d : Dev) (r : BrReq) => d.brFailWrite r) d
  let d := (d.setFld F.MBR_STATUS_PATH_DEAD 0 1).raise 0x1002 [n]
  ({ d with mbr := { d.mbr with repath := d.mbr.repath.filter fun x => x.1 != n } }).brPump

/-- A hierarchy resets: responses to its reads are discarded, its writes complete (Table 12-5). -/
def Dev.brReset (d : Dev) (h : Nat) : Dev :=
  if d.brState h ≠ 1 then d
  else
    let d := { d with mbr := { d.mbr with reqs := d.mbr.reqs.filter fun r => r.hier != h || r.write } }
    (d.setFld F.MBR_HIER_STATUS_STATE h (if d.mbr.reqs.any (fun r => r.hier == h) then 2 else 0)).brPump

end Sys2Proof.Machine
end

