-- ==== Sys2Proof/Machine/Tunnel.lean ====
section
/-!
DEFINITION. Containment, and tunnels as the transport sees them: records, immediates, and what a tunnel does when its
connection becomes READY or enters ERROR (R381 to R387).
-/

namespace Sys2Proof.Machine

/-- A running command of a channel ends: COMMAND_FINISH writes its result (R429). -/
def Dev.outcome (d : Dev) (ch : Option Nat) (rc : Nat) (ws : List Word) : Dev :=
  match ch with
  | none => d
  | some ch => { d with mbx := { d.mbx with outcome := Tbl.set d.mbx.outcome ch (rc, ws) } }

/-! Containment (R387). -/

/-- The settings of a group and of a port that are in effect (R372). -/
def Dev.grpCfg (d : Dev) (g : Nat) : Word := Tbl.getD d.hsw.grp g 0#32
def Dev.portCfg (d : Dev) (n : Nat) : Word := Tbl.getD d.hsw.port n 0#32

/-- A trigger is counted and raised. -/
def Dev.dpcEvent (d : Dev) (ctx : List Nat) : Dev :=
  ((d.count 11 4).setFld F.HSW_STATUS_DPC 0 1).fault2.raise 0x1101 ctx

/-- Containment of virtual downstream port `v` of hierarchy `h`, unless it is contained. -/
def Dev.containV (d : Dev) (h v : Nat) : Dev :=
  if d.hsw.contained.contains (32 * h + v) then d
  else ({ d with hsw := { d.hsw with contained := (32 * h + v) :: d.hsw.contained } }).dpcEvent [h, v]

/-- Containment of host-lane port `n`: a DOWNSTREAM port that is up (Table 13-12). DEDUCED, unsafe (assumption 91). -/
def Dev.containPort (d : Dev) (n : Nat) : Dev :=
  if F.HSW_PORT_CFG_ROLE.ofWord (d.portCfg n) = 2 ∧ d.fld F.HSW_PORT_STATUS_STATE n ≠ 4 then
    (d.setFld F.HSW_PORT_STATUS_STATE n 4).dpcEvent [n]
  else d

/-! Tunnels. -/

/-- A tunnel side beside its registers, before it is opened. -/
def Tun.reset : Tun :=
  { chan := none, base := 0, key := 0, gen := 0, peerKey := 0, peerGen := 0, written := [], released := [],
    announced := [], freed := [], reported := [], imms := [], resv := 0, link := false, present := false, hot := false,
    waiting := [] }

/-- A tunnel side as its connection is opened: nothing written, announced or released (R383). -/
def Tun.fresh (x : Tun) : Tun :=
  { Tun.reset with chan := x.chan, base := x.base, key := x.key, gen := x.gen, peerKey := x.peerKey, peerGen := x.peerGen,
                   hot := x.hot }

/-- Tunnel `t`. -/
def Dev.tun (d : Dev) (t : Nat) : Tun := Tbl.getD d.hsw.tuns t Tun.reset

/-- Changes tunnel `t`. -/
def Dev.modTun (d : Dev) (t : Nat) (f : Tun → Tun) : Dev :=
  { d with hsw := { d.hsw with tuns := Tbl.set d.hsw.tuns t (f (d.tun t)) } }

/-- STATE of a tunnel: 0 FREE, 1 OPENING, 2 OPEN, 3 FAILED (Table 13-15). -/
def Dev.tunState (d : Dev) (t : Nat) : Nat := d.fld F.HSW_TUN_STATUS_STATE t

/-- Whether this is the device side of a tunnel. -/
def Dev.tunDev (d : Dev) (t : Nat) : Bool := d.flag F.HSW_TUN_STATUS_SIDE t

/-- The tunnel that connection `n` carries; a device side that waits for an OPEN has no connection yet. -/
def Dev.tunOf (d : Dev) (n : Nat) : Option Nat :=
  (List.range 64).find? fun t =>
    (d.tunState t == 2 || (d.tunState t == 1 && !d.tunDev t)) && d.fld F.HSW_TUN_CONN_CONN t == n

/-- A record of Table 13-4: kind, event and TLP. -/
def tunBytes (kind event : Nat) (tlp : List Byte) : List Byte :=
  leBytes 2 tlp.length ++ leBytes 1 kind ++ leBytes 1 event ++ List.replicate 4 0#8 ++ tlp ++
    List.replicate ((8 - tlp.length % 8) % 8) 0#8

/-- The PAD that a record of `s` bytes needs before it in an area, in bytes (R382). -/
def Dev.tunPad (d : Dev) (t area s : Nat) : Nat :=
  let rest := 65536 - Tbl.getD (d.tun t).written area 0 % 65536
  if rest < s then rest else 0

/-- Whether a record of `s` bytes, with the PAD it needs, has room in its area (R383). -/
def Dev.tunRoom (d : Dev) (t area s : Nat) : Bool :=
  let x := d.tun t
  decide (Tbl.getD x.written area 0 + d.tunPad t area s + s ≤ Tbl.getD x.released area 0 + 65536)

/-- Writes bytes to the peer's area, followed by the data immediate (R382, R383). -/
def Dev.tunPut (d : Dev) (t area : Nat) (bs : List Byte) : Dev :=
  let x := d.tun t
  let w := Tbl.getD x.written area 0
  let imm := area * 2 ^ 30 + (w + bs.length) % 2 ^ 30
  let d := d.modTun t fun x => { x with written := Tbl.set x.written area (w + bs.length) }
  d.addOp (d.fld F.HSW_TUN_CONN_CONN t)
    { Op.blank (.tunnel t) 2 with
      len := bs.length, roff := area * 65536 + w % 65536, rkey := x.peerKey, rgen := x.peerGen, imm := imm, inl := some bs }

/-- Sends a record, a PAD before it where it does not fit before the end of the area. -/
def Dev.tunSend (d : Dev) (t area : Nat) (bs : List Byte) : Dev :=
  let pad := d.tunPad t area bs.length
  let d := if pad = 0 then d
    else (d.tunPut t area (leBytes 2 (pad - 8) ++ [1#8] ++ List.replicate (pad - 3) 0#8)).count 11 5
  (d.tunPut t area bs).count 11 5

/-- Sends the CONTROL records that have room, in order (Table 13-4, R383). -/
def Dev.tunFlush : Nat → Dev → Nat → Dev
  | 0, d, _ => d
  | n + 1, d, t =>
    match (d.tun t).waiting with
    | [] => d
    | e :: es =>
      if d.tunRoom t 0 8 then Dev.tunFlush n ((d.modTun t fun x => { x with waiting := es }).tunSend t 0 (tunBytes 2 e [])) t
      else d

/-- Sends a CONTROL record, or keeps it until its area has room. DEDUCED, unsafe (assumption 89). -/
def Dev.tunControl (d : Dev) (t event : Nat) : Dev :=
  Dev.tunFlush ((d.tun t).waiting.length + 1) (d.modTun t fun x => { x with waiting := x.waiting ++ [event] }) t

/-- Sends a report of the bytes released from an area (R383). -/
def Dev.tunReport (d : Dev) (t area : Nat) : Dev :=
  let f := Tbl.getD (d.tun t).freed area 0
  (d.modTun t fun x => { x with reported := Tbl.set x.reported area f }).addOp (d.fld F.HSW_TUN_CONN_CONN t)
    { Op.blank (.tunnel t) 2 with imm := 3 * 2 ^ 30 + area * 2 ^ 28 + f % 2 ^ 28 }

/-- The connection of a tunnel is READY (Table 13-5): the device side sends PRESENT, and LINK_UP when its port is up; a
HOT_RESET that waited is sent. -/
def Dev.tunReady (d : Dev) (t : Nat) : Dev :=
  if d.tunState t ≠ 1 then d
  else
    let d := d.setFld F.HSW_TUN_STATUS_STATE t 2
    let ch := (d.tun t).chan
    let d := (d.modTun t fun x => { x with chan := none }).outcome ch 0 []
    if d.tunDev t then
      let d := d.tunControl t 4
      if d.fld F.HSW_PORT_STATUS_STATE (d.fld F.HSW_TUN_STATUS_PORT t) = 3 then d.tunControl t 1 else d
    else if (d.tun t).hot then (d.modTun t fun x => { x with hot := false }).tunControl t 3
    else d

/-- The connection of a tunnel has entered ERROR (Table 13-5, R387). -/
def Dev.tunConnError (d : Dev) (t : Nat) : Dev :=
  if d.tunState t ≠ 2 then d
  else
    let d := ((d.setFld F.HSW_TUN_STATUS_STATE t 3).count 11 7).fault2.raise 0x1105 [t]
    let d := d.modTun t fun x => { x with link := false }
    if d.tunDev t then d.containPort (d.fld F.HSW_TUN_STATUS_PORT t)
    else d.containV (d.fld F.HSW_TUN_STATUS_HIER t) (d.fld F.HSW_TUN_STATUS_VDSP t)

/-- The OPEN of a tunnel's connection was refused or not answered: the command fails and the tunnel is FREE. -/
def Dev.tunRefused (d : Dev) (t rc : Nat) : Dev :=
  let ch := (d.tun t).chan
  let h := d.fld F.HSW_TUN_STATUS_HIER t
  let k := 32 * h + d.fld F.HSW_TUN_STATUS_VDSP t
  let d := if ch.isSome then d.setFld F.HSW_TUN_STATUS_STATE t 0 else d.setFld F.HSW_TUN_STATUS_STATE t 3
  let d := if ch.isSome && !d.tunDev t then { d with hsw := { d.hsw with vdsp := Tbl.erase d.hsw.vdsp k } } else d
  (d.modTun t fun x => { x with chan := none }).outcome ch rc []

/-- Reserves one of the 1,024 NOTIFY entries that the host switch keeps for a tunnel (R381); false when none is left. -/
def Dev.tunReserve (d : Dev) (t : Nat) : Bool × Dev :=
  let x := d.tun t
  if 1024 ≤ x.resv + x.imms.length then (false, d)
  else (true, d.modTun t fun x => { x with resv := x.resv + 1 })

/-- An immediate of a tunnel commits (R384). -/
def Dev.tunImm (d : Dev) (t imm : Nat) : Dev :=
  d.modTun t fun x => { x with imms := x.imms ++ [imm], resv := x.resv - 1 }

/-- This side's staging region, when a key names it (R382): in the tunnel domain, with REMOTE_WRITE alone. -/
def Dev.tunRegion (d : Dev) (t key : Nat) : Option Region :=
  let x := d.tun t
  if key ≠ x.key then none
  else some { ver := { ProtVer.off with attr := F.XLT_RGN_ATTR_RIGHTS.put (F.XLT_RGN_ATTR_GEN.put 0#32 x.gen) 8
                                        owner := F.XLT_RGN_OWNER_PD.put 0#32 (d.fld F.HSW_CFG_TUN_PD 0)
                                        len := 196608 }
              xctx := 0, base := x.base, staging := true }

end Sys2Proof.Machine
end

