-- ==== Sys2Proof/Machine/Items.lean ====
section
/-!
DEFINITION. The dispatch queues of the hedgerows, as the units that feed them see them (R403, R404, R422).
-/

namespace Sys2Proof.Machine

/-- Dispatch queue of a hedgerow. -/
def Dev.dispatchQ (d : Dev) (h : Nat) : List Item := Tbl.getD d.eng.queues h []

/-- Stores a dispatch queue; QUEUE of `PWR_HR` follows. -/
def Dev.setDispatchQ (d : Dev) (h : Nat) (xs : List Item) : Dev :=
  ({ d with eng := { d.eng with queues := Tbl.set d.eng.queues h xs } }).setFld F.PWR_HR_QUEUE h xs.length

/-- STATE of a package slot: 0 EMPTY, 1 LOADED, 2 ENABLED, 3 DRAINING (Table 14-6). -/
def Dev.pkgState (d : Dev) (k : Nat) : Nat := d.fld F.ENG_PKG_STATUS_STATE k

/-- Whether hedgerow `h` is in the mask of slot `k`. -/
def Dev.pkgHas (d : Dev) (k h : Nat) : Bool :=
  if h < 32 then (d.rd .ENG_PKG_HR_LO k).getLsbD h else (d.rd .ENG_PKG_HR_HI k).getLsbD (h - 32)

/-- The slot that serves an endpoint. -/
def Dev.pkgOf (d : Dev) (e : Nat) : Option Nat :=
  if e < 25 ∨ 30 < e then none
  else (List.range 6).find? fun k => decide (2 ≤ d.pkgState k) && d.fld F.ENG_PKG_STATUS_ENDPOINT k == e

/-- The hedgerow a work item of slot `k` goes to: of those in its mask the one with the fewest queued items, ties to the
lowest number (R404). -/
def Dev.itemHr (d : Dev) (k : Nat) : Option Nat :=
  ((List.range 64).filter (d.pkgHas k)).foldl (fun (m : Option Nat) h =>
    match m with
    | none => some h
    | some g => if (d.dispatchQ h).length < (d.dispatchQ g).length then some h else some g) none

/-- Routes a work item; none when its queue is full. -/
def Dev.addItem (d : Dev) (x : Item) : Option Dev :=
  match d.itemHr x.slot with
  | none => none
  | some h => if 256 ≤ (d.dispatchQ h).length then none else some ((d.setDispatchQ h (d.dispatchQ h ++ [x])).wake h)

/-- Changes or drops the packet items of a connection that satisfy `p`. -/
def Dev.packetItems (d : Dev) (p : Item → Bool) (f : Item → Option Item) : Dev :=
  d.eng.queues.foldl (fun (d : Dev) (q : Nat × List Item) =>
    if q.2.any p then d.setDispatchQ q.1 (q.2.filterMap fun x => if p x then f x else some x) else d) d

/-- A packet's item is ready: its packet has committed. -/
def Dev.itemReady (d : Dev) (n psn : Nat) : Dev :=
  d.packetItems (fun x => x.src == 0 && x.a == n && x.b == psn && !x.ready) fun x => some { x with ready := true }

/-- Releases the reservation of a packet that did not commit. -/
def Dev.itemDrop (d : Dev) (n psn : Nat) : Dev :=
  d.packetItems (fun x => x.src == 0 && x.a == n && x.b == psn && !x.ready) fun _ => none

/-- Releases every reservation of a connection's packets. -/
def Dev.itemDropConn (d : Dev) (n : Nat) : Dev :=
  d.packetItems (fun x => x.src == 0 && x.a == n && !x.ready) fun _ => none

end Sys2Proof.Machine
end

