-- ==== Sys2Proof/Machine/Arith.lean ====
section
/-!
DEFINITION. Arithmetic of the reduction units: fast combinations (R304), exact accumulators (R306, R308), rounding (R309), and the
stream of exact partials (R307). A finite floating-point value is held as a whole number of its smallest subnormals.
-/

namespace Sys2Proof.Machine

/-- Bytes of an element: DTYPE 0 FP64, 1 FP32, 2 BF16, 3 INT64, 4 INT32 (Table 07-7). -/
def elSize (dt : Nat) : Nat := match dt with
  | 0 => 8
  | 1 => 4
  | 2 => 2
  | 3 => 8
  | _ => 4

/-- Fraction bits and exponent bits of a floating-point type. -/
def fpMan (dt : Nat) : Nat := match dt with
  | 0 => 52
  | 1 => 23
  | _ => 7

def fpExp (dt : Nat) : Nat := if dt = 0 then 11 else 8

def isFp (dt : Nat) : Bool := decide (dt < 3)

/-- Sign, exponent and fraction. -/
def fpSign (dt x : Nat) : Bool := x / 2 ^ (fpMan dt + fpExp dt) % 2 == 1
def fpE (dt x : Nat) : Nat := x / 2 ^ fpMan dt % 2 ^ fpExp dt
def fpF (dt x : Nat) : Nat := x % 2 ^ fpMan dt

def fpIsNan (dt x : Nat) : Bool := fpE dt x == 2 ^ fpExp dt - 1 && fpF dt x != 0
def fpIsInf (dt x : Nat) : Bool := fpE dt x == 2 ^ fpExp dt - 1 && fpF dt x == 0

/-- The canonical quiet NaN (R304). -/
def fpNan (dt : Nat) : Nat := match dt with
  | 0 => 0x7FF8000000000000
  | 1 => 0x7FC00000
  | _ => 0x7FC0

/-- An infinity. -/
def fpInf (dt : Nat) (neg : Bool) : Nat :=
  (2 ^ fpExp dt - 1) * 2 ^ fpMan dt + (if neg then 2 ^ (fpMan dt + fpExp dt) else 0)

/-- The magnitude of a finite value in smallest subnormals. -/
def fpMag (dt x : Nat) : Nat :=
  if fpE dt x = 0 then fpF dt x else (2 ^ fpMan dt + fpF dt x) * 2 ^ (fpE dt x - 1)

/-- A finite value in smallest subnormals. -/
def fpVal (dt x : Nat) : Int := if fpSign dt x then -(fpMag dt x : Int) else fpMag dt x

/-- Rounds a magnitude to nearest, ties to even: `n` counts units of 2^-`x` smallest subnormals. Overflow gives infinity. -/
def fpRound (dt x : Nat) (neg : Bool) (n : Nat) : Nat :=
  let s := max x (Nat.log2 n - fpMan dt)
  let q := n / 2 ^ s
  let r := n % 2 ^ s
  let up := decide (2 ^ s < 2 * r) || (decide (2 * r = 2 ^ s) && q % 2 == 1 && decide (s ≠ 0))
  let q := if up then q + 1 else q
  let w := (s - x) * 2 ^ fpMan dt + q
  if fpInf dt false ≤ w then fpInf dt neg else w + (if neg then 2 ^ (fpMan dt + fpExp dt) else 0)

/-- IEEE 754 addition, rounded to nearest, ties to even (Table 10-5). -/
def fpAdd (dt x y : Nat) : Nat :=
  if fpIsNan dt x || fpIsNan dt y then fpNan dt
  else if fpIsInf dt x && fpIsInf dt y then (if x = y then x else fpNan dt)
  else if fpIsInf dt x then x
  else if fpIsInf dt y then y
  else
    let v := fpVal dt x + fpVal dt y
    if v = 0 then (if fpSign dt x && fpSign dt y then 2 ^ (fpMan dt + fpExp dt) else 0)
    else fpRound dt 0 (decide (v < 0)) v.natAbs

/-- The order of floating-point values: -0 is less than +0. -/
def fpKey (dt x : Nat) : Int :=
  let m : Int := fpE dt x * 2 ^ fpMan dt + fpF dt x
  if fpSign dt x then -m - 1 else m

/-- A two's-complement value of `w` bits. -/
def signed (w x : Nat) : Int := if x < 2 ^ (w - 1) then x else (x : Int) - 2 ^ w

/-- One fast combination (Table 10-5): ROP 0 sum, 1 min, 2 max, 3 and, 4 or, 5 xor. -/
def fastOp (dt rop x y : Nat) : Nat :=
  let w := 8 * elSize dt
  match rop with
  | 0 => if isFp dt then fpAdd dt x y else (x + y) % 2 ^ w
  | 1 =>
    if isFp dt then
      if fpIsNan dt x || fpIsNan dt y then fpNan dt else if fpKey dt x ≤ fpKey dt y then x else y
    else if signed w x ≤ signed w y then x else y
  | 2 =>
    if isFp dt then
      if fpIsNan dt x || fpIsNan dt y then fpNan dt else if fpKey dt y ≤ fpKey dt x then x else y
    else if signed w y ≤ signed w x then x else y
  | 3 => x &&& y
  | 4 => x ||| y
  | _ => x ^^^ y

/-! Exact accumulators. -/

/-- Smallest subnormals of a type in units of bit 0 of its accumulator (Table 10-6): BF16 shares the FP32 format. -/
def accShift (dt : Nat) : Nat := if dt = 2 then 16 else 0

/-- Converts a local input element exactly (R308). -/
def exactOf (dt x : Nat) : El :=
  if fpIsNan dt x then { num := 0, flags := 9 }
  else if fpIsInf dt x then { num := 0, flags := if fpSign dt x then 12 else 10 }
  else
    { num := fpVal dt x * 2 ^ accShift dt
      flags := if fpSign dt x && fpMag dt x == 0 then 0 else 8 }

/-- Adds a partial (R308). -/
def El.add (a b : El) : El := { num := a.num + b.num, flags := a.flags ||| b.flags }

/-- Rounds an exact sum once (R309). -/
def El.round (a : El) (dt : Nat) : Nat :=
  let bit := fun (i : Nat) => a.flags / 2 ^ i % 2 == 1
  if bit 0 || (bit 1 && bit 2) then fpNan dt
  else if bit 1 then fpInf dt false
  else if bit 2 then fpInf dt true
  else if a.num = 0 then (if bit 3 then 0 else 2 ^ (fpMan dt + fpExp dt))
  else fpRound dt (accShift dt) (decide (a.num < 0)) a.num.natAbs

/-! Exact partials (R307, Table 10-7). -/

/-- Limbs of an accumulator, bytes of a descriptor, and the exponent that bounds a magnitude. -/
def limbs (dt : Nat) : Nat := if dt = 0 then 34 else 6
def descBytes (dt : Nat) : Nat := if dt = 0 then 5 else 2
def magBits (dt : Nat) : Nat := if dt = 0 then 2175 else 383

/-- Limb `i` of a magnitude. -/
def limb (m i : Nat) : Nat := m / 2 ^ (64 * i) % 2 ^ 64

/-- Encodes one element; every zero limb is omitted. -/
def El.encode (a : El) (dt : Nat) : List Byte :=
  let m := a.num.natAbs
  let is := (List.range (limbs dt)).filter fun i => limb m i != 0
  let mask : Nat := is.foldl (fun (s i : Nat) => s + 2 ^ i) 0
  let sign : Nat := if a.num < 0 then 1 else 0
  let l := limbs dt
  leBytes (descBytes dt) (mask + sign * 2 ^ limbs dt + a.flags % 16 * 2 ^ (l + 1)) ++
    is.flatMap fun i => leBytes 8 (limb m i)

/-- Decodes one element: the element, the rest, and the limbs read; none where it is malformed. -/
def decodeEl (dt : Nat) (bs : List Byte) : Option (El × List Byte × Nat) :=
  let k := descBytes dt
  let l := limbs dt
  let w := leNat (bs.take k)
  if bs.length < k ∨ w / 2 ^ (l + 5) ≠ 0 then none
  else
    let is := (List.range l).filter fun i => w / 2 ^ i % 2 == 1
    let rest := bs.drop k
    if rest.length < 8 * is.length then none
    else
      let ns := (List.range is.length).map fun j => leNat ((rest.drop (8 * j)).take 8)
      let m : Nat := (is.zip ns).foldl (fun (s : Nat) (x : Nat × Nat) => s + x.2 * 2 ^ (64 * x.1)) 0
      if 2 ^ magBits dt ≤ m then none
      else
        some ({ num := if w / 2 ^ l % 2 = 1 then -(m : Int) else m, flags := w / 2 ^ (l + 1) % 16 },
          rest.drop (8 * is.length), is.length)

/-- Decodes the stream of a block of `n` elements, which must end with them. -/
def decodeEls (dt : Nat) : Nat → List Byte → Nat → Option (List El × Nat)
  | 0, bs, k => if bs.isEmpty then some ([], k) else none
  | n + 1, bs, k =>
    match decodeEl dt bs with
    | none => none
    | some (e, rest, j) =>
      match decodeEls dt n rest (k + j) with
      | none => none
      | some (es, k) => some (e :: es, k)

/-- The elements that the bytes of a block hold. -/
def elsOf (dt n : Nat) (bs : List Byte) : List Nat :=
  (List.range n).map fun i => leNat ((bs.drop (elSize dt * i)).take (elSize dt))

end Sys2Proof.Machine
end

