-- ==== Sys2Proof/Machine/Lock.lean ====
section
/-!
DEFINITION. The hardware queued locks (R441 to R443).
-/

namespace Sys2Proof.Machine

/-- The lock numbered `l`. -/
def Dev.lockOf (d : Dev) (l : Nat) : Lock := Tbl.getD d.locks l Lock.free

/-- Puts lock `l` back. -/
def Dev.putLock (d : Dev) (l : Nat) (k : Lock) : Dev := { d with locks := Tbl.set d.locks l k }

/-- Whether waiter `a` comes before waiter `b`: the higher priority, then the lower requester number (R442). -/
def waitsBefore (a b : Nat × Nat) : Bool := decide (b.2 < a.2) || (a.2 == b.2 && decide (a.1 ≤ b.1))

/-- The waiter a release grants the lock to (R442). -/
def Lock.next (k : Lock) : Option (Nat × Nat) :=
  k.waiters.foldl (fun best w => match best with
    | none => some w
    | some b => if waitsBefore b w then some b else some w) none

/-- The result of a grant: POISONED while POISON is 1 (Table 15-12). -/
def Lock.grant (k : Lock) (q : Nat) : Lock :=
  { k with holder := some q, waiters := k.waiters.filter (fun w => w.1 != q),
           last := Tbl.set k.last q (if k.poison then 4 else 1) }

/-- The lock passes to the next waiter, or becomes FREE (R442). -/
def Lock.pass (k : Lock) : Lock :=
  match k.next with
  | some w => k.grant w.1
  | none => { k with holder := none }

/-- Gives requester `q` a result. -/
def Lock.result (k : Lock) (q r : Nat) : Lock := { k with last := Tbl.set k.last q r }

/-- ACQUIRE by requester `q` (Table 15-12). -/
def Dev.lockAcquire (d : Dev) (l q prio : Nat) : Dev :=
  let k := d.lockOf l
  match k.holder with
  | none => d.putLock l (k.grant q)
  | some h =>
    if h = q ∨ k.waiters.any (fun w => w.1 == q) then d
    else if k.waiters.length < 32 then d.putLock l ({ k with waiters := k.waiters ++ [(q, prio)] }.result q 2)
    else (d.putLock l (k.result q 3)).raise 0x0303 [l, q]

/-- RELEASE by requester `q` (Table 15-12). -/
def Dev.lockRelease (d : Dev) (l q : Nat) : Dev :=
  let k := d.lockOf l
  if k.holder = some q then d.putLock l (k.pass.result q 0)
  else d.putLock l ({ k with waiters := k.waiters.filter (fun w => w.1 != q) }.result q 5)

/-- FORCE_RELEASE of `target` by requester `q`, whose right has been checked (Table 15-12). -/
def Dev.lockForce (d : Dev) (l q target : Nat) : Dev :=
  let k := d.lockOf l
  if k.holder = some target then (d.putLock l (k.pass.result q 0)).raise 0x0301 [l, target]
  else d.putLock l (k.result q 5)

/-- CLEAR_POISON (Table 15-12). -/
def Dev.lockClear (d : Dev) (l q : Nat) : Dev := d.putLock l ({ d.lockOf l with poison := false }.result q 0)

/-- A reset of requesters that begin it together: their waits are removed, and every lock one of them holds is released with
POISON set (R443). -/
def Dev.lockResets (d : Dev) (qs : List Nat) : Dev :=
  d.locks.foldl (fun d e =>
    let k := { e.2 with waiters := e.2.waiters.filter (fun w => !qs.contains w.1) }
    match k.holder with
    | some q =>
      if qs.contains q then (d.putLock e.1 { k with poison := true }.pass).raise 0x0302 [e.1, q] else d.putLock e.1 k
    | none => d.putLock e.1 k) d

/-- The requester number of an access path: its channel, or 5,248 for the control complex (R441). -/
def lockRequester : Src → Nat
  | .fw => 5248
  | src => src.fn

/-- Whether a path may operate lock `l` through `LCK_OP`: physical functions on locks assigned to them, and the control
complex (R441, R444). -/
def Dev.mayLock (d : Dev) (src : Src) (l : Nat) : Bool :=
  match src with
  | .fw => true
  | .pf _ => decide (d.level src ≤ 1) && Tbl.get d.own.lock l == some src.fn
  | _ => false

/-- Whether a path may force a release from `target`: L1 for holders of its function and that function's virtual
functions, L0 for any (Table 15-12). -/
def Dev.mayForce (d : Dev) (src : Src) (target : Nat) : Bool :=
  match d.level src, src with
  | 0, _ => true
  | 1, .pf h => target == src.fn || Tbl.get d.own.vfHier target == some h.val
  | _, _ => false

/-- ACQUIRE: grants a free lock, queues the requester, or reports QUEUE_FULL (R441). -/
def execAcquire (src : Src) (l : Fin 4096) (prio : Fin 8) (s : State) : Host.Outcome State Fault Refusal :=
  s.run fun d => if d.mayLock src l.val then d.lockAcquire l.val (lockRequester src) prio.val else d

/-- RELEASE: passes the lock to the highest-priority waiter, or frees it (R442). -/
def execRelease (src : Src) (l : Fin 4096) (s : State) : Host.Outcome State Fault Refusal :=
  s.run fun d => if d.mayLock src l.val then d.lockRelease l.val (lockRequester src) else d

/-- FORCE_RELEASE: releases the lock from the named holder (R441). -/
def execForceRelease (src : Src) (l : Fin 4096) (target : BitVec 13) (s : State) : Host.Outcome State Fault Refusal :=
  s.run fun d =>
    if d.mayLock src l.val && d.mayForce src target.toNat then d.lockForce l.val (lockRequester src) target.toNat else d

/-- CLEAR_POISON: clears a lock's POISON flag, at L1 and L0 (R441). -/
def execClearPoison (src : Src) (l : Fin 4096) (s : State) : Host.Outcome State Fault Refusal :=
  s.run fun d => if d.mayLock src l.val && decide (d.level src ≤ 1) then d.lockClear l.val (lockRequester src) else d

end Sys2Proof.Machine
end

