-- ==== Sys2Proof/Machine/Transport.lean ====
section
/-!
DEFINITION. How operations end, and how a connection ends: completions, acknowledgements, ERROR and FREE (R172, R185, R188 to
R190, R227).
-/

namespace Sys2Proof.Machine

/-! The end of an operation. -/

/-- Whether an operation is complete on its connection (Table 07-9, R185). -/
def Op.complete (o : Op) (c : Conn) : Bool :=
  if o.fault ≠ 0 ∧ o.nsent = 0 then o.placing.isEmpty
  else if o.kind = 3 ∨ o.kind = 4 then o.nsent == 1 && o.awaited.isEmpty && o.placing.isEmpty
  else o.nsent == o.npk && decide (o.first + o.npk ≤ c.sndUna)

/-- The status an operation ends with: a local fault, the syndrome of the lowest PSN that carried one (R256), or POISONED
for a GET or ATOMIC with a poisoned response (R184, R255). -/
def Op.status (o : Op) : Nat :=
  if o.fault ≠ 0 then o.fault
  else match o.synd with
    | some (st, _) => st
    | none => if (o.kind = 3 ∨ o.kind = 4) ∧ o.poison then 8 else 0

/-- LENGTH of an operation's completion (Table 07-9). -/
def Op.doneLen (o : Op) : Nat := if o.kind = 4 then 8 else o.len

/-- Tells the owner of an operation on connection `n` that it has ended with a status. -/
def Dev.finishOp (d : Dev) (n : Nat) (o : Op) (status : Nat) : Dev :=
  match o.own with
  | .entry q idx =>
    let rdv := ((d.queue q).at_ idx).bind (·.rdv)
    let d := if o.retried then d.modQueue q fun x => x.modAt idx fun e => { e with retried := true } else d
    let d := if o.nsent = 0 then d.modQueue q fun x => x.modAt idx fun e => { e with started := false } else d
    match rdv with
    | some i =>
      if status = 0 then d.rdvAcked q idx i
      else (d.rdvDrop q idx).entryDone q idx (d.compl status)
    | none =>
      d.entryDone q idx { d.compl status with
        len := if status = 0 then o.doneLen else 0, val := if status = 0 then o.val else 0#64 }
  | .pull q idx => d.pullDone q idx status (status != 7)
  | .msg => d
  | .bridge id => d.brOpDone id n status ((Tbl.getD o.data 0 ([], false)).1)
  | .tunnel _ => d

/-- Ends the operations of a connection that are complete, in their order. -/
def Dev.settleOps (d : Dev) (n : Nat) : Dev :=
  let c := d.conn n
  let done := c.ops.filter fun o => o.complete c
  if done.isEmpty then d
  else
    let d := d.modConn n fun c => { c with ops := c.ops.filter fun o => !o.complete c }
    done.foldl (fun (d : Dev) (o : Op) => d.finishOp n o o.status) d

/-! Entries of work queues that address a connection. -/

/-- Entries of SEND queues that address connection `n` and satisfy `p`. -/
def Dev.connEntries (d : Dev) (n : Nat) (p : Entry → Bool) : List (Nat × Nat) :=
  d.wq.flatMap fun q => (q.2.taken.filter fun e =>
    e.done.isNone && p e && (e.key.map (·.1)) == some (4 * n)).map fun e => (q.1, e.idx)

/-- Completes ABORTED the entries that address connection `n` and have not started (Table 06-2, R190). -/
def Dev.abortWaiting (d : Dev) (n : Nat) : Dev :=
  (d.connEntries n fun e => !e.started).foldl (fun (d : Dev) (x : Nat × Nat) => d.entryDone x.1 x.2 (d.compl 1)) d

/-! The end of a connection. -/

/-- Whether an access that waits belongs to connection `n`. -/
def Cont.ofConn (k : Cont) (n : Nat) : Bool :=
  match k with
  | .put c _ => c == n
  | .commit c _ => c == n
  | .again c _ _ _ => c == n
  | .src c _ _ => c == n
  | .dst c _ _ _ => c == n
  | _ => false

/-- `TRN_MISS.OCC` and `TRN_REORDER.OCC` follow the stores, with the highest occupancy since HIGH was read. -/
def Dev.storeSync (d : Dev) : Dev :=
  let m := d.trn.miss.length
  let r := d.trn.conns.foldl (fun k c => k + (c.2.rcvd.filter fun x => x.2.kept).length) 0
  let d := (d.setFld F.TRN_MISS_OCC 0 m).setFld F.TRN_MISS_HIGH 0 (max m (d.fld F.TRN_MISS_HIGH 0))
  (d.setFld F.TRN_REORDER_OCC 0 r).setFld F.TRN_REORDER_HIGH 0 (max r (d.fld F.TRN_REORDER_HIGH 0))

/-- Gives up everything the receive side of a connection holds: packets, reservations, reads and waiting accesses. -/
def Dev.dropReceive (d : Dev) (n : Nat) : Dev :=
  let rs := (d.conn n).rcvd
  let d := rs.foldl (fun (d : Dev) (r : Nat × Rcvd) =>
    match r.2.notify with
    | some (q, idx) => d.modQueue q fun x => x.modAt idx fun e => { e with reserved := false, key := none }
    | none => d) d
  let d := (d.mte.resv.filter fun r => r.1 / 2 ^ 24 == n).foldl (fun (d : Dev) (r : Nat × Nat × Option Nat) =>
    d.freeSlot r.2.1 r.2.2) d
  let d := { d with mte := { d.mte with resv := d.mte.resv.filter fun r => r.1 / 2 ^ 24 != n } }
  let d := d.itemDropConn n
  let d := match d.tunOf n with
    | some t => d.modTun t fun x => { x with resv := 0 }
    | none => d
  let d := d.modConn n fun c =>
    { c with rcvd := [], rcvMap := 0#256, stream := none, acc := 0, ece := false, marked := 0, resps := [] }
  let d := { d with trn := { d.trn with gets := d.trn.gets.filter (fun g => g.conn != n) }
                    xlt := { d.xlt with wait := d.xlt.wait.filter fun a => !a.cont.ofConn n } }
  d.storeSync

/-- Takes every operation from a connection and ends them, with `sent` for those that have an unacknowledged PSN or await a response
and `rest` for the others (R190). The bridge hears of its own by R358. -/
def Dev.endOps (d : Dev) (n sent rest : Nat) : Dev :=
  let c := d.conn n
  let d := d.modConn n fun c => { c with ops := [], resend := [], sent := [], busy := none, notice := [] }
  c.ops.foldl (fun (d : Dev) (o : Op) =>
    match o.own with
    | .bridge _ => d
    | .pull q idx => d.pullDone q idx 7 false
    | _ =>
      let out := (o.nsent ≠ 0 ∧ c.sndUna < o.first + o.nsent) ∨ o.awaited ≠ []
      d.finishOp n o (if out then sent else rest)) d

/-- A connection enters ERROR (R190, R200): a fault of class F2 when its context was bad. DEDUCED, unsafe (assumption 58). -/
def Dev.connError (d : Dev) (n : Nat) : Dev :=
  let d := d.modConn n fun c => { c with state := 5 }
  let d := ((d.dropReceive n).count 4 15).fault2
  let d := (d.endOps n 7 1).abortWaiting n
  let d := (d.mteConnGone n 7).raise 0x0B01 [n]
  let ch := (d.conn n).chan
  let d := if ch.isSome then (d.modConn n fun c => { c with chan := none }).outcome ch 5 [] else d
  let d := if (d.conn n).localEp = 24 then d.brConnError n else d
  match d.tunOf n with
  | some t => d.tunConnError t
  | none => d

/-- The slot of a path set that names connection `n` is emptied. -/
def Dev.psetForget (d : Dev) (n : Nat) : Dev :=
  (List.range 16384).foldl (fun (d : Dev) (i : Nat) =>
    if (d.rd .MBR_PSET_CONN i) = BitVec.ofNat 32 (2 ^ 31 + n) then d.setReg .MBR_PSET_CONN i 0#32 else d) d

/-- A context enters FREE; one that is not resident is written back, so that its record does not bring it back (R174, R193).
INCARN rises, the number waits among those freed, and what was in flight is ABORTED (R173, R174, Table 06-2). A command that
waited for it ends with `rc`. -/
def Dev.connFree (d : Dev) (n rc : Nat) : Dev :=
  let was := d.conn n
  let d := (d.dropReceive n).endOps n 1 1
  let d := (d.abortWaiting n).mteConnGone n 1
  let d := d.modConn n fun c =>
    { Conn.reset with inc := (c.inc + 1) % 256, resident := c.resident, used := c.used, wbSeq := c.wbSeq }
  let d := { d with trn := { d.trn with freed := d.trn.freed.filter (· != n) ++ [n]
                                        evict := d.trn.evict.filter (· != n) } }.arbDrop 5 n
  let d := if was.resident || d.tierKind (n / 2 ^ 20) == 0 then d else d.writeBack n
  let d := if was.localEp = 24 then
      let reads := d.mbr.reqs.filter fun r => r.stage == 3 && r.conn == n
      if reads.isEmpty then d else d.brConnError n
    else d
  let d := match d.tunOf n with
    | some t => d.tunConnError t
    | none => d
  (d.outcome was.chan rc []).cacheSync

/-- Whether a DRAINING connection has nothing left to wait for. -/
def Conn.drained (c : Conn) : Bool := c.sndUna == c.sndNxt && c.awaited.isEmpty && c.ops.isEmpty

/-- Sends a CLOSE; in CLOSING it is one of eight. -/
def Dev.sendClose (d : Dev) (n : Nat) : Dev :=
  (d.ctrl n 0x13 0 0).modConn n fun c => { c with tries := c.tries + 1, triedAt := d.clk.edges }

/-- A DRAINING connection that is drained goes to CLOSING (Table 06-2). -/
def Dev.drainCheck (d : Dev) (n : Nat) : Dev :=
  let c := d.conn n
  if c.draining && c.drained then
    (d.modConn n fun c => { c with state := 4, tries := 0 }).sendClose n
  else d

/-- CONN_CLOSE on a READY connection (Table 06-2). -/
def Dev.connClose (d : Dev) (n : Nat) : Dev :=
  ((d.modConn n fun c => { c with state := 3 }).abortWaiting n).drainCheck n

/-- After anything that may have ended operations: completions, the window, and DRAINING. DEDUCED, unsafe (assumption 63). -/
def Dev.connStep (d : Dev) (n : Nat) : Dev := ((d.settleOps n).readAhead n).drainCheck n

/-! Opening. -/

/-- What an open gives a context. -/
structure OpenArgs where
  peerEp : Nat
  localEp : Nat
  tc : Nat
  pinned : Bool
  noevict : Bool
  pd : Nat
  sq : Nat
  rq : Nat
  rto : Nat
  retryMax : Nat
  arg : BitVec 64
  chan : Option Nat

/-- RTO and RETRY_MAX that an open uses: those it names, else `TRN_DEFAULTS`, within their limits (Table 06-14). -/
def Dev.timing (d : Dev) (rto retry : Nat) : Nat × Nat :=
  let r := if rto = 0 then d.fld F.TRN_DEFAULTS_RTO 0 else rto
  let k := if retry = 0 then d.fld F.TRN_DEFAULTS_RETRY_MAX 0 else retry
  (min 10000 (max 20 r), max 1 k)

/-- Contexts with NOEVICT set that are not FREE (R197). -/
def Dev.noevicts (d : Dev) : Nat := (d.trn.conns.filter fun c => c.2.noevict && !c.2.free).length

/-- Opens context `n` in a state. -/
def Dev.initConn (d : Dev) (n state : Nat) (a : OpenArgs) (peerConn peerInc : Nat) : Dev :=
  let t := d.timing a.rto a.retryMax
  (d.modConn n fun c =>
    { Conn.reset with
      state := state, peerEp := a.peerEp, localEp := a.localEp, tc := a.tc, pinned := a.pinned, noevict := a.noevict,
      peerConn := peerConn, peerInc := peerInc, inc := c.inc, pd := a.pd, rto := t.1, retryMax := t.2,
      rate := d.rateMax a.tc, sq := a.sq, rq := a.rq, arg := a.arg, chan := a.chan, resident := c.resident, used := c.used,
      wbSeq := c.wbSeq }).admitConn n |>.cacheSync

/-- Sends the OPEN of an OPENING context (Table 06-6). -/
def Dev.sendOpen (d : Dev) (n : Nat) : Dev :=
  let c := d.conn n
  let data := leBytes 3 n ++ leBytes 1 c.inc ++ leBytes 1 (c.tc + (if c.pinned then 4 else 0)) ++ leBytes 1 (c.peerEp % 32) ++
    [0#8, 0#8] ++ leBytes 8 c.arg.toNat
  let d := match d.epPort c.localEp with
    | none => d
    | some q => d.send q (Pkt.make 3 3 (d.ep c.localEp) (c.peerEp / 32 * 32 + 31) 0 0 (BitVec.ofNat 64 (0x10 * 2 ^ 56)) 0 data
        n false false c.pinned)
  d.modConn n fun c => { c with tries := c.tries + 1, triedAt := d.clk.edges }

/-- An open meets the NOEVICT limit (R197). -/
def Dev.noevictFull (d : Dev) : Dev := (d.setFld F.TRN_STATUS_NOEVICT_FULL 0 1).raise 0x0B05 []

/-- Starts an open: a number is taken, and OPEN is sent (Table 06-2). The answer is the number, or the code of the refusal.
At the NOEVICT limit the open fails (R197). -/
def Dev.openConn (d : Dev) (a : OpenArgs) : Except Nat Nat × Dev :=
  if a.noevict ∧ 16384 ≤ d.noevicts then
    (.error 8, d.noevictFull)
  else
    match d.allocConn with
    | none => (.error 8, d)
    | some (n, d) => (.ok n, (d.initConn n 1 a 0 0).sendOpen n)

/-- Words B0 and B1 of a CONN_OPEN (Table 15-7). -/
def Conn.openWords (c : Conn) (n : Nat) : List Word :=
  [BitVec.ofNat 32 (n + c.inc * 2 ^ 24), BitVec.ofNat 32 (c.peerConn + c.peerInc * 2 ^ 24)]

/-- POOL_PATH_SET commands whose connections have all left OPENING, or all been closed, end (R349). -/
def Dev.pathCheck (d : Dev) : Dev :=
  d.mbr.pathCmd.foldl (fun (d : Dev) (x : Nat × Nat × Bool) =>
    let (p, ch, close) := x
    let ns := (List.range 4).filterMap fun i =>
      if d.flag F.MBR_PSET_CONN_VALID (4 * p + i) then some (d.fld F.MBR_PSET_CONN_CONN (4 * p + i)) else none
    let busy := ns.any fun n => if close then !(d.conn n).free else (d.conn n).opening
    if busy then d
    else
      let d := { d with mbr := { d.mbr with pathCmd := d.mbr.pathCmd.filter fun y => y.2.1 != ch } }
      if close then
        let d := (List.range 4).foldl (fun (d : Dev) (i : Nat) => d.setReg .MBR_PSET_CONN (4 * p + i) 0#32) d
        (d.setReg .MBR_PSET_HOME p 0#32).outcome (some ch) 0 []
      else if ns.any fun n => (d.conn n).ready then
        d.outcome (some ch) 0 ((List.range 4).map fun i => BitVec.ofNat 32 (d.fld F.MBR_PSET_CONN_CONN (4 * p + i)))
      else d.outcome (some ch) 2 []) d

/-- An OPENING context becomes FREE: its command ends with a code (Table 06-2). -/
def Dev.openGone (d : Dev) (n rc : Nat) : Dev :=
  let t := d.tunOf n
  let bridge := (d.conn n).localEp == 24
  let d := d.connFree n rc
  let d := match t with
    | some t => d.tunRefused t rc
    | none => d
  if bridge then (d.psetForget n).pathCheck else d

/-- What CONN_RESET does to a context that is not FREE (Table 06-2). -/
def Dev.connReset (d : Dev) (n : Nat) : Dev :=
  if (d.conn n).opening then d.openGone n 5 else (d.sendClose n).connFree n 0

/-- An OPENING context is refused or not answered. -/
def Dev.openFailed (d : Dev) (n rc : Nat) : Dev := (d.openGone n rc).raise 0x0B07 [n]

/-- An OPENING context becomes READY (Table 06-2). -/
def Dev.connReady (d : Dev) (n peerConn peerInc : Nat) : Dev :=
  let d := d.modConn n fun c => { c with state := 2, peerConn := peerConn, peerInc := peerInc, tries := 0 }
  let c := d.conn n
  let d := (d.modConn n fun c => { c with chan := none }).outcome c.chan 0 (c.openWords n)
  let d := if c.localEp = 24 then d.pathCheck else d
  match d.tunOf n with
  | some t => d.tunReady t
  | none => d

end Sys2Proof.Machine
end

