-- ==== Sys2Proof/Machine/Receive.lean ====
section
/-!
DEFINITION. The receive side of the transport: the checks of Table 06-7, PSN classification, placement, commit, and the remote
accesses that take place there (R179 to R186, R226, R254 to R256, R270, R284).
-/

namespace Sys2Proof.Machine

/-! Fields of an SCT_DATA packet (Table 06-3). -/

def sctOp (p : Pkt) : Nat := p.ta 56 8
def sctSeg (p : Pkt) : Nat := p.ta 54 2
def sctAckReq (p : Pkt) : Bool := p.h2.getLsbD 53
def sctInc (p : Pkt) : Nat := p.ta 40 8
def sctGen (p : Pkt) : Nat := p.ta 32 8
def sctKey (p : Pkt) : Nat := p.ta 0 32
def sctOff (p : Pkt) : Nat := p.tb 0 48

/-- The key a request is checked under: an IMM carries it in OFFSET (R245). -/
def reqKey (p : Pkt) : Nat := if sctOp p = 2 then sctOff p % 2 ^ 32 else sctKey p

/-- Bytes of memory a request touches: the data of a PUT, none for an IMM, the read length of a GET_REQ, 8 for an ATOMIC. -/
def reqLen (p : Pkt) : Nat :=
  match sctOp p with
  | 1 => p.len
  | 3 => field p.data 0 4 0 32
  | 5 => 8
  | _ => 0

/-! The checks of Table 08-4. -/

/-- The right that an operation needs, as a mask of Table 08-3. -/
def reqRight (op : Nat) : Nat := match op with
  | 3 => 4
  | 5 => 16
  | _ => 8

/-- Whether LEN is as Table 06-4 requires, and a GET's read length is 1 to 2^31 (check 6). -/
def reqLenOk (p : Pkt) : Bool :=
  match sctOp p with
  | 2 => p.len == 0
  | 3 => p.len == 8 && decide (1 ≤ reqLen p ∧ reqLen p ≤ 2 ^ 31)
  | 5 => p.len == 24
  | _ => true

/-- The region that a key names for connection `n`: a tunnel's staging region, or one of the protection table. -/
def Dev.keyRegion (d : Dev) (n tick key : Nat) : Option Region :=
  match (d.tunOf n).bind fun t => d.tunRegion t key with
  | some r => some r
  | none => d.regionOf tick key

/-- The first check of Table 08-4 that a request fails, with its number, or the region it names. -/
def Dev.remoteCheck (d : Dev) (n tick pd : Nat) (p : Pkt) : Except (Nat × Nat) Region :=
  let op := sctOp p
  let off := if op = 2 then 0 else sctOff p
  if !(op == 1 || op == 2 || op == 3 || op == 5) || (op == 5 && decide (2 < field p.data 0 1 0 8)) then .error (2, 0)
  else match d.keyRegion n tick (reqKey p) with
    | none => .error (4, 1)
    | some r =>
      if r.ver.pd ≠ pd then .error (4, 3)
      else if r.ver.gen ≠ sctGen p then .error (4, 4)
      else if r.ver.rights &&& reqRight op ≠ reqRight op then .error (6, 5)
      else if !reqLenOk p then .error (3, 6)
      else if r.ver.len < off + reqLen p ∨ (op = 5 ∧ (r.base + off) % 8 ≠ 0) then .error (5, 7)
      else .ok r

/-- Makes the checks, counts them and raises the event of a failure (R256, Table 08-12). -/
def Dev.remoteJudge (d : Dev) (n tick pd : Nat) (p : Pkt) : Except Nat Region × Dev :=
  let d := d.count 9 0
  match d.remoteCheck n tick pd p with
  | .ok r => (.ok r, d)
  | .error (st, k) =>
    let d := match k with
      | 1 => d.count 9 1
      | 3 => d.count 9 1
      | 4 => (d.count 9 1).count 9 2
      | 5 => d.count 9 3
      | 6 => d.count 9 4
      | 7 => d.count 9 5
      | _ => d
    (.error st, d.raise 0x0F41 [n, reqKey p, st])

/-! Match headers (Table 09-2). -/

def mhTag (p : Pkt) : Nat := field p.data 0 8 0 64
def mhLen (p : Pkt) : Nat := field p.data 8 4 0 32
def mhCtx (p : Pkt) : Nat := field p.data 12 2 0 16
def mhProto (p : Pkt) : Nat := field p.data 14 1 0 8

/-- Whether a SEND packet begins a stream. DEDUCED, unsafe (assumption 60). -/
def sendFirst (p : Pkt) : Bool := sctSeg p == 0 || sctSeg p == 1

/-- The checks of Table 09-3 on the first packet of a stream; 0 when it passes. A FAILED context answers POISONED (R287). -/
def Dev.sendCheck (d : Dev) (pd : Nat) (p : Pkt) : Nat :=
  let proto := mhProto p
  let m := mhCtx p
  if !sendFirst p || decide (p.len < 32) || decide (3 < proto) || (proto != 0 && !(sctSeg p == 0 && p.len == 32)) then 3
  else if 2 ≤ proto then 0
  else if !d.part.hasHbm then 4
  else if d.mctxState m = 2 then 8
  else if d.mctxState m ≠ 1 ∨ d.fld F.MTE_CTX_CFG_PD m ≠ pd then 4
  else if proto = 0 ∧ (d.slotSize m < mhLen p ∨ (sctSeg p = 0 ∧ p.len ≠ 32 + mhLen p) ∨
      (sctSeg p = 1 ∧ 32 + mhLen p ≤ p.len)) then 3
  else 0

/-- Whether a connection is one of an engine service (R403). -/
def Conn.service (c : Conn) : Bool := decide (25 ≤ c.localEp ∧ c.localEp ≤ 30)

/-! Receipt. -/

/-- What a packet must reserve before its map bit is set: a NOTIFY for an IMM (R226), an entry and a slot for the first packet
of a message (R284), a dispatch-queue entry for an engine service (R404). False when it is refused. -/
def Dev.reserveFor (d : Dev) (n : Nat) (p : Pkt) : Option (Option (Nat × Nat)) × Dev :=
  let c := d.conn n
  let item := fun (d : Dev) (r : Option (Nat × Nat)) =>
    match d.pkgOf c.localEp with
    | none => (some r, d)
    | some k =>
      match d.addItem { slot := k, src := 0, a := n, b := p.psn, ready := false, waited := false } with
      | some d => (some r, d)
      | none => (none, d.count 12 5)
  match sctOp p with
  | 2 =>
    match d.tunOf n with
    | some t =>
      let r := d.tunReserve t
      if r.1 then (some none, r.2) else (none, r.2.count 5 9)
    | none =>
      match d.freeNotify c.rq with
      | none => (none, d.count 5 9)
      | some idx =>
        match item d (some (c.rq, idx)) with
        | (some r, d) => (some r, d.reserveNotify c.rq idx)
        | (none, d) => (none, d)
  | 7 =>
    if c.service then item d none
    else if sendFirst p && !p.poison && d.sendCheck c.pd p == 0 && decide (mhProto p < 2) then
      match d.mteReserve (mhCtx p) n (mhProto p == 0 && decide (0 < mhLen p)) with
      | (some slot, d) =>
        (some none, { d with mte := { d.mte with resv := Tbl.set d.mte.resv (n * 2 ^ 24 + p.psn) (mhCtx p, slot) } })
      | (none, d) => (none, d)
    else (some none, d)
  | _ => item d none

/-- Whether a packet's effect waits for its commit (R183). -/
def waitsCommit (p : Pkt) : Bool := sctOp p == 2 || sctOp p == 3 || sctOp p == 5 || sctOp p == 7

/-- Changes a received packet. -/
def Dev.modRcvd (d : Dev) (n psn : Nat) (f : Rcvd → Rcvd) : Dev :=
  d.modConn n fun c => match Tbl.get c.rcvd psn with
    | some r => { c with rcvd := Tbl.set c.rcvd psn (f r) }
    | none => c

/-- The operation checks of a received packet, and the placement of PUT data (R181, R184, R254, R255). -/
def Dev.place1 (d : Dev) (n tick : Nat) (p : Pkt) (refused : Bool) : Dev :=
  let c := d.conn n
  let synd := fun (d : Dev) (st : Nat) => d.modRcvd n p.psn fun r => { r with synd := st }
  if p.poison then synd d 8
  else if sctOp p = 7 then d
  else
    match d.remoteJudge n tick c.pd p with
    | (.error st, d) => synd d st
    | (.ok r, d) =>
      if sctOp p ≠ 1 ∨ p.len = 0 then d
      else if r.staging then
        if refused then synd d 8
        else d.storeSegs [{ space := .hbm, addr := r.base + sctOff p, len := p.len }] p.data
      else
        match d.ask (Access.make (.put n p.psn) r.xctx (r.base + sctOff p) p.len 2 0 (some tick)) with
        | (.go segs, d) => if refused then synd d 8 else d.storeSegs segs p.data
        | (.wait, d) => d.modRcvd n p.psn fun r => { r with busy := true }
        | (.fault st, d) => synd d st

/-! Commit. -/

/-- Takes a word that host memory supplies to an atomic. -/
def Dev.popFeed (d : Dev) : BitVec 64 × Dev :=
  match d.trn.feed with
  | [] => d.fresh
  | w :: ws => (w, { d with trn := { d.trn with feed := ws } })

/-- Queues a response packet to a request (R176, R244); the connection's pace sends it (R203). -/
def Dev.sendResp (d : Dev) (n op seg psn off : Nat) (data : List Byte) (poison : Bool) : Dev :=
  let r : Resp := { op := op, seg := seg, psn := psn, off := off, data := data, poison := poison }
  d.modConn n fun c => { c with resps := c.resps ++ [r] }

/-- The value an atomic writes, if any (R246). -/
def atomicNew (kind : Nat) (old x y : BitVec 64) : Option (BitVec 64) :=
  match kind with
  | 0 => some (old + x)
  | 1 => some x
  | _ => if old = x then some y else none

/-- Executes an ATOMIC_REQ on the word it has been translated to, and answers it (R181, R182, R246).
DEDUCED, safe (assumption 62). -/
def Dev.runAtomic (d : Dev) (n : Nat) (p : Pkt) (segs : List Seg) : Dev :=
  let x := BitVec.ofNat 64 (field p.data 8 8 0 64)
  let y := BitVec.ofNat 64 (field p.data 16 8 0 64)
  let (old, d) := if segs.all fun s => s.space == .hbm then
      let r := d.readSegs segs []
      (BitVec.ofNat 64 (leNat r.1), r.2)
    else d.popFeed
  let d := match atomicNew (field p.data 0 1 0 8) old x y with
    | some w => d.storeSegs segs (leBytes 8 w.toNat)
    | none => d
  let d := d.modConn n fun c => { c with atoms := (c.atoms ++ [(p.psn, old)]).drop (c.atoms.length - 7) }
  (d.count 9 6).sendResp n 6 0 p.psn 0 (leBytes 8 old.toNat) false

/-- What the device's own HBM holds now in stretches of memory. -/
def Dev.hbmNow (d : Dev) (segs : List Seg) : List Host.Cell :=
  (applyWrites d.mem d.wr).filter fun c => segs.any fun s =>
    s.space == .hbm && decide (Space.hbm.base + s.addr ≤ c.1 ∧ c.1 < Space.hbm.base + s.addr + s.len)

/-- Starts the read of a GET_REQ; HBM is read at once, in PSN order (R249, R255). -/
def Dev.startGet (d : Dev) (n psn len : Nat) (segs : List Seg) (tick : Nat) : Dev :=
  { d with trn := { d.trn with gets := d.trn.gets ++
      [{ conn := n, psn := psn, len := len, segs := segs, next := 0, tick := tick, hbm := d.hbmNow segs }] } }

/-- Whether PSN `p` lies in the half of the number space behind EPSN `e`, in which a copy is a committed duplicate (R180). -/
def behind (e p : Nat) : Bool := decide ((e + 2 ^ 24 - p) % 2 ^ 24 ≤ 2 ^ 23)

/-- Remembers the syndrome of a committed request that a response would have answered (R185). -/
def Dev.noteTold (d : Dev) (n psn st : Nat) : Dev :=
  d.modConn n fun c => { c with synds := Tbl.set (c.synds.filter fun x => behind c.epsn x.1) psn st }

/-- Remembers what a committed GET_REQ reads, for its duplicates (R182). -/
def Dev.noteRead (d : Dev) (n psn ctx addr len : Nat) : Dev :=
  d.modConn n fun c => { c with reads := Tbl.set (c.reads.filter fun x => behind c.epsn x.1) psn (ctx, addr, len) }

/-- A packet that is to commit is refused after all: its map bit is clear again (R284). DEDUCED, safe (assumption 133). -/
def Dev.refuseCommit (d : Dev) (n psn : Nat) : Dev :=
  (d.modConn n fun c => { c with rcvd := Tbl.erase c.rcvd psn, rcvMap := c.rcvMap &&& ~~~1#256 }).refuseBusy n psn

/-- A later packet of a message's stream commits: the status it commits with. A stream whose length is not 32 + MSG_LEN fails
where that shows (Table 09-3). DEDUCED, unsafe (assumption 134). -/
def Dev.commitMore (d : Dev) (n : Nat) (p : Pkt) (synd : Nat) : Nat × Dev :=
  let last := sctSeg p == 3
  match (d.conn n).stream with
  | none => (if synd ≠ 0 then synd else 3, d)
  | some (i, st) =>
    let set := fun (d : Dev) (st : Nat) => d.modConn n fun c => { c with stream := if last then none else some (i, st) }
    if st ≠ 0 then (st, set d st)
    else
      let wrong := match Tbl.get d.mte.msgs i with
        | some m => m.bad == 0 &&
            (decide (m.len < m.data.length + p.data.length) || (last && decide (m.data.length + p.data.length ≠ m.len)))
        | none => false
      let st := if synd ≠ 0 then synd else if wrong then 3 else 0
      (st, (set d (if wrong then 3 else 0)).msgData i p.data (last || wrong) st)

/-- Delivers a SEND packet in commit order (R270, R276): the syndrome it commits with, or none where it is refused (R284). -/
def Dev.commitSend (d : Dev) (n : Nat) (p : Pkt) (synd : Nat) : Option Nat × Dev :=
  let c := d.conn n
  let key := n * 2 ^ 24 + p.psn
  let last := sctSeg p == 0 || sctSeg p == 3
  if c.service then (some synd, if synd = 0 then d.itemReady n p.psn else d.itemDrop n p.psn)
  else if !sendFirst p then
    let r := d.commitMore n p synd
    (some r.1, r.2)
  else
    let st := if synd ≠ 0 then synd else d.sendCheck c.pd p
    let resv := Tbl.get d.mte.resv key
    let d := { d with mte := { d.mte with resv := Tbl.erase d.mte.resv key } }
    let stream := fun (d : Dev) (x : Nat × Nat) => d.modConn n fun c => { c with stream := if last then none else some x }
    if st ≠ 0 then
      let d := match resv with
        | some (m, slot) => d.freeSlot m slot
        | none => d
      (some st, stream d (0, st))
    else if mhProto p = 2 then
      (some 0, { d with mte := { d.mte with fins := d.mte.fins ++ [(n, field p.data 16 4 0 32, field p.data 15 1 0 8)] } })
    else if mhProto p = 3 then
      (some 0, { d with mte := { d.mte with cancels := d.mte.cancels ++ [(n, field p.data 16 4 0 32)] } })
    else
      match (match resv with
        | some r => (some r.2, d)
        | none => d.mteReserve (mhCtx p) n (mhProto p == 0 && decide (0 < mhLen p))) with
      | (none, d) => (none, d.refuseCommit n p.psn)
      | (some slot, d) =>
        let i := d.mte.nextMsg
        let m : Msg := { id := i, ctx := mhCtx p, tag := BitVec.ofNat 64 (mhTag p), len := mhLen p, rts := mhProto p == 1,
                         src := c.peerEp, conn := n, cookie := field p.data 16 4 0 32, rkey := field p.data 20 4 0 32,
                         roff := field p.data 24 6 0 48, rgen := field p.data 30 1 0 8, data := p.data.drop 32,
                         whole := last, bad := 0, slot := slot, into := none }
        let d := { d with mte := { d.mte with msgs := Tbl.set d.mte.msgs i m, nextMsg := i + 1 } }
        let d := d.modMctx m.ctx fun y => { y with input := y.input ++ [.arrival i] }
        (some 0, stream d (i, 0))

/-- The effect of a packet at its commit: the syndrome, or none while it must wait (R181) or where it is refused. With `segs`,
its translation is at hand. -/
def Dev.commitEffect (d : Dev) (n : Nat) (r : Rcvd) (segs : Option (List Seg)) : Option Nat × Dev :=
  let p := r.pkt
  let c := d.conn n
  if sctOp p = 7 then d.commitSend n p r.synd
  else
    let item := fun (d : Dev) => if c.service then d.itemReady n p.psn else d
    if r.synd ≠ 0 then
      let d := match r.notify with
        | some (q, idx) => d.modQueue q fun x => x.modAt idx fun e => { e with reserved := false, key := none }
        | none => d
      let d := if sctOp p = 2 then
          match d.tunOf n with
          | some t => d.modTun t fun x => { x with resv := x.resv - 1 }
          | none => d
        else d
      (some r.synd, d.itemDrop n p.psn)
    else if sctOp p = 2 then
      match d.tunOf n, r.notify with
      | some t, _ => (some 0, d.tunImm t (sctKey p))
      | none, some (q, idx) => (some 0, item (d.notifyDone q idx (BitVec.ofNat 64 (sctKey p)) p.src n))
      | none, none => (some 0, item d)
    else if sctOp p = 3 ∨ sctOp p = 5 then
      let run := fun (d : Dev) (segs : List Seg) =>
        if sctOp p = 5 ∧ r.refused then (some 8, d.itemDrop n p.psn)
        else (some 0, item (if sctOp p = 3 then d.startGet n p.psn (reqLen p) segs r.tick else d.runAtomic n p segs))
      match segs with
      | some segs => run d segs
      | none =>
        match d.remoteCheck n r.tick c.pd p with
        | .error (st, _) => (some st, d.itemDrop n p.psn)
        | .ok g =>
          let d := if sctOp p = 3 then d.noteRead n p.psn g.xctx (g.base + sctOff p) (reqLen p) else d
          match d.ask (Access.make (.commit n p.psn) g.xctx (g.base + sctOff p) (reqLen p) (if sctOp p = 3 then 1 else 3) 0
              (some r.tick)) with
          | (.go segs, d) => run d segs
          | (.wait, d) => (none, d.modRcvd n p.psn fun r => { r with busy := true })
          | (.fault st, d) => (some st, d.itemDrop n p.psn)
    else (some 0, item d)

/-- Advances EPSN over a packet that has committed: counts, marks and the acks of R185 and R186. -/
def Dev.commitDone (d : Dev) (n : Nat) (r : Rcvd) (synd : Nat) : Dev :=
  let p := r.pkt
  let d := d.modConn n fun c =>
    { c with rcvd := Tbl.erase c.rcvd p.psn, epsn := (c.epsn + 1) % 2 ^ 24, rcvMap := c.rcvMap >>> 1, acc := c.acc + 1,
             ece := c.ece || p.cm, marked := c.marked + (if p.cm then 1 else 0) }
  if synd ≠ 0 then
    let d := if sctOp p = 3 ∨ sctOp p = 5 then d.noteTold n p.psn synd else d
    d.sendAck n synd p.psn
  else if sctAckReq p || decide (max 1 (d.fld F.TRN_CFG_ACK_EVERY 0) ≤ (d.conn n).acc) then d.sendAck n 0 0
  else d

/-- Commits every packet that may commit, in PSN order (R181). -/
def Dev.commitLoop : Nat → Dev → Nat → Dev
  | 0, d, _ => d
  | k + 1, d, n =>
    let c := d.conn n
    if !c.rcvMap.getLsbD 0 then d
    else match Tbl.get c.rcvd c.epsn with
      | none => d
      | some r =>
        if r.busy then d
        else
          match d.commitEffect n r none with
          | (some st, d) => Dev.commitLoop k (d.commitDone n r st) n
          | (none, d) => d

/-- Commits what may commit on connection `n`. -/
def Dev.commits (d : Dev) (n : Nat) : Dev := (Dev.commitLoop 257 d n).storeSync

/-! Duplicates (R182). -/

/-- A duplicate of a committed PSN (R182): a GET_REQ is read and answered again, from where its first execution read; an
ATOMIC_REQ is answered from the cache; one that carried a syndrome is acknowledged with it (R185), and anything else is
acknowledged. No check of Table 08-4 is made (R263). DEDUCED, unsafe (assumption 130). -/
def Dev.duplicate (d : Dev) (n : Nat) (p : Pkt) : Dev :=
  let d := d.count 4 4
  let c := d.conn n
  match Tbl.get c.synds p.psn, sctOp p with
  | some st, 3 => d.sendAck n st p.psn
  | some st, 5 => d.sendAck n st p.psn
  | none, 3 =>
    match Tbl.get c.reads p.psn with
    | none => d.sendAck n 0 0
    | some (ctx, addr, len) =>
      match d.ask (Access.make (.again n p.psn 0 len) ctx addr len 1 0 none) with
      | (.go segs, d) => d.startGet n p.psn len segs d.tickNow
      | (.wait, d) => d
      | (.fault _, d) => d.sendAck n 0 0
  | none, 5 =>
    match c.atoms.find? fun a => a.1 == p.psn with
    | some a => d.sendResp n 6 0 p.psn 0 (leBytes 8 a.2.toNat) false
    | none => d.sendAck n 0 0
  | _, _ => d.sendAck n 0 0

/-- Processes an SCT_DATA request for resident context `n` whose header was accepted in `tick` (Table 06-7, R180); `refused`
says that memory will refuse its placement or atomic, or fail under it (R255). -/
def Dev.receiveData (d : Dev) (n tick : Nat) (p : Pkt) (refused : Bool) : Dev :=
  let c := d.conn n
  if p.e2e ≠ p.e2eOf then d.count 4 8
  else
    let d := d.touch n
    if !(c.ready || c.draining || c.closing) then d.count 4 7
    else if p.src ≠ c.peerEp ∨ sctInc p ≠ c.inc then d.count 4 6
    else
    let k := (p.psn + 2 ^ 24 - c.epsn) % 2 ^ 24
    if 2 ^ 23 ≤ k then d.duplicate n p
    else if 256 ≤ k then (d.count 4 5).sendAck n 0 0
    else if c.rcvMap.getLsbD k then (d.count 4 4).sendAck n 0 0
    else
      let kept := waitsCommit p && k != 0
      if kept && decide (32768 ≤ d.fld F.TRN_REORDER_OCC 0) then
        let first := !d.trn.reorderFull
        let d := ({ d with trn := { d.trn with reorderFull := true } }).setFld F.TRN_STATUS_REORDER_FULL 0 1
        (if first then d.raise 0x0B04 [n] else d).refuseBusy n p.psn
      else
        let d := if kept then { d with trn := { d.trn with reorderFull := false } } else d
        match d.reserveFor n p with
        | (none, d) => d.refuseBusy n p.psn
        | (some notify, d) =>
          let gap := decide (c.rcvMap &&& (c.rcvMap + 1#256) ≠ 0#256)
          let r : Rcvd := { pkt := p, tick := tick, at_ := d.clk.edges, synd := 0, busy := false, refused := refused,
                            kept := kept, notify := notify }
          let d := d.modConn n fun c =>
            { c with rcvMap := c.rcvMap ||| (1#256 <<< k), rcvd := Tbl.set c.rcvd p.psn r }
          let d := (d.count 4 1).place1 n tick p refused
          let d := if k ≠ 0 && !gap then d.sendAck n 0 0 else d
          d.commits n

/-! Continuations of waiting accesses. -/

/-- A PUT's placement goes on (R255). -/
def Dev.putDone (d : Dev) (n psn : Nat) (segs : Except Nat (List Seg)) : Dev :=
  match Tbl.get (d.conn n).rcvd psn with
  | none => d
  | some r =>
    let d := match segs with
      | .ok segs =>
        if r.refused then d.modRcvd n psn fun r => { r with busy := false, synd := 8 }
        else (d.storeSegs segs r.pkt.data).modRcvd n psn fun r => { r with busy := false }
      | .error st => d.modRcvd n psn fun r => { r with busy := false, synd := st }
    d.commits n

/-- A GET_REQ or ATOMIC_REQ at its commit goes on. -/
def Dev.commitGo (d : Dev) (n psn : Nat) (segs : Except Nat (List Seg)) : Dev :=
  match Tbl.get (d.conn n).rcvd psn with
  | none => d
  | some r =>
    let r := { r with busy := false }
    match segs with
    | .ok segs =>
      match d.commitEffect n r (some segs) with
      | (some st, d) => (d.commitDone n r st).commits n
      | (none, d) => d
    | .error st => ((d.itemDrop n psn).commitDone n r st).commits n

/-- A duplicate GET_REQ goes on. -/
def Dev.againGo (d : Dev) (n psn len tick : Nat) (segs : Except Nat (List Seg)) : Dev :=
  match segs with
  | .ok segs => d.startGet n psn len segs tick
  | .error _ => d.sendAck n 0 0

/-- The placement of response packet `k` of an operation goes on (R244). -/
def Dev.dstDone (d : Dev) (n id k : Nat) (bs : List Byte) (segs : Except Nat (List Seg)) : Dev :=
  let d := match segs with
    | .ok segs => (d.storeSegs segs bs).modConn n fun c => c.modOp id fun o =>
        { o with placing := o.placing.erase k, got := o.got ++ [k] }
    | .error st => d.modConn n fun c => c.modOp id fun o => { o with placing := o.placing.erase k, fault := st }
  d.connStep n

/-- The translation of a source read is at hand (R224). -/
def Dev.srcGo (d : Dev) (n id k : Nat) (segs : Except Nat (List Seg)) : Dev :=
  match segs with
  | .ok segs => d.modConn n fun c => c.modOp id fun o =>
      if (Tbl.get o.reading k).isSome then { o with reading := Tbl.set o.reading k (some segs) } else o
  | .error st =>
    (d.modConn n fun c => c.modOp id fun o =>
      { o with fault := st, reading := Tbl.erase o.reading k, data := Tbl.set o.data k ([], true) }).connStep n

end Sys2Proof.Machine
end

