-- ==== Sys2Proof/Machine/Trn.lean ====
section
/-!
DEFINITION. The commands of the transport: packets that arrive, timers, the miss path, and the next packet a connection sends
(R172, R179 to R205, R255, R261, R536).
-/

namespace Sys2Proof.Machine

/-- SUBKIND, INCARN and ARG of an SCT_CTRL packet (R178). -/
def ctrlSub (p : Pkt) : Nat := p.ta 56 8
def ctrlInc (p : Pkt) : Nat := p.ta 48 8
def ctrlArg (p : Pkt) : Nat := p.ta 0 16

/-- The internal port with index `i`. -/
def iport (i : Fin 32) : Nat := 128 + i.val

/-- Takes a packet of the transport that has arrived at an internal port. -/
def Dev.takeKind (d : Dev) (q : Fin 32) (ok : Pkt → Bool) : Option (QPkt × Dev) := d.takeStage (iport q) ok

/-- Takes a packet that has arrived at an internal port, checks its E2E_CRC (R116, Table 06-7), and hands it on. -/
def Dev.withPkt (d : Dev) (q : Fin 32) (ok : Pkt → Bool) (f : QPkt → Dev → Dev) : Dev :=
  match d.takeKind q ok with
  | none => d
  | some (x, d) => if x.pkt.e2e ≠ x.pkt.e2eOf then d.count 4 8 else f x d

/-! The miss path (R198 to R200). -/

/-- Puts a packet in the miss buffer and starts the fetch; an SCT_DATA packet is refused when the buffer is full. -/
def Dev.missPut (d : Dev) (n tick : Nat) (p : Pkt) (refused : Bool) : Dev :=
  if 4096 ≤ d.trn.miss.length then
    let first := !d.trn.missFull
    let d := ({ d with trn := { d.trn with missFull := true } }).setFld F.TRN_STATUS_MISS_FULL 0 1
    let d := if first then d.raise 0x0B03 [n] else d
    if p.kind = 1 then d.refuseMiss n p else d
  else
    let m : Missed := { refused := refused, conn := n, pkt := p, tick := tick }
    let d := { d with trn := { d.trn with missFull := false, miss := d.trn.miss ++ [m] } }
    (d.startFetch n).storeSync

/-! Opening and closing (R172, R437, R536). -/

/-- Refuses an OPEN (Table 06-6). -/
def Dev.sendNak (d : Dev) (p : Pkt) (rc : Nat) : Dev :=
  match d.epPort 31 with
  | none => d
  | some q =>
    let ini := field p.data 0 3 0 24
    let inc := field p.data 3 1 0 8
    d.send q (Pkt.make 3 (field p.data 4 1 0 2) (d.ep 31) p.src ini 0
      (BitVec.ofNat 64 (0x12 * 2 ^ 56 + inc * 2 ^ 48 + rc)) 0 [] 0 false false false)

/-- Sends the OPEN_ACK of context `n`. -/
def Dev.sendOpenAck (d : Dev) (n : Nat) : Dev :=
  let c := d.conn n
  d.sendCtrl n 0x11 0 0 c.peerConn c.peerInc (leBytes 3 n ++ leBytes 1 c.inc ++ List.replicate 4 0#8)

/-- The listen entry an OPEN meets: the oldest of its endpoint that matches its owner argument (R437). -/
def Dev.listenFor (d : Dev) (ep : Nat) (arg : BitVec 64) : Option Listen :=
  d.trn.listen.find? fun l => l.ep == ep && (l.arg == 0#64 || l.arg == arg)

/-- Accepts an OPEN into a new READY context. DEDUCED, unsafe (assumption 57). -/
def Dev.acceptOpen (d : Dev) (p : Pkt) (a : OpenArgs) (notify : Option (Nat × Nat)) : Dev :=
  match d.allocConn with
  | none => d.sendNak p 8
  | some (n, d) =>
    let d := d.initConn n 2 a (field p.data 0 3 0 24) (field p.data 3 1 0 8)
    let d := match notify with
      | some (q, idx) => (d.reserveNotify q idx).notifyDone q idx a.arg p.src n
      | none => d
    d.sendOpenAck n

/-- An OPEN that has arrived: a repeat is answered again; a new one is accepted for a tunnel that waits for it, for the bridge's
home while it serves the pool, or through a listen entry, or refused (R437, R536). -/
def Dev.openIn (d : Dev) (p : Pkt) : Dev :=
  let ini := field p.data 0 3 0 24
  let inc := field p.data 3 1 0 8
  let ep := field p.data 5 1 0 5
  let arg := BitVec.ofNat 64 (field p.data 8 8 0 64)
  let same := d.trn.conns.find? fun c =>
    !c.2.free && !c.2.opening && c.2.peerEp == p.src && c.2.peerConn == ini && c.2.peerInc == inc
  match same with
  | some (n, _) => d.sendOpenAck n
  | none =>
    let a : OpenArgs := { peerEp := p.src, localEp := ep, tc := field p.data 4 1 0 2, pinned := field p.data 4 1 2 1 == 1,
                          noevict := false, pd := 0, sq := 0, rq := 0, rto := 0, retryMax := 0, arg := arg,
                          chan := none }
    let tun := (List.range 64).find? fun t =>
      (d.tunState t == 1 || d.tunState t == 3) && d.tunDev t && d.fld F.HSW_TUN_PEER_EP t == p.src &&
        (d.conn (d.fld F.HSW_TUN_CONN_CONN t)).state != 2 && ep == d.fld F.HSW_CFG_FW_HIER 0 && a.pinned && a.tc == 1
    match tun with
    | some t =>
      if 16384 ≤ d.noevicts then d.noevictFull.sendNak p 8
      else
        match d.allocConn with
        | none => d.sendNak p 8
        | some (n, d) =>
          let d := d.initConn n 2 { a with noevict := true, pd := d.fld F.HSW_CFG_TUN_PD 0 } ini inc
          let d := ((d.setFld F.HSW_TUN_CONN_CONN t n).setFld F.HSW_TUN_STATUS_STATE t 1).sendOpenAck n
          let d := d.modTun t Tun.fresh
          let port := d.fld F.HSW_TUN_STATUS_PORT t
          let d := if d.fld F.HSW_PORT_STATUS_STATE port = 4 then d.setFld F.HSW_PORT_STATUS_STATE port 1 else d
          d.tunReady t
    | none =>
      if ep = 24 ∧ d.part.hasMbr ∧ d.flag F.MBR_CFG_EN 0 then
        d.acceptOpen p { a with pd := d.fld F.MBR_CFG_POOL_PD 0 } none
      else
        match d.listenFor ep arg with
        | none => d.sendNak p 5
        | some l =>
          match d.freeNotify l.rq with
          | none => d.sendNak p 2
          | some idx =>
            if d.fld F.WQ_Q_CFG_PD l.sq ≠ d.fld F.WQ_Q_CFG_PD l.rq then d.sendNak p 4
            else d.acceptOpen p { a with pd := d.fld F.WQ_Q_CFG_PD l.sq, sq := l.sq, rq := l.rq } (some (l.rq, idx))

/-- OPEN: firmware takes it; during a restart it is held (R455, R535). -/
def execOpenReq (q : Fin 32) (s : State) : Host.Outcome State Fault Refusal :=
  s.run fun d => d.withPkt q (fun p => p.kind == 3 && ctrlSub p == 0x10) fun x d =>
    if d.ccRuns then d.openIn x.pkt else d.holdMail (.packet x.pkt)

/-- An OPEN_ACK makes an OPENING context READY, or is discarded and answered with a CLOSE (R536). -/
def Dev.openAckIn (d : Dev) (p : Pkt) : Dev :=
  let c := d.conn p.conn
  let num := field p.data 0 3 0 24
  let inc := field p.data 3 1 0 8
  if c.opening && ctrlInc p == c.inc then d.connReady p.conn num inc
  else
    let d := d.count 4 7
    match d.epPort (p.dst % 32) with
    | none => d
    | some o =>
      d.send o (Pkt.make 3 p.tc p.dst p.src num 0 (BitVec.ofNat 64 (0x13 * 2 ^ 56 + inc * 2 ^ 48)) 0 [] p.conn false
        false false)

/-- An OPEN_NAK frees the OPENING context with the refusal's code (Table 06-2). -/
def Dev.openNakIn (d : Dev) (p : Pkt) : Dev :=
  let c := d.conn p.conn
  if c.opening && ctrlInc p == c.inc then d.openFailed p.conn (ctrlArg p % 256) else d.count 4 7

/-- A CLOSE from the peer (Table 06-2). -/
def Dev.closeIn (d : Dev) (p : Pkt) : Dev :=
  let n := p.conn
  let c := d.conn n
  if !(c.ready || c.draining || c.closing) then d.count 4 7
  else if ctrlInc p ≠ c.inc ∨ p.src ≠ c.peerEp then d.count 4 6
  else (((d.ctrl n 0x14 0 0).connFree n (if c.chan.isSome then 0 else 5)).psetForget n).pathCheck

/-- A CLOSE_ACK frees a CLOSING context (Table 06-2). -/
def Dev.closeAckIn (d : Dev) (p : Pkt) : Dev :=
  let c := d.conn p.conn
  if c.closing && ctrlInc p == c.inc then (d.connFree p.conn 0).pathCheck else d.count 4 7

/-- The PSN of a back-off as an absolute sequence number: the one nearest SND_UNA. -/
def Conn.nearPsn (c : Conn) (p : Nat) : Nat :=
  let k := (p + 2 ^ 24 - c.sndUna % 2 ^ 24) % 2 ^ 24
  if k < 2 ^ 23 then c.sndUna + k else c.sndUna - (2 ^ 24 - k)

/-- RECEIVER_BUSY suspends the connection for ARG ticks (R191). -/
def Dev.busyIn (d : Dev) (p : Pkt) : Dev :=
  let n := p.conn
  let c := d.conn n
  if !(c.ready || c.draining) then d.count 4 7
  else if ctrlInc p ≠ c.inc ∨ p.src ≠ c.peerEp then d.count 4 6
  else
    let t := d.clk.edges + ctrlArg p
    let k := c.nearPsn p.psn
    (d.count 4 10).modConn n fun c => { c with busy := some (match c.busy with
      | some (t', k') => (max t t', min k k')
      | none => (t, k)) }

/-- An SCT_CTRL packet for a context that is resident. -/
def Dev.ctrlIn (d : Dev) (p : Pkt) : Dev :=
  let d := d.touch p.conn
  match ctrlSub p with
  | 0x01 => d.busyIn p
  | 0x11 => d.openAckIn p
  | 0x12 => d.openNakIn p
  | 0x13 => d.closeIn p
  | 0x14 => d.closeAckIn p
  | _ => d

/-- An SCT_CTRL packet of subkind `sub` arrives; one for a context that is not resident waits for it (R198). -/
def Dev.takeCtrl (d : Dev) (q : Fin 32) (sub : Nat) : Dev :=
  d.withPkt q (fun p => p.kind == 3 && ctrlSub p == sub) fun x d =>
    let n := x.pkt.conn
    if !d.usable n then d.count 4 7
    else if d.isResident n then d.ctrlIn x.pkt else d.missPut n x.tick x.pkt false

/-- OPEN_ACK. -/
def execOpenAck (q : Fin 32) (s : State) : Host.Outcome State Fault Refusal := s.run (·.takeCtrl q 0x11)

/-- OPEN_NAK. -/
def execOpenNak (q : Fin 32) (s : State) : Host.Outcome State Fault Refusal := s.run (·.takeCtrl q 0x12)

/-- OPEN_RESEND: an OPEN is sent again after 1,562 ticks; after 8 the context is FREE (Table 06-2). -/
def execOpenResend (n : BitVec 24) (s : State) : Host.Outcome State Fault Refusal :=
  s.run fun d =>
    let c := d.conn n.toNat
    if !c.opening || decide (d.clk.edges < c.triedAt + 1562) then d
    else if c.tries < 8 then d.sendOpen n.toNat
    else d.openFailed n.toNat 2

/-- CLOSE. -/
def execCloseReq (q : Fin 32) (s : State) : Host.Outcome State Fault Refusal := s.run (·.takeCtrl q 0x13)

/-- CLOSE_ACK. -/
def execCloseAck (q : Fin 32) (s : State) : Host.Outcome State Fault Refusal := s.run (·.takeCtrl q 0x14)

/-- CLOSE_RESEND: a CLOSE is sent again after 1,562 ticks; after 8 the context is FREE (Table 06-2). -/
def execCloseResend (n : BitVec 24) (s : State) : Host.Outcome State Fault Refusal :=
  s.run fun d =>
    let c := d.conn n.toNat
    if !c.closing || decide (d.clk.edges < c.triedAt + 1562) then d
    else if c.tries < 8 then d.sendClose n.toNat
    else (d.connFree n.toNat 0).pathCheck

/-! Receiving. -/

/-- SCT_DATA_RECEIVED: a request arrives at an endpoint; `feed` says what memory does for it (R179, R255). -/
def execSctDataReceived (q : Fin 32) (feed : MemFeed) (s : State) : Host.Outcome State Fault Refusal :=
  s.run fun d =>
    match d.takeKind q fun p => p.kind == 1 && !p.isResp with
    | none => d
    | some (x, d) =>
      let n := x.pkt.conn
      if !d.usable n then d.count 4 (if x.pkt.e2e ≠ x.pkt.e2eOf then 8 else 7)
      else if !d.isResident n then d.missPut n x.tick x.pkt feed.refused
      else
        let d := ({ d with trn := { d.trn with feed := feed.words } }).receiveData n x.tick x.pkt feed.refused
        { d with trn := { d.trn with feed := [] } }

/-- ACK_DELAY_EXPIRED: committed PSNs have waited `ns` without an ack (R186). -/
def execAckDelayExpired (n : BitVec 24) (ns : Nat) (s : State) : Host.Outcome State Fault Refusal :=
  s.run fun d =>
    if (d.conn n.toNat).acc = 0 ∨ ns < d.fld F.TRN_CFG_ACK_DELAY 0 then d else d.sendAck n.toNat 0 0

/-- GET_READ_DONE: the read for the next response packet of a GET_REQ returns, and the packet is sent; poisoned when memory
refused or the data is bad (R255). -/
def execGetReadDone (n psn : BitVec 24) (data : List Byte) (res : MemRes) (s : State) : Host.Outcome State Fault Refusal :=
  s.runHost fun d =>
    match d.trn.gets.find? fun g => g.conn == n.toNat && g.psn == psn.toNat with
    | none => d
    | some g =>
      if g.segs.any d.segHeld then d
      else
        let off := 2048 * g.next
        let len := min 2048 (g.len - off)
        let r := ({ d with mem := g.hbm, wr := [] }).readSegs (sliceSegs g.segs off len) data
        let d := { d with free := r.2.free }
        let d := d.sendResp g.conn 4 (segOf g.next (chunks g.len)) g.psn off r.1 (res != .ok)
        let rest := d.trn.gets.erase g
        let last := g.next + 1 == chunks g.len
        { d with trn := { d.trn with gets := if last then rest else { g with next := g.next + 1 } :: rest } }

/-- The absolute sequence number that a 24-bit PSN stands for, relative to SND_UNA - 1; none outside the window (R188). -/
def Conn.absPsn (c : Conn) (p : Nat) : Option Nat :=
  let k := (p + 1 + 2 ^ 24 - c.sndUna % 2 ^ 24) % 2 ^ 24
  if k ≤ c.sndNxt - c.sndUna then some (c.sndUna + k) else none

/-- Moves SND_UNA to `una`, with a selective map of its own or the old one shifted (R188). -/
def Dev.ackTo (d : Dev) (n una : Nat) (map : Option (BitVec 256)) (now : Nat) : Dev :=
  d.modConn n fun c =>
    { c with sndUna := una, retry := 0, sackMap := map.getD (c.sackMap >>> (una - c.sndUna)),
             sent := c.sent.filter (fun x => decide (una ≤ x.1) || c.awaited.contains x.1),
             resend := c.resend.filter (fun x => decide (una ≤ x) || c.awaited.contains x),
             lastSend := Tbl.getD c.sent una now }

/-- Notes a syndrome on the operation that holds a PSN; the lowest PSN decides (R185, R256). -/
def Conn.noteSynd (c : Conn) (psn st : Nat) : Conn :=
  { c with ops := c.ops.map fun o =>
      if o.nsent ≠ 0 ∧ (psn + 2 ^ 24 - o.first % 2 ^ 24) % 2 ^ 24 < o.nsent then
        let k := o.first + (psn + 2 ^ 24 - o.first % 2 ^ 24) % 2 ^ 24
        match o.synd with
        | some (_, k') => if k < k' then { o with synd := some (st, k) } else o
        | none => { o with synd := some (st, k) }
      else o }

/-- SCT_ACK_RECEIVED (R188, R204). PRESUMED, unsafe (assumption 59). -/
def execSctAckReceived (q : Fin 32) (s : State) : Host.Outcome State Fault Refusal :=
  s.run fun d =>
    match d.takeKind q fun p => p.kind == 2 with
    | none => d
    | some (x, d) =>
      let p := x.pkt
      let n := p.conn
      let c := d.conn n
      if p.e2e ≠ p.e2eOf then d.count 4 8
      else
        match (if d.isResident n && p.ta 16 8 == c.inc then c.absPsn p.psn else none) with
        | none => d.count 4 16
        | some una =>
          let map := BitVec.ofNat 256 (if p.len = 32 then field p.data 0 32 0 256 else 0)
          let synd := p.ta 56 8
          let d := d.touch n
          let d := if synd ≠ 0 then d.modConn n fun c => c.noteSynd (p.ta 32 24) synd else d
          let d := d.ackTo n una (some map) (d.cycles 0)
          let d := if p.h2.getLsbD 31 then
              let d := d.count 4 14
              if d.flag F.TRN_RC_EN c.tc then
                d.modConn n fun c => { c with rate := max (d.rateMin c.tc) (c.rate - c.rate * d.fld F.TRN_RC_CUT c.tc / 256) }
              else d
            else d
          d.connStep n

/-- RESPONSE_RECEIVED: a GET_RESP or ATOMIC_RESP (R188, R244, R255). -/
def execResponseReceived (q : Fin 32) (s : State) : Host.Outcome State Fault Refusal :=
  s.run fun d =>
    match d.takeKind q fun p => p.isResp with
    | none => d
    | some (x, d) =>
      let p := x.pkt
      let n := p.conn
      let c := d.conn n
      if d.usable n && !d.isResident n then d.count 4 16
      else if p.e2e ≠ p.e2eOf then d.count 4 8
      else if !d.usable n || !(c.ready || c.draining || c.closing) then d.count 4 7
      else if p.src ≠ c.peerEp ∨ sctInc p ≠ c.inc then d.count 4 6
      else
        let op := c.ops.find? fun o => o.nsent == 1 && o.first % 2 ^ 24 == p.psn && !o.awaited.isEmpty &&
          o.kind == (if sctOp p = 4 then 3 else 4)
        let una := c.absPsn p.psn
        if op.isNone && una.isNone then d.count 4 16
        else
          let d := d.touch n
          let d := match op with
            | none => d
            | some o =>
              if sctOp p = 6 then
                d.modConn n fun c => c.modOp o.id fun o =>
                  if p.poison then { o with poison := true, got := [0] }
                  else { o with val := BitVec.ofNat 64 (field p.data 0 8 0 64), got := [0] }
              else
                let k := sctOff p / 2048
                if o.got.contains k || o.placing.contains k then d
                else if p.poison then d.modConn n fun c => c.modOp o.id fun o => { o with poison := true, got := o.got ++ [k] }
                else
                  match o.own with
                  | .bridge _ => d.modConn n fun c => c.modOp o.id fun o =>
                      { o with data := Tbl.set o.data k (p.data, false), got := o.got ++ [k] }
                  | _ =>
                    match d.ask (Access.make (.dst n o.id k p.data) o.xctx (o.laddr + sctOff p) p.len 2 3 o.tick) with
                    | (.go segs, d) => (d.storeSegs segs p.data).modConn n fun c => c.modOp o.id fun o =>
                        { o with got := o.got ++ [k] }
                    | (.wait, d) => d.modConn n fun c => c.modOp o.id fun o => { o with placing := o.placing ++ [k] }
                    | (.fault st, d) => d.modConn n fun c => c.modOp o.id fun o => { o with fault := st }
          let d := match una with
            | some una => if c.sndUna < una then d.ackTo n una none (d.cycles 0) else d.modConn n fun c => { c with retry := 0 }
            | none => d
          d.connStep n

/-- Marks operations whose packets are sent again. -/
def Dev.resendLost (d : Dev) (n : Nat) (psns : List Nat) (now : Nat) : Dev :=
  (d.resend n psns).modConn n fun c =>
    { c with timer := now
             ops := c.ops.map fun o =>
               if psns.any fun p => decide (o.first ≤ p ∧ p < o.first + o.nsent) then { o with retried := true } else o }

/-- RTO_EXPIRED: the timer of R189 has reached the RTO; at RETRY_MAX the connection enters ERROR (R190). -/
def execRtoExpired (n : BitVec 24) (cyc : Fin 1025) (s : State) : Host.Outcome State Fault Refusal :=
  s.run fun d =>
    let k := n.toNat
    let c := d.conn k
    let now := d.cycles cyc.val
    match c.timerBase with
    | none => d
    | some t =>
      if !(c.ready || c.draining) || c.busy.isSome || decide (now < t + c.rtoCycles) then d
      else if c.retryMax ≤ c.retry then d.connError k
      else ((d.modConn k fun c => { c with retry := c.retry + 1 }).count 4 3).fault1.resendLost k c.lost now

/-- RECEIVER_BUSY. -/
def execReceiverBusy (q : Fin 32) (s : State) : Host.Outcome State Fault Refusal := s.run (·.takeCtrl q 1)

/-- Adds PSNs to those that are to be sent again: what waits already and is not among them stays, in order. -/
def Dev.resendMore (d : Dev) (n : Nat) (psns : List Nat) : Dev :=
  let old := (d.conn n).resend.filter fun x => !psns.contains x
  d.resendLost n ((old.filter fun x => psns.all fun p => decide (x < p)) ++ psns ++
    (old.filter fun x => !(psns.all fun p => decide (x < p)))) (d.cycles 0)

/-- BUSY_BACKOFF_END: the back-off ends, and the sender resends from the refused PSN, counting no retry (R191). -/
def execBusyBackoffEnd (n : BitVec 24) (s : State) : Host.Outcome State Fault Refusal :=
  s.run fun d =>
    let k := n.toNat
    match (d.conn k).busy with
    | none => d
    | some (t, p) =>
      if d.clk.edges < t then d
      else
        let d := d.modConn k fun c => { c with busy := none }
        d.resendMore k ((d.conn k).lost.filter fun x => decide (p ≤ x))

/-- The control complex hears of a dead link: it resends the peer requests that wait (R192, R440). -/
def Dev.peersNow (d : Dev) : Dev :=
  { d with mbx := { d.mbx with peerOut := Tbl.mapVal (fun r => { r with now := true }) d.mbx.peerOut } }

/-- LINK_NOTICE_RECEIVED: LINK_DOWN goes to the owner, and the resend is set for the second edge (R192). -/
def execLinkNoticeReceived (q : Fin 32) (s : State) : Host.Outcome State Fault Refusal :=
  s.run fun d => d.withPkt q (fun p => p.kind == 0x10) fun x d =>
    let p := x.pkt
    let toCc := fun (d : Dev) => if d.ccRuns then d.peersNow else d.holdMail (.packet p)
    if field p.data 3 1 6 1 = 1 then toCc (d.raise 0x0B06 [])
    else
      let n := field p.data 0 3 0 24
      let c := d.conn n
      if c.free then d
      else
        let d := d.raise 0x0B06 [n]
        let d := if c.localEp = 24 then d.brNotice n else if c.localEp = 31 then toCc d else d
        let t := d.clk.edges + 2
        if c.failed || c.notice.contains t then d else d.modConn n fun c => { c with notice := c.notice ++ [t] }

/-- NOTICE_RESEND: the second edge after a notice; nothing is counted as a retry (R192). -/
def execNoticeResend (n : BitVec 24) (s : State) : Host.Outcome State Fault Refusal :=
  s.run fun d =>
    let k := n.toNat
    match (d.conn k).notice with
    | [] => d
    | t :: rest =>
      if d.clk.edges < t then d
      else
        let d := d.modConn k fun c => { c with notice := rest }
        let c := d.conn k
        let old := c.timer
        (d.resendMore k c.unacked).modConn k fun c => { c with timer := old }

/-! Sending (R187, R203). -/

/-- Core cycles between the starts of two packets at a rate, for one of `size` bytes (R203). -/
def paceGap (size rate : Nat) : Nat := (size * 1024 + max 1 rate - 1) / max 1 rate

/-- Whether a connection may start a packet of `size` bytes now: S × 1,024 / RATE core cycles after the start of the one before
(R203). -/
def Dev.paced (d : Dev) (c : Conn) (now size : Nat) : Bool :=
  match c.startAt with
  | none => true
  | some t => decide (t + paceGap size (d.rateOf c) ≤ now)

/-- The size of packet `k` of an operation. -/
def Op.pktSize (o : Op) (k : Nat) (bs : List Byte) : Nat := 40 + padLen (o.packet k bs).2.2.2.2.2.length

/-- Sends packet `k` of an operation under a sequence number. -/
def Dev.sendOpPkt (d : Dev) (n : Nat) (o : Op) (k psn now : Nat) (bs : List Byte) (bad retx ackReq : Bool) : Dev :=
  let c := d.conn n
  let (op, seg, gen, key, off, data) := o.packet k bs
  let ta := sctWord op seg ackReq retx c.peerInc gen key
  let poison := o.poison || bad || o.fault != 0
  let d := d.sctSend c n 1 c.tc (psn % 2 ^ 24) c.peerConn ta off data poison
  d.modConn n fun c =>
    { c with sent := Tbl.set c.sent psn now, startAt := some now, sinceReq := if ackReq then 0 else c.sinceReq + 1,
             lastSend := if psn = c.sndUna then now else c.lastSend }

/-- Sends the oldest response that waits, once the pace lets it start (R176, R203). -/
def Dev.sendRespPkt (d : Dev) (n now : Nat) (r : Resp) : Dev :=
  let c := d.conn n
  if !d.paced c now (40 + padLen r.data.length) then d
  else
    let d := d.sctSend c n 1 c.tc r.psn c.peerConn (sctWord r.op r.seg false false c.peerInc 0 0) r.off r.data r.poison
    (d.modConn n fun c => { c with resps := c.resps.drop 1, startAt := some now }).count 4 0

/-- The packet a connection sends next: one that is to be sent again, or the first unsent one within the window; the ninth
ATOMIC waits (R182, R187). DEDUCED, unsafe (assumption 61). -/
def Conn.nextNew (c : Conn) : Option Op :=
  match c.ops.find? fun o => decide (o.nsent < o.npk) with
  | none => none
  | some o =>
    let atomics := (c.ops.filter fun x => x.kind == 4 && !x.awaited.isEmpty).length
    if 256 ≤ c.sndNxt - c.sndUna ∨ (o.kind = 4 ∧ 8 ≤ atomics) ∨ (o.fault ≠ 0 ∧ o.nsent = 0) then none else some o

/-- Sends the first PSN that is to be sent again (R187, R189). -/
def Dev.sendAgain (d : Dev) (k now p : Nat) (rest : List Nat) : Dev :=
  let c := d.conn k
  match c.opAt p with
  | none => d.modConn k fun c => { c with resend := rest }
  | some (o, i) =>
    match o.dataOf i with
    | none => d
    | some (bs, bad) =>
      if !d.paced c now (o.pktSize i bs) then d
      else
        let req := (o.ackReq && i + 1 == o.npk) || rest.isEmpty || decide (63 ≤ c.sinceReq)
        let d := (d.sendOpPkt k o i p now bs bad true req).count 4 2
        d.modConn k fun c => { c with resend := rest }

/-- Sends the next new packet (R187). -/
def Dev.sendNext (d : Dev) (k now : Nat) : Dev :=
  let c := d.conn k
  match c.nextNew with
  | none => d
  | some o =>
    match o.dataOf o.nsent with
    | none => d
    | some (bs, bad) =>
      if !d.paced c now (o.pktSize o.nsent bs) then d
      else
        let psn := c.sndNxt
        let first := if o.nsent = 0 then psn else o.first
        let req := (o.ackReq && o.nsent + 1 == o.npk) || decide (63 ≤ c.sinceReq)
        let d := (d.sendOpPkt k o o.nsent psn now bs bad false req).count 4 0
        let d := d.modConn k fun c =>
          { c.modOp o.id (fun o => { o with first := first, nsent := o.nsent + 1, data := Tbl.erase o.data o.nsent,
                                            reading := Tbl.erase o.reading o.nsent }) with sndNxt := c.sndNxt + 1 }
        let d := d.readAhead k
        match o.own with
        | .entry q _ => d.pumpQueue q
        | _ => d

/-- SCT_PACKET_SEND: a connection sends its next packet: a response, then what is to be sent again, then what is new (R187, R203).
DESIGN CHOICE, unsafe (assumption 127). -/
def execSctPacketSend (n : BitVec 24) (cyc : Fin 1025) (s : State) : Host.Outcome State Fault Refusal :=
  s.run fun d =>
    let k := n.toNat
    let c := d.conn k
    let now := d.cycles cyc.val
    if c.busy.isSome then d
    else match c.resps with
      | r :: _ => d.sendRespPkt k now r
      | [] =>
        if !(c.ready || c.draining) then d
        else match c.resend with
          | p :: rest => d.sendAgain k now p rest
          | [] => d.sendNext k now

/-- SOURCE_DATA_READ_DONE: the source of packet `i` of an operation has been read (R394, R542). -/
def Dev.sourceDone (d : Dev) (n id i : Nat) (data : List Byte) (res : MemRes) : Dev :=
  match (d.conn n).ops.find? fun o => o.id == id with
  | none => d
  | some o =>
    match Tbl.get o.reading i with
    | some (some segs) =>
      if segs.any d.segHeld && res == .ok then d
      else
        let r := d.readSegs segs data
        r.2.modConn n fun c => c.modOp id fun o =>
          { o with reading := Tbl.erase o.reading i, data := Tbl.set o.data i (r.1, res != .ok) }
    | _ => d

/-! Residency. -/

/-- Processes a packet that waited for its context. -/
def Dev.processMissed (d : Dev) (n : Nat) (m : Missed) : Dev :=
  if m.pkt.kind = 1 then d.receiveData n m.tick m.pkt m.refused else d.ctrlIn m.pkt

/-- A context is resident: its waiting packets are processed in arrival order (R198). -/
def Dev.processMiss (d : Dev) (n : Nat) (feed : List (BitVec 64)) : Dev :=
  let waiting := d.trn.miss.filter fun m => m.conn == n
  let d := ({ d with trn := { d.trn with miss := d.trn.miss.filter (fun m => m.conn != n), feed := feed } }).storeSync
  let d := waiting.foldl (fun (d : Dev) m => d.processMissed n m) (d.touch n)
  ({ d with trn := { d.trn with feed := [] } }).cacheSync

/-- Packets of contexts that have got their place in the cache with their content at hand are processed. -/
def Dev.processHere (d : Dev) : Dev :=
  (d.trn.miss.map (·.conn)).eraseDups.foldl (fun (d : Dev) n => if (d.conn n).resident then d.processMiss n [] else d) d

/-- CONTEXT_FETCH_DONE: the record of a context returns; its packets are processed in arrival order, or the connection enters
ERROR by R200. The record is what the device wrote there (R202); `bytes` is what a host-memory tier holds instead, where
software has changed it. DEDUCED, unsafe (assumption 128). -/
def Dev.fetchDone (d : Dev) (n : Nat) (bytes : Option (List Byte)) (res : MemRes) (feed : List (BitVec 64)) : Dev :=
  if !d.trn.fetch.contains n || d.arbWaits 2 n then d
  else
    let at_ := d.recordAt n
    let held := match at_.1 with
      | .host h => d.heldHier h
      | _ => false
    if held && res == .ok then d
    else
      let r := match bytes with
        | some bs => if at_.1 = Space.hbm then d.load .hbm at_.2 256 else (bs, d)
        | none => d.load at_.1 at_.2 256
      let d := r.2
      let d := { d with trn := { d.trn with fetch := d.trn.fetch.erase n } }
      if res ≠ .ok ∨ !recordOk n r.1 then
        let waiting := d.trn.miss.filter fun m => m.conn == n
        let d := ({ d with trn := { d.trn with miss := d.trn.miss.filter fun (m : Missed) => m.conn != n } }).storeSync
        let d := (d.modConn n fun c => { c with resident := true }).count 4 7 waiting.length
        let d := (d.setFld F.TRN_STATUS_CTX_BAD 0 1).raise 0x0B02 [n]
        (d.connError n).cacheSync
      else
        let d := d.modConn n fun c => { c.ofRecord r.1 with resident := true, rate := d.rateMax (c.ofRecord r.1).tc }
        d.processMiss n feed

/-- CONTEXT_FETCH_DONE (R198, R200). -/
def execContextFetchDone (n : BitVec 24) (bytes : Option (List Byte)) (res : MemRes) (feed : List (BitVec 64)) (s : State) :
    Host.Outcome State Fault Refusal :=
  s.runHost fun d => d.fetchDone n.toNat bytes res feed

/-- EVICT_COMMIT_REPORTED: the commit word of an eviction is written, and the slot is freed for a context that waits (R199). -/
def execEvictCommitReported (n : BitVec 24) (s : State) : Host.Outcome State Fault Refusal :=
  s.run fun d =>
    if !d.trn.evict.contains n.toNat || d.arbWaits 5 n.toNat then d
    else
      let d := { d with trn := { d.trn with evict := d.trn.evict.erase n.toNat } }
      let d := (d.modConn n.toNat fun c => { c with resident := false }).count 4 12
      d.makeRoom.processHere.cacheSync

/-- XLT_PROT_EXPIRED: a packet has waited 262,144 ticks in the reorder store (R261). -/
def execXltProtExpired (n psn : BitVec 24) (s : State) : Host.Outcome State Fault Refusal :=
  s.run fun d =>
    let k := n.toNat
    match Tbl.get (d.conn k).rcvd psn.toNat with
    | none => d
    | some r =>
      if !r.kept || decide (d.clk.edges < r.at_ + 262144) then d
      else
        let c := d.conn k
        let i := (psn.toNat + 2 ^ 24 - c.epsn) % 2 ^ 24
        let d := d.modConn k fun c =>
          { c with rcvd := Tbl.erase c.rcvd psn.toNat, rcvMap := c.rcvMap &&& ~~~(1#256 <<< i) }
        let d := match r.notify with
          | some (q, idx) => d.modQueue q fun x => x.modAt idx fun e => { e with reserved := false, key := none }
          | none => d
        let d := match Tbl.get d.mte.resv (k * 2 ^ 24 + psn.toNat) with
          | some (m, slot) =>
            ({ d with mte := { d.mte with resv := Tbl.erase d.mte.resv (k * 2 ^ 24 + psn.toNat) } }).freeSlot m slot
          | none => d
        let d := if sctOp r.pkt = 2 then
            match d.tunOf k with
            | some t => d.modTun t fun x => { x with resv := x.resv - 1 }
            | none => d
          else d
        let d := (d.itemDrop k psn.toNat).storeSync
        let d := { d with xlt := { d.xlt with wait := d.xlt.wait.filter fun a => decide (a.cont ≠ Cont.commit k psn.toNat) } }
        (d.count 9 7).raise 0x0F43 [k]

end Sys2Proof.Machine
end

