-- ==== Sys2Proof/Machine/Col.lean ====
section
/-!
DEFINITION. In-network collectives: groups, operations and their two phases, blocks, windows, the reduction units, failure
and forming (R291 to R321).
-/

namespace Sys2Proof.Machine

/-! What a group's registers say. -/

/-- STATE of a group: 0 FREE, 1 READY, 2 RUNNING, 3 BROKEN (Table 10-16). -/
def Dev.colState (d : Dev) (g : Nat) : Nat := d.fld F.COL_GRP_STATUS_STATE g

/-- W; 0 acts as 1 (Table 10-14). -/
def Dev.colW (d : Dev) (g : Nat) : Nat := max 1 (d.fld F.COL_GRP_CFG_WINDOW g)

/-- Whether this device is the root. -/
def Dev.colRoot (d : Dev) (g : Nat) : Bool := d.flag F.COL_GRP_CFG_ROOT g

/-- Child ports, ascending. -/
def Dev.colChildren (d : Dev) (g : Nat) : List Nat :=
  (List.range 128).filter fun p => (d.rd .COL_GRP_CHILD (4 * g + p / 32)).getLsbD (p % 32)

/-- Local members, ascending. -/
def Dev.colMembers (d : Dev) (g : Nat) : List Nat :=
  (List.range 31).filter fun e => (d.rd .COL_GRP_MEMBERS g).getLsbD e

/-- Every tree port. -/
def Dev.colPorts (d : Dev) (g : Nat) : List Nat :=
  d.colChildren g ++ (if d.colRoot g then [] else [d.fld F.COL_GRP_CFG_PARENT g])

/-- Every input of this device, in the order of R312. -/
def Dev.colInputs (d : Dev) (g : Nat) : List Nat := d.colChildren g ++ (d.colMembers g).map (128 + ·)

/-- Slots a group reserves on every unit (R303). -/
def Dev.colSlots (d : Dev) (g : Nat) : Nat := d.colW g * (if d.flag F.COL_GRP_CFG_EXACT_OK g then 9 else 1)

/-! Blocks (R300). -/

/-- Whether blocks are exact; a broadcast uses fast blocks. -/
def ColPar.exact (p : ColPar) : Bool := p.mode == 1 && decide (p.cop < 2)

def ColPar.count (p : ColPar) : Nat := p.countm1 + 1

/-- Elements of a full block. -/
def ColPar.per (p : ColPar) : Nat := if p.exact then 64 else 2048 / elSize p.dtype

/-- Number of vector blocks. -/
def ColPar.blocks (p : ColPar) : Nat := (p.count + p.per - 1) / p.per

/-- Elements of block `b`. -/
def ColPar.els (p : ColPar) (b : Nat) : Nat := min p.per (p.count - b * p.per)

/-- Bytes of a result or source block. -/
def ColPar.bytes (p : ColPar) (b : Nat) : Nat := p.els b * elSize p.dtype

/-- Byte offset of a block in a vector. -/
def ColPar.off (p : ColPar) (b : Nat) : Nat := b * p.per * elSize p.dtype

/-- Bytes of the whole vector. -/
def ColPar.total (p : ColPar) : Nat := p.count * elSize p.dtype

/-! Groups. -/

def ColOp.new (seq w : Nat) : ColOp :=
  { seq := seq, par := none, start := 0, mems := [], parts := [], offers := [], arrived := [], acc := [], ready := [],
    combined := 0, freed := [], low := 0, upto := 4 * w, said := 0, closed := false, decided := false, last := none,
    downs := [], ended := false }

def Dev.colGrp (d : Dev) (g : Nat) : ColGrp := Tbl.getD d.col.grps g { base := 0, ops := [], tail := [], posted := [] }

def Dev.setColGrp (d : Dev) (g : Nat) (x : ColGrp) : Dev := { d with col := { d.col with grps := Tbl.set d.col.grps g x } }

/-- The operation of an OPSEQ. -/
def Dev.colOp (d : Dev) (g seq : Nat) : Option ColOp :=
  ((d.colGrp g).ops ++ (d.colGrp g).tail).find? fun o => o.seq == seq

/-- Changes the operation of an OPSEQ. -/
def Dev.modColOp (d : Dev) (g seq : Nat) (f : ColOp → ColOp) : Dev :=
  let x := d.colGrp g
  let h := fun (o : ColOp) => if o.seq = seq then f o else o
  d.setColGrp g { x with ops := x.ops.map h, tail := x.tail.map h }

/-- Changes a member's part. -/
def ColOp.modMem (o : ColOp) (ep : Nat) (f : ColMem → ColMem) : ColOp :=
  { o with mems := o.mems.map fun m => if m.ep = ep then f m else m }

/-- The part of a member that is not over. -/
def ColOp.mem (o : ColOp) (ep : Nat) : Option ColMem := o.mems.find? fun m => m.ep == ep && m.fin.isNone

/-- Posts the completions of endpoint `ep` in OPSEQ order: each once none of an older operation is outstanding (R299). -/
def Dev.colRelease (d : Dev) (g ep : Nat) : Dev :=
  (((d.colGrp g).tail ++ (d.colGrp g).ops).foldl (fun (y : Dev × Bool) (o : ColOp) =>
    match o.mems.find? fun m => m.ep == ep with
    | none => y
    | some m =>
      match m.fin, y.2 with
      | some c, false =>
        ((y.1.modColOp g o.seq fun o => { o with mems := o.mems.filter fun m => m.ep != ep }).entryDone m.q m.idx c, false)
      | _, _ => (y.1, true)) (d, false)).1

/-- A member's part ends with a completion. -/
def Dev.colMemEnd (d : Dev) (g seq ep : Nat) (c : Compl) : Dev :=
  (d.modColOp g seq fun o => o.modMem ep fun m => { m with fin := some c }).colRelease g ep

/-- An operation that failed: its members' parts end with `c`, unless its results are all here. -/
def ColOp.fail (o : ColOp) (c : Compl) : ColOp :=
  { o with closed := true, mems := o.mems.map fun m => if m.fin.isSome then m else { m with fin := some c } }

/-- The place of an OPSEQ behind the oldest open operation. -/
def ColGrp.place (x : ColGrp) (seq : Nat) : Nat := (seq + 65536 - x.base) % 65536

/-- Whether the down phase of an operation has begun here. -/
def ColOp.downRuns (o : ColOp) : Bool := o.ended || !o.downs.isEmpty

/-- Whether the operation at place `k` may have an open phase: the oldest, and the next while the oldest is in its down phase
(R295). DEDUCED, unsafe (assumption 70). -/
def ColGrp.phase (x : ColGrp) (k : Nat) : Bool := k == 0 || (k == 1 && (x.ops.head?.map ColOp.downRuns).getD false)

/-- The operations whose up phase is open, oldest first. -/
def ColGrp.ups (x : ColGrp) : List ColOp := (x.ops.take (if x.phase 1 then 2 else 1)).filter fun o => !o.closed

/-- Makes sure that the operation at place `k` exists. -/
def Dev.colGrow (d : Dev) (g k : Nat) : Dev :=
  let x := d.colGrp g
  let more := (List.range (k + 1 - x.ops.length)).map fun i => ColOp.new ((x.base + x.ops.length + i) % 65536) (d.colW g)
  d.setColGrp g { x with ops := x.ops ++ more }

/-- STATE, OPSEQ and F of the group's registers follow its operations (Tables 10-1 and 10-16). -/
def Dev.colSync (d : Dev) (g : Nat) : Dev :=
  let x := d.colGrp g
  let st := d.colState g
  let d := if st = 1 ∨ st = 2 then
    d.setFld F.COL_GRP_STATUS_STATE g (if x.ops.any fun o => o.par.isSome then 2 else 1) else d
  (d.setFld F.COL_GRP_STATUS_OPSEQ g x.base).setFld F.COL_GRP_FLOW_F g ((x.ups.head?.map (·.low)).getD 0)

/-- RESERVED of every unit (R303). -/
def Dev.colReserved (d : Dev) : Nat := d.fld F.COL_UNIT_RESERVED 0

def Dev.setColReserved (d : Dev) (n : Nat) : Dev :=
  (List.range 4).foldl (fun d u => d.setFld F.COL_UNIT_RESERVED u n) d

/-! Packets (R301). -/

/-- Sends a collective packet over a tree port. -/
def Dev.colSend (d : Dev) (g port kind sub seq : Nat) (p : Option ColPar) (block arg flags soff : Nat) (data : List Byte) :
    Dev :=
  let p := p.getD { cop := 0, dtype := 0, rop := 0, mode := 0, countm1 := 0 }
  let ta := sub * 2 ^ 56 + seq * 2 ^ 40 + p.cop * 2 ^ 38 + p.dtype * 2 ^ 35 + p.rop * 2 ^ 32 + p.mode * 2 ^ 31 + p.countm1
  d.sendVia (if kind = 0xA then 159 else 152 + block % 4) port
    (Pkt.make kind 1 (d.ep 31) (d.fld F.LNK_PEER_DEVICE port * 32 + 31) g block (BitVec.ofNat 64 ta)
      (arg * 2 ^ 24 + flags * 2 ^ 16 + soff) data d.tickAux false (kind == 0xA) true)

/-- Cuts a stream into packets of at most 2,048 B. -/
def Dev.colStream (d : Dev) (g port kind sub seq : Nat) (p : ColPar) (block : Nat) (lastBlock soffs : Bool)
    (data : List Byte) : Dev :=
  let n := max 1 (chunks data.length)
  (List.range n).foldl (fun d k =>
    d.colSend g port kind sub seq (some p) block 0
      ((if k + 1 = n then 1 else 0) + (if lastBlock then 2 else 0)) (if soffs then 2048 * k else 0)
      ((data.drop (2048 * k)).take 2048)) d

/-- A stale packet (R301). -/
def Dev.colStale (d : Dev) (g seq : Nat) : Dev :=
  ((d.count 7 4).setFld F.COL_STATUS_STALE 0 1).raise 0x0E03 [g, seq]

/-! Failure (R315, R316). -/

/-- Whether an operation's results are all here, so that a failure no longer touches its members (R316). -/
def ColOp.settled (o : ColOp) : Bool :=
  match o.par with
  | none => false
  | some p => o.ended || (p.cop != 1 && p.cop != 3 && o.downs.length == p.blocks)

/-- Whether an access belongs to an operation of a group. -/
def Cont.ofCol (k : Cont) (g : Nat) (seqs : List Nat) : Bool :=
  match k with
  | .colSrc g' s _ _ => g' == g && seqs.contains s
  | .colDst g' s _ _ _ => g' == g && seqs.contains s
  | _ => false

/-- The group fails: FAIL goes out on every tree port but `origin`, the reason is recorded, the group is BROKEN, and its local
members complete COLLECTIVE_FAILED. Operations whose results are all here go on placing them. DEDUCED, unsafe (assumption 71). -/
def Dev.colFail (d : Dev) (g reason : Nat) (origin : Option Nat) (named : Option Nat) : Dev :=
  let st := d.colState g
  if st ≠ 1 ∧ st ≠ 2 then d
  else
    let x := d.colGrp g
    let opened := (x.ops.take (if x.phase 1 then 2 else 1)).filter fun o => o.par.isSome
    let seq := named.getD ((opened.getLast?.map (·.seq)).getD x.base)
    let d := (d.colPorts g).foldl (fun d p =>
      if some p = origin then d else d.colSend g p 0xA 2 seq none 0 (reason % 256) 0 0 []) d
    let gone := x.ops.filter fun o => !o.settled
    let all := x.ops.map fun o => if o.settled then o else o.fail (d.compl 0xB)
    let d := d.setColGrp g { x with ops := [], tail := x.tail ++ all.filter fun o => !o.mems.isEmpty }
    let d := { d with xlt := { d.xlt with wait := d.xlt.wait.filter fun a => !a.cont.ofCol g (gone.map ColOp.seq) } }
    let d := (d.setFld F.COL_GRP_STATUS_STATE g 3).setFld F.COL_GRP_STATUS_REASON g (reason % 256)
    let d := (d.setFld F.COL_STATUS_FAILED 0 1).fault2
    let d := if reason = 4 then d.setFld F.COL_STATUS_FORMAT 0 1 else d
    let d := (d.count 7 3 ((opened.filter fun (o : ColOp) => !o.settled).length)).raise 0x0E01 [g, seq, reason % 256]
    let d := d.setFld F.COL_GRP_FLOW_F g 0
    gone.foldl (fun d o => o.mems.foldl (fun (d : Dev) m => d.colRelease g m.ep) d) d

/-- A local member fails: its entry completes with a status, and before the decision the operation fails for the others
(R299, R316). -/
def Dev.colMemFail (d : Dev) (g seq ep status : Nat) : Dev :=
  let d := if status = 4 ∨ status = 5 then d.count 5 3 else d
  match d.colOp g seq with
  | none => d
  | some o =>
    match o.mem ep with
    | none => d
    | some _ =>
      let d := d.colMemEnd g seq ep (d.compl status)
      if o.decided || o.settled then d else d.colFail g 2 none none

/-! The end of an operation. -/

/-- A member's part is over: its entry completes OK. -/
def Dev.colMemDone (d : Dev) (g seq ep len : Nat) : Dev :=
  match (d.colOp g seq).bind fun o => o.mem ep with
  | none => d
  | some _ => d.colMemEnd g seq ep { d.compl 0 with len := len }

/-- Whether both phases of an operation are over at this device; results may still wait to be placed. -/
def ColOp.over (o : ColOp) : Bool := o.closed && o.settled

/-- Operations whose phases are over leave the group's open ones, oldest first (Table 10-1). -/
def Dev.colPop (d : Dev) (g : Nat) : Dev :=
  let x := d.colGrp g
  let n := (x.ops.takeWhile ColOp.over).length
  let tail := (x.tail ++ x.ops.take n).filter fun o => !o.mems.isEmpty
  (d.setColGrp g { x with base := (x.base + n) % 65536, ops := x.ops.drop n, tail := tail }).colSync g

/-! Windows (R302). -/

/-- Frees block `b`; F and the windows of the children follow. -/
def Dev.colFree (d : Dev) (g seq b : Nat) : Dev :=
  match d.colOp g seq with
  | none => d
  | some o =>
    let freed := b :: o.freed
    let low := (List.range freed.length).foldl (fun (f : Nat) _ => if freed.contains f then f + 1 else f) o.low
    let w := d.colW g
    let tell := decide (w ≤ low - o.said)
    let d := d.modColOp g seq fun o => { o with freed := freed.filter fun i => decide (low ≤ i)
                                                low := low, said := if tell then low else o.said }
    if tell && decide ((o.par.map ColPar.cop).getD 0 < 2) then
      (d.colChildren g).foldl (fun d p => d.colSend g p 0xA 1 seq o.par 0 (low + 4 * w) 0 0 []) d
    else d

/-! Local vectors. -/

/-- The descriptor of a member's COLL. -/
def Dev.colEntry (d : Dev) (m : ColMem) : Option Entry := (d.queue m.q).at_ m.idx

/-- Address of a member's source or result vector (Table 07-7). -/
def Entry.colAddr (e : Entry) (dst : Bool) : Nat := if dst then e.f 24 8 else e.f 8 8

/-- Judges a member's vector in the current tick: when its source is first read, and when its result is first placed (R257,
R299). The verdict counts as held from then on (R260). -/
def Dev.colJudge (d : Dev) (g seq ep : Nat) (dst : Bool) : Except Nat Nat × Dev :=
  match (d.colOp g seq).bind fun o => (o.mem ep).bind fun m => o.par.map fun p => (m, p) with
  | none => (.error 0, d)
  | some (m, p) =>
    match d.colEntry m with
    | none => (.error 0, d)
    | some e =>
      let t := ((if dst then m.dst else m.src).getD d.tickNow)
      match d.localCheck t (d.fld F.WQ_Q_CFG_PD m.q) e.lkey (if dst then 2 else 1) (e.colAddr dst) p.total with
      | .error s => (.error s, d)
      | .ok r =>
        let d := d.modColOp g seq fun o =>
          o.modMem ep fun m => if dst then { m with dst := some t } else { m with src := some t }
        (.ok r.xctx, d.modQueue m.q fun x =>
          x.modAt m.idx fun e => if e.verdict then e else { e with verdict := true, tick := t })

/-- Blocks that a member may have asked for: those below the limit that the children were last told in the up phase (R302), and
as many ahead of the last sent for a broadcast's root. -/
def Dev.colLimit (d : Dev) (g : Nat) (o : ColOp) (p : ColPar) : Nat :=
  min p.blocks ((if p.cop = 2 then o.downs.length else o.said) + 4 * d.colW g)

/-- Asks for one source block of a member. -/
def Dev.colAsk (d : Dev) (g seq ep : Nat) : Dev :=
  match (d.colOp g seq).bind fun o => (o.mem ep).bind fun m => o.par.map fun p => (o, m, p) with
  | none => d
  | some (o, m, p) =>
    if d.colLimit g o p ≤ m.next then d
    else
      match d.colEntry m, d.colJudge g seq ep false with
      | none, _ => d
      | some _, (.error s, d) => d.colMemFail g seq ep s
      | some e, (.ok x, d) =>
        let b := m.next
        let d := d.modColOp g seq fun o => o.modMem ep fun m => { m with next := b + 1 }
        match d.ask (Access.make (.colSrc g seq ep b) x (e.colAddr false + p.off b) (p.bytes b) 1 3 m.src) with
        | (.wait, d) => d.modColOp g seq fun o => o.modMem ep fun m => { m with asked := m.asked ++ [b] }
        | (.fault s, d) => d.colMemFail g seq ep s
        | (.go segs, d) =>
          d.modColOp g seq fun o => o.modMem ep fun m => { m with reading := Tbl.set m.reading b segs }

/-- Asks for every source block that may be asked for. -/
def Dev.colRead (d : Dev) (g : Nat) : Dev :=
  let x := d.colGrp g
  let up := (x.ups.filter fun o => decide ((o.par.map ColPar.cop).getD 2 < 2)).map fun o =>
    (o, o.mems.filter fun m => (d.colEntry m).any (·.started))
  let bc := x.ops.filterMap fun o =>
    if (o.par.map ColPar.cop) = some 2 ∧ o.decided ∧ d.colRoot g then
      some (o, o.mems.filter fun m => (d.colEntry m).any (·.started) && m.ep == d.fld F.COL_GRP_CTRL_ROOT_EP g)
    else none
  (up ++ bc).foldl (fun d y => y.2.foldl (fun d m =>
    (List.range (4 * d.colW g)).foldl (fun d _ => d.colAsk g y.1.seq m.ep) d) d) d

/-- A result block of a member has been placed, or could not be. -/
def Dev.colPlaced (d : Dev) (g seq ep b status : Nat) : Dev :=
  match (d.colOp g seq).bind fun o => (o.mem ep).bind fun m => o.par.map fun p => (m, p) with
  | none => d
  | some (m, p) =>
    if status ≠ 0 then d.colMemFail g seq ep status
    else
      let d := d.modColOp g seq fun o =>
        o.modMem ep fun m => { m with placing := m.placing.filter (· != b), placed := m.placed + 1 }
      let d := if p.cop = 1 then d.colFree g seq b else d
      if m.placed + 1 = p.blocks then d.colMemDone g seq ep p.total else d

/-- Places a result block for a member. -/
def Dev.colPlace (d : Dev) (g seq ep b : Nat) (bs : List Byte) : Dev :=
  match (d.colOp g seq).bind fun o => (o.mem ep).bind fun m => o.par.map fun p => (m, p) with
  | none => d
  | some (m, p) =>
    match d.colEntry m, d.colJudge g seq ep true with
    | none, _ => d
    | some _, (.error s, d) => d.colMemFail g seq ep s
    | some e, (.ok x, d) =>
      match d.ask (Access.make (.colDst g seq ep b bs) x (e.colAddr true + p.off b) bs.length 2 3 m.dst) with
      | (.wait, d) => d.modColOp g seq fun o => o.modMem ep fun m => { m with placing := m.placing ++ [b] }
      | (.fault s, d) => d.colPlaced g seq ep b s
      | (.go segs, d) => (d.storeSegs segs bs).colPlaced g seq ep b 0

/-! The down phase (R296, R314). -/

/-- A result block goes down: to the children, and to the local members that want it. -/
def Dev.colDownData (d : Dev) (g seq b : Nat) (bs : List Byte) : Dev :=
  match (d.colOp g seq).bind fun o => o.par.map fun p => (o, p) with
  | none => d
  | some (o, p) =>
    let root := d.colRoot g
    let rep := d.fld F.COL_GRP_CTRL_ROOT_EP g
    let d := if p.cop = 1 then d
      else (d.colChildren g).foldl (fun d c => d.colStream g c 9 0 seq p b (b + 1 == p.blocks) false bs) d
    let d := (d.count 7 2).modColOp g seq fun o => { o with downs := b :: o.downs }
    let d := if root && p.cop == 0 then d.colFree g seq b else d
    let d := o.mems.foldl (fun d m =>
      let own := root && m.ep == rep
      if p.cop = 0 ∨ (p.cop = 1 ∧ own) ∨ (p.cop = 2 ∧ !own) then d.colPlace g seq m.ep b bs else d) d
    if root && p.cop == 2 && (o.downs.length + 1 == p.blocks) then d.colMemDone g seq rep 0 else d

/-- END goes down. -/
def Dev.colDownEnd (d : Dev) (g seq : Nat) : Dev :=
  match (d.colOp g seq).bind fun o => o.par.map fun p => (o, p) with
  | none => d
  | some (o, p) =>
    let root := d.colRoot g
    let rep := d.fld F.COL_GRP_CTRL_ROOT_EP g
    let d := (d.colChildren g).foldl (fun d c => d.colStream g c 9 1 seq p 0 true false []) d
    let d := (d.count 7 2).modColOp g seq fun o => { o with ended := true, decided := true }
    o.mems.foldl (fun d m => if p.cop = 1 ∧ root ∧ m.ep = rep then d else d.colMemDone g seq m.ep 0) d

/-- The decision at the root (R314). DEDUCED, unsafe (assumption 72). -/
def Dev.colDecide (d : Dev) (g seq : Nat) : Dev :=
  match (d.colOp g seq).bind fun o => o.par.map fun p => (o, p) with
  | none => d
  | some (o, p) =>
    let d := (d.count 7 0).modColOp g seq fun o => { o with decided := true, closed := true, last := none }
    match p.cop with
    | 0 => d.colDownData g seq (p.blocks - 1) (o.last.getD [])
    | 2 => d.colRead g
    | _ => d.colDownEnd g seq

/-! The up phase. -/

/-- The wire form of a combined block: exact partials, or elements. -/
def ColPar.wire (p : ColPar) (es : List El) : List Byte :=
  if p.exact then es.flatMap fun e => e.encode p.dtype
  else es.flatMap fun e => leBytes (elSize p.dtype) e.num.toNat

/-- The result bytes of a combined block, rounded once in exact mode (R309). -/
def ColPar.result (p : ColPar) (es : List El) : List Byte :=
  es.flatMap fun e => leBytes (elSize p.dtype) (if p.exact then e.round p.dtype else e.num.toNat)

/-- Sends up combined blocks that the parent's window lets go (R302). The up phase closes with the last. -/
def Dev.colSendUp (d : Dev) (g seq : Nat) : Dev :=
  match (d.colOp g seq).bind fun o => o.par.map fun p => (o, p) with
  | none => d
  | some (o, p) =>
    let d := o.ready.foldl (fun d y =>
      if y.1 < o.upto then
        ((d.colStream g (d.fld F.COL_GRP_CFG_PARENT g) 8 0 seq p y.1 (y.1 + 1 == p.blocks) p.exact
          (p.wire y.2)).modColOp g seq fun o => { o with ready := Tbl.erase o.ready y.1 }).colFree g seq y.1
      else d) d
    d.modColOp g seq fun o =>
      if o.combined = p.blocks ∧ o.ready.isEmpty then { o with closed := true } else o

/-- Every input of block `b` is combined. -/
def Dev.colBlockDone (d : Dev) (g seq b : Nat) (es : List El) : Dev :=
  match (d.colOp g seq).bind fun o => o.par.map fun p => (o, p) with
  | none => d
  | some (o, p) =>
    let d := (d.count 7 1).modColOp g seq fun o => { o with acc := Tbl.erase o.acc b, combined := o.combined + 1 }
    if d.colRoot g then
      let bs := p.result es
      let d := if p.cop = 0 ∧ b + 1 = p.blocks then d.modColOp g seq fun o => { o with last := some bs }
        else d.colDownData g seq b bs
      match d.colOp g seq with
      | some o => if o.combined = p.blocks ∧ !o.decided then d.colDecide g seq else d
      | none => d
    else
      let d := if o.upto ≤ b then d.count 7 5 else d
      (d.modColOp g seq fun o => { o with ready := Tbl.set o.ready b es }).colSendUp g seq

/-- ARRIVE goes up, or the root decides, once every input of a broadcast or barrier is here. -/
def Dev.colArrive (d : Dev) (g seq : Nat) : Dev :=
  match (d.colOp g seq).bind fun o => o.par.map fun p => (o, p) with
  | none => d
  | some (o, p) =>
    if p.cop < 2 ∨ o.closed ∨ ¬ (d.colInputs g).all o.arrived.contains then d
    else
      let d := d.count 7 1
      if d.colRoot g then d.colDecide g seq
      else
        (d.colStream g (d.fld F.COL_GRP_CFG_PARENT g) 8 1 seq p 0 true false []).modColOp g seq fun o =>
          { o with closed := true }

/-- Goes on with a group: each open up phase reads its local vectors or sends its ARRIVE, and operations that are over leave,
which opens the next. -/
def Dev.colGo (d : Dev) (g : Nat) : Dev :=
  (List.range 4).foldl (fun d _ =>
    let d := (d.colGrp g).ups.foldl (fun (d : Dev) (o : ColOp) => d.colArrive g o.seq) d
    (d.colRead g).colPop g) d

/-- An input's parameters join an operation (R297); the answer is whether they agree. -/
def Dev.colJoin (d : Dev) (g seq : Nat) (p : ColPar) : Bool × Dev :=
  let p := if p.cop = 3 then { p with countm1 := 0 } else p
  match (d.colOp g seq).bind ColOp.par with
  | some p' => if p' = p then (true, d) else (false, d.colFail g 3 none none)
  | none => (true, (d.modColOp g seq fun o => { o with par := some p, start := d.clk.edges }).colSync g)

/-- The tree port or internal reason why a collective packet is stale (R301). -/
def Dev.colOpen (d : Dev) (g : Nat) : Bool := d.colState g == 1 || d.colState g == 2

/-! Members (R296 to R299). -/

/-- The endpoint of a queue: the host endpoint of its hierarchy, or the SERVICE endpoint of the package slot that an
engine-internal queue belongs to. -/
def Dev.queueEp (d : Dev) (q : Nat) : Nat :=
  match d.eng.queuesOf.find? fun k => k.2.contains q with
  | some k => d.fld F.ENG_PKG_STATUS_ENDPOINT k.1
  | none => if d.hierOf (d.queueFn q) < 24 then d.hierOf (d.queueFn q) else 31

/-- Check 5 of Table 07-8 for a COLL: the group is formed and includes this endpoint. -/
def Dev.colMember (d : Dev) (g q : Nat) : Bool :=
  d.colState g != 0 && (d.colMembers g).contains (d.queueEp q)

/-- A COLL is taken (Table 10-1): on a BROKEN group it completes at once, else its endpoint becomes a local input of its next
operation. -/
def Dev.colTake (d : Dev) (q idx : Nat) : Dev :=
  match (d.queue q).at_ idx with
  | none => d
  | some e =>
    let g := e.conn % 4096
    let ep := d.queueEp q
    if d.colState g = 3 then d.entryDone q idx (d.compl 0xB)
    else
      let x := d.colGrp g
      let n := Tbl.getD x.posted ep 0
      let seq := (d.fld F.COL_GRP_CTRL_OPSEQ g + n) % 65536
      let d := (d.setColGrp g { x with posted := Tbl.set x.posted ep (n + 1) }).colGrow g (x.place seq)
      let m : ColMem := { ep := ep, q := q, idx := idx, next := 0, asked := [], reading := [], placing := [], placed := 0,
                          src := none, dst := none, fin := none }
      let d := d.modColOp g seq fun o => { o with mems := o.mems ++ [m] }
      let p : ColPar := { cop := e.f 32 1, dtype := e.f 33 1, rop := e.f 34 1, mode := e.f 35 1, countm1 := e.len - 1 }
      (d.colJoin g seq p).2

/-- A COLL starts: its vector is read from now on, or its arrival counts. -/
def Dev.colStart (d : Dev) (q idx : Nat) : Dev :=
  match (d.queue q).at_ idx with
  | none => d
  | some e =>
    let g := e.conn % 4096
    match (d.colGrp g).ops.find? fun o => o.mems.any fun m => m.q == q && m.idx == idx with
    | none => d
    | some o =>
      (d.modColOp g o.seq fun o =>
        if 2 ≤ (o.par.map ColPar.cop).getD 0 then { o with arrived := o.arrived ++ [128 + d.queueEp q] } else o).colGo g

/-- The entries of queue `q` that the queue's abort or a hierarchy's reset takes out of their operations (R315, R316): the
operation fails with MEMBER unless it is decided here. -/
def Dev.colAbort (d : Dev) (q : Nat) : Dev :=
  d.col.grps.foldl (fun (d : Dev) (y : Nat × ColGrp) =>
    (y.2.ops ++ y.2.tail).foldl (fun d o =>
      match (d.colOp y.1 o.seq).bind fun o => o.mems.find? fun m => m.q == q with
      | none => d
      | some m =>
        let d := d.modColOp y.1 o.seq fun o => { o with mems := o.mems.filter fun m' => m'.ep != m.ep }
        let d := { d with xlt := { d.xlt with wait := d.xlt.wait.filter fun a => match a.cont with
          | .colSrc g s e _ => !(g == y.1 && s == o.seq && e == m.ep)
          | .colDst g s e _ _ => !(g == y.1 && s == o.seq && e == m.ep)
          | _ => true } }
        let d := d.modQueue q fun x => x.modAt m.idx fun e => { e with done := some (d.compl 1), verdict := false }
        let d := d.colRelease y.1 m.ep
        if o.decided || o.settled then d.colPop y.1 else (d.colFail y.1 2 none none)) d) d

/-! Continuations of memory accesses. -/

/-- The translation of a source block is known. -/
def Dev.colSrcGo (d : Dev) (g seq ep b : Nat) (r : Except Nat (List Seg)) : Dev :=
  match r with
  | .error s => (d.colMemFail g seq ep s).colGo g
  | .ok segs =>
    d.modColOp g seq fun o => o.modMem ep fun m =>
      { m with asked := m.asked.filter (· != b), reading := Tbl.set m.reading b segs }

/-- A placement's translation is known. -/
def Dev.colDstGo (d : Dev) (g seq ep b : Nat) (bs : List Byte) (r : Except Nat (List Seg)) : Dev :=
  match r with
  | .error s => (d.colPlaced g seq ep b s).colGo g
  | .ok segs => ((d.storeSegs segs bs).colPlaced g seq ep b 0).colGo g

/-- A source block has been read: it is offered to its unit, or a broadcast's root sends it down. A read that fails completes
the member POISONED (R394). -/
def Dev.colSourceDone (d : Dev) (g seq ep b : Nat) (data : List Byte) (res : MemRes) : Dev :=
  match (d.colOp g seq).bind fun o => (o.mem ep).bind fun m => o.par.map fun p => (m, p) with
  | none => d
  | some (m, p) =>
    match Tbl.get m.reading b with
    | none => d
    | some segs =>
      if segs.any d.segHeld && res == .ok then d
      else
        let r := d.readSegs segs data
        let d := r.2.modColOp g seq fun o => o.modMem ep fun m => { m with reading := Tbl.erase m.reading b }
        if res ≠ .ok then (d.colMemFail g seq ep 8).colGo g
        else if p.cop = 2 then (d.colDownData g seq b r.1).colGo g
        else
          let x : ColOffer := { inp := 128 + ep, block := b, cells := (r.1.length + 255) / 256, data := r.1 }
          d.modColOp g seq fun o => { o with offers := o.offers ++ [x] }

/-! The reduction units (R304 to R312). -/

/-- The kind of a block combination (Table 14-2). -/
def ColPar.kind (p : ColPar) : Nat := if !p.exact then 3 else if p.dtype = 0 then 4 else 5

/-- Share of a tick's intake that one element takes, in 131,072ths (Table 10-8). -/
def ColPar.share (p : ColPar) : Nat :=
  if p.exact then (if p.dtype = 0 then 16 else 8)
  else match elSize p.dtype with
    | 8 => 4
    | 4 => 2
    | _ => 1

/-- The next block a unit serves: the lowest block first, then round-robin by input number (R312).
DEDUCED, unsafe (assumption 145). -/
def Dev.colNext (d : Dev) (u : Nat) : Option (Nat × Nat × ColPar × ColOffer) :=
  let turn := Tbl.getD d.col.turn u 255
  let key := fun (g : Nat) (o : ColOffer) => (o.block * 256 + (o.inp + 511 - turn) % 256) * 4096 + g
  d.col.grps.foldl (fun (m : Option (Nat × Nat × ColPar × ColOffer)) (y : Nat × ColGrp) =>
    (y.2.ups.filterMap fun o => o.par.map fun p => (o, p)).foldl (fun m (o, p) =>
      o.offers.foldl (fun m x =>
        if x.block % 4 ≠ u then m
        else match m with
          | none => some (y.1, o.seq, p, x)
          | some b => if key y.1 x < key b.1 b.2.2.2 then some (y.1, o.seq, p, x) else m) m) m) none

/-- The elements an input brings; none for a malformed stream. -/
def ColPar.take (p : ColPar) (x : ColOffer) : Option (List El × Nat) :=
  let n := p.els x.block
  if p.exact ∧ x.inp < 128 then decodeEls p.dtype n x.data 0
  else if x.data.length ≠ p.bytes x.block then none
  else
    let vs := elsOf p.dtype n x.data
    some (if p.exact then vs.map (exactOf p.dtype) else vs.map fun (v : Nat) => { num := (v : Int), flags := 0 }, 0)

/-- Combines two blocks (Table 10-5, R308). -/
def ColPar.merge (p : ColPar) (a b : List El) : List El :=
  (a.zip b).map fun (x, y) =>
    if p.exact then x.add y else { num := (fastOp p.dtype p.rop x.num.toNat y.num.toNat : Nat), flags := 0 }

/-- One block combination that the intake limit and Topiary allow. DEDUCED, unsafe (assumption 73). -/
def Dev.colStep (d : Dev) (u : Nat) : Dev :=
  if d.col.stall.contains u then d
  else
    match d.colNext u with
    | none => d
    | some (g, seq, p, x) =>
      let cells := Tbl.getD d.col.cells u 0 + x.cells
      let share := Tbl.getD d.col.share u 0 + p.els x.block * p.share
      let stall := fun (d : Dev) => { d with col := { d.col with stall := u :: d.col.stall } }
      if 1024 < cells ∨ 131072 < share then stall (d.count 7 6)
      else match d.spend p.kind (d.fld F.PWR_COST_COST p.kind) with
        | none => stall d
        | some d =>
          let c := d.col
          let d := { d with col := { c with cells := Tbl.set c.cells u cells, share := Tbl.set c.share u share
                                            turn := Tbl.set c.turn u x.inp } }
          let d := d.modColOp g seq fun o =>
            { o with offers := o.offers.filter fun y => !(y.inp == x.inp && y.block == x.block) }
          match p.take x with
          | none => d.colFail g 4 none none
          | some (es, limbs) =>
            let d := d.count 7 7 limbs
            let old := ((d.colOp g seq).bind fun o => Tbl.get o.acc x.block)
            let ins := x.inp :: (old.map (·.1)).getD []
            let es := match old with
              | some (_, a) => p.merge a es
              | none => es
            let d := d.modColOp g seq fun o => { o with acc := Tbl.set o.acc x.block (ins, es) }
            if (d.colInputs g).all ins.contains then (d.colBlockDone g seq x.block es).colGo g else d

/-- COL_STEP. -/
def execColStep (u : Fin 4) (s : State) : Host.Outcome State Fault Refusal := s.run fun d => d.colStep u.val

/-! Packets that arrive. -/

/-- Parameters in a packet (Table 10-4). -/
def ColPar.ofPkt (x : Pkt) : ColPar :=
  { cop := x.ta 38 2, dtype := x.ta 35 3, rop := x.ta 32 3, mode := x.ta 31 1, countm1 := x.ta 0 28 }

/-- Takes in a packet of an up block. -/
def Dev.colUpData (d : Dev) (g seq port : Nat) (p : ColPar) (x : Pkt) : Dev :=
  let b := x.psn
  let sofar := ((d.colOp g seq).bind fun o => o.parts.find? fun y => y.inp == port && y.block == b).getD
    { inp := port, block := b, cells := 0, data := [] }
  let y := { sofar with cells := sofar.cells + (x.len + 255) / 256, data := sofar.data ++ x.data.take x.len }
  let twice := ((d.colOp g seq).map fun o =>
    o.offers.any (fun z => z.inp == port && z.block == b) || decide (b < o.low) || o.freed.contains b ||
      (Tbl.get o.ready b).isSome ||
      ((Tbl.get o.acc b).map (fun a => a.1.contains port)).getD false).getD false
  if p.blocks ≤ b ∨ (p.exact ∧ x.tb 0 16 ≠ sofar.data.length) then d.colFail g 4 none none
  else if twice then d
  else
    let rest := fun (o : ColOp) => o.parts.filter fun z => !(z.inp == port && z.block == b)
    if x.tb 16 1 = 1 then
      if !p.exact && y.data.length != p.bytes b then d.colFail g 4 none none
      else d.modColOp g seq fun o => { o with parts := rest o, offers := o.offers ++ [y] }
    else d.modColOp g seq fun o => { o with parts := rest o ++ [y] }

/-- A COL_UP packet from a child port. -/
def Dev.colUp (d : Dev) (port : Nat) (x : Pkt) : Dev :=
  let g := x.conn % 4096
  let seq := x.ta 40 16
  let grp := d.colGrp g
  if !d.colOpen g || !(d.colChildren g).contains port || !grp.phase (grp.place seq) ||
      (grp.ops.any fun o => o.seq == seq && o.closed) then
    d.colStale g seq
  else if x.e2e ≠ x.e2eOf then d.colFail g 4 none none
  else
    let d := d.colGrow g (grp.place seq)
    let p := ColPar.ofPkt x
    match d.colJoin g seq p with
    | (false, d) => d
    | (true, d) =>
      let arrive := x.ta 56 8 == 1
      if arrive != decide (2 ≤ p.cop) then d.colFail g 4 none none
      else if arrive then
        (d.modColOp g seq fun o =>
          if o.arrived.contains port then o else { o with arrived := o.arrived ++ [port] }).colGo g
      else (d.colUpData g seq port p x).colGo g

/-- COL_UP: a packet at a unit. The unit takes none while its step waits for the next tick (R535). -/
def execColUp (u : Fin 4) (s : State) : Host.Outcome State Fault Refusal :=
  s.run fun d =>
    if d.col.stall.contains u.val then d
    else match d.takeStage (152 + u.val) (fun x => x.kind == 8) with
      | none => d
      | some (q, d) => d.colUp q.inp q.pkt

/-- A COL_DOWN packet from the parent port. -/
def Dev.colDown (d : Dev) (port : Nat) (x : Pkt) : Dev :=
  let g := x.conn % 4096
  let seq := x.ta 40 16
  let grp := d.colGrp g
  let b := x.psn
  let known := ((grp.ops.take 2).find? fun o => o.seq == seq).bind fun o => o.par.map fun p => (o, p)
  if !d.colOpen g || d.colRoot g || port != d.fld F.COL_GRP_CFG_PARENT g then d.colStale g seq
  else match known with
    | none => d.colStale g seq
    | some (o, p) =>
      if o.settled || o.downs.contains b then d.colStale g seq
      else if x.e2e ≠ x.e2eOf then d.colFail g 4 none none
      else if x.ta 56 8 = 1 then (d.colDownEnd g seq).colGo g
      else if p.blocks ≤ b ∨ x.len ≠ p.bytes b then d.colFail g 4 none none
      else
        let d := if x.tb 17 1 = 1 ∨ p.cop = 2 then d.modColOp g seq fun o => { o with decided := true } else d
        (d.colDownData g seq b (x.data.take x.len)).colGo g

/-- COL_DOWN. -/
def execColDown (u : Fin 4) (s : State) : Host.Outcome State Fault Refusal :=
  s.run fun d =>
    match d.takeStage (152 + u.val) (fun x => x.kind == 9) with
    | none => d
    | some (q, d) => d.colDown q.inp q.pkt

/-- WINDOW: the parent raises UPTO (R302). -/
def execWindowMsg (s : State) : Host.Outcome State Fault Refusal :=
  s.run fun d =>
    match d.takeStage 159 (fun x => x.kind == 0xA && x.ta 56 8 != 2) with
    | none => d
    | some (q, d) =>
      let x := q.pkt
      let g := x.conn % 4096
      let seq := x.ta 40 16
      if !d.colOpen g || d.colRoot g || q.inp != d.fld F.COL_GRP_CFG_PARENT g || x.ta 56 8 != 1 ||
          !(d.colGrp g).phase ((d.colGrp g).place seq) || ((d.colOp g seq).bind (·.par)).isNone then d.colStale g seq
      else if x.e2e ≠ x.e2eOf then d.colFail g 4 none none
      else
        ((d.modColOp g seq fun o => { o with upto := max o.upto (x.tb 24 24) }).colSendUp g seq).colGo g

/-- FAIL (R315): it fails the group unless it names an operation older than the oldest open one. -/
def execFailMsg (s : State) : Host.Outcome State Fault Refusal :=
  s.run fun d =>
    match d.takeStage 159 (fun x => x.kind == 0xA && x.ta 56 8 == 2) with
    | none => d
    | some (q, d) =>
      let x := q.pkt
      let g := x.conn % 4096
      let seq := x.ta 40 16
      if !d.colOpen g || !(d.colPorts g).contains q.inp || decide (32768 ≤ (d.colGrp g).place seq) then d.colStale g seq
      else if x.e2e ≠ x.e2eOf then d.colFail g 4 none none
      else d.colFail g (x.tb 24 8) (some q.inp) (some seq)

/-- Groups whose tree ports went DOWN in the command at hand fail (R315). -/
def Dev.colSettle (d : Dev) : Dev :=
  let ps := d.col.downs
  let d := { d with col := { d.col with downs := [] } }
  ps.foldl (fun d p =>
    d.col.grps.foldl (fun d y => if (d.colPorts y.1).contains p then d.colFail y.1 1 none none else d) d) d

/-- A command's outcome, after which groups that lost a tree port fail. -/
def afterDown (o : Host.Outcome State Fault Refusal) : Host.Outcome State Fault Refusal :=
  match o with
  | .next s => s.run Dev.colSettle
  | .fault f => .fault f
  | .refused r => .refused r

/-- COL_WATCHDOG: the decision has not come in time at the root (R317). -/
def execColWatchdog (g : BitVec 12) (s : State) : Host.Outcome State Fault Refusal :=
  s.run fun d =>
    let t := d.fld F.COL_GRP_CFG_TIMEOUT g.toNat
    let late := (d.colGrp g.toNat).ops.any fun o => o.par.isSome && !o.decided && decide (o.start + 1024 * t ≤ d.clk.edges)
    if t ≠ 0 ∧ d.colRoot g.toNat ∧ late then d.colFail g.toNat 5 none none else d

/-! Forming and dissolving (R294, R320). -/

/-- The checks of Table 10-13 but for the slots. -/
def Dev.colChecks (d : Dev) (g : Nat) : Bool :=
  let parent := d.fld F.COL_GRP_CFG_PARENT g
  let ms := d.colMembers g
  let cs := d.colChildren g
  (d.colRoot g == (parent == 0xFF)) && (!d.colRoot g || ms.contains (d.fld F.COL_GRP_CTRL_ROOT_EP g)) &&
    (parent == 0xFF || (decide (parent < 128) && !cs.contains parent)) && (!ms.isEmpty || !cs.isEmpty) &&
    (d.part.hasHbm || ms.isEmpty)

/-- Whether every unit has the slots; those of the group's broken formation count as free. -/
def Dev.colRoom (d : Dev) (g : Nat) (old : Nat) : Bool := decide (d.colReserved - old + d.colSlots g ≤ 4096)

/-- Slots a group holds on every unit. -/
def Dev.colHeld (d : Dev) (g : Nat) : Nat := Tbl.getD d.col.slots g 0

/-- A FORM that a check of Table 10-13 refuses: the group is unchanged. -/
def Dev.colFormRefused (d : Dev) (g : Nat) : Dev := (d.setFld F.COL_STATUS_FORM_REFUSED 0 1).raise 0x0E02 [g]

/-- FORM (Table 10-1): the answer is the result code. -/
def Dev.colForm (d : Dev) (g : Nat) : Nat × Dev :=
  let old := d.colHeld g
  if !d.colChecks g then (4, d.colFormRefused g)
  else if !d.colRoom g old then (8, d.colFormRefused g)
  else
    let d := d.setColReserved (d.colReserved - old + d.colSlots g)
    let d := { d with col := { d.col with slots := Tbl.set d.col.slots g (d.colSlots g) } }
    let d := d.setColGrp g { base := d.fld F.COL_GRP_CTRL_OPSEQ g, ops := [], tail := (d.colGrp g).tail, posted := [] }
    (0, ((d.setFld F.COL_GRP_STATUS_STATE g 1).colSync g))

/-- DISSOLVE: a RUNNING operation fails with MANAGER first. -/
def Dev.colDissolve (d : Dev) (g : Nat) : Dev :=
  let d := if d.colState g = 2 then d.colFail g 6 none none else d
  let old := d.colHeld g
  let d := d.setColReserved (d.colReserved - old)
  let d := { d with col := { d.col with slots := Tbl.erase d.col.slots g } }
  (d.setFld F.COL_GRP_STATUS_STATE g 0).setFld F.COL_GRP_FLOW_F g 0

/-- A write of `COL_GRP_CTRL` by a function at L0, on the group it has selected: the fields, and FORM or DISSOLVE (R319).
DEDUCED, unsafe (assumption 74). -/
def Dev.colCtrlWrite (d : Dev) (src : Src) (v : Word) : Dev :=
  let off := Reg.addr .COL_GRP_CTRL 0
  let g := d.fld F.COL_GRP_SEL_GROUP src.fn
  if d.level src ≠ 0 then d
  else
    let idle := d.colState g == 0 || d.colState g == 3
    let old := d.rd .COL_GRP_CTRL g
    let new := Reg.merge .COL_GRP_CTRL old v 0xFFFFFFFF#32
    let d := if new = old then d else if idle then d.setReg .COL_GRP_CTRL g new else d.stateWrite src.fn off
    let d := if F.COL_GRP_CTRL_FORM.ofWord v = 0 then d
      else if idle then (d.colForm g).2 else d.stateWrite src.fn off
    if F.COL_GRP_CTRL_DISSOLVE.ofWord v = 0 then d
    else if d.colState g = 0 then d.stateWrite src.fn off else d.colDissolve g

/-- COL_GRP_FORM: a write with FORM. -/
def execColGrpForm (src : Src) (v : Word) (s : State) : Host.Outcome State Fault Refusal :=
  s.run fun d => if F.COL_GRP_CTRL_FORM.ofWord v = 1 then d.colCtrlWrite src v else d

/-- COL_GRP_DISSOLVE: a write with DISSOLVE. -/
def execColGrpDissolve (src : Src) (v : Word) (s : State) : Host.Outcome State Fault Refusal :=
  s.run fun d => if F.COL_GRP_CTRL_DISSOLVE.ofWord v = 1 then d.colCtrlWrite src v else d

end Sys2Proof.Machine
end

