-- ==== Sys2Proof/Machine/Wq.lean ====
section
/-!
DEFINITION. The commands of the work queues: doorbells, ring reads, taking and starting entries, event queues, and the changes
of a queue's state (R219 to R239).
-/

namespace Sys2Proof.Machine

/-! Scans. -/

/-- A write to the DOORBELL of queue `n`: a scan starts, or one more is wanted when the scan at hand ends (R219, R223). -/
def Dev.doorbell (d : Dev) (n : Nat) : Dev :=
  if d.qState n = 1 ∧ (d.qKind n = 1 ∨ d.qKind n = 2) then
    (d.modQueue n fun x => if x.scan || x.stall then { x with rescan := true } else { x with scan := true }).count 5 0
  else d.count 5 7

/-- DOORBELL. -/
def execDoorbell (q : BitVec 16) (s : State) : Host.Outcome State Fault Refusal := s.runHost (·.doorbell q.toNat)

/-- The package slot of an engine-internal queue. -/
def Dev.queueSlot (d : Dev) (q : Nat) : Option Nat := (d.eng.queuesOf.find? fun k => k.2.contains q).map (·.1)

/-- Whether an opcode is assigned and permitted for a queue kind (Table 07-4). -/
def opcOk (kind opc : Nat) : Bool :=
  if kind = 1 then (decide (1 ≤ opc) && decide (opc ≤ 7)) || opc == 0x20
  else opc == 7 || opc == 0x10 || opc == 0x11

/-- Whether an entry addresses a connection. DEDUCED, unsafe (assumption 67). -/
def Entry.onConn (e : Entry) : Bool := decide (1 ≤ e.opc) && decide (e.opc ≤ 5)

/-- Whether a SEND that is taken now goes by rendezvous (R278). -/
def Dev.isRts (d : Dev) (opc len : Nat) : Bool := opc == 5 && decide (min 65536 (d.fld F.MTE_CFG_EAGER_MAX 0) < len)

/-- The local rights that check 6 of Table 07-8 asks for at take; none where it is made later or not at all (R278). -/
def Entry.takeRights (e : Entry) : Option Nat :=
  match e.opc with
  | 1 => if e.len = 0 then none else some 1
  | 2 => if e.len = 0 then none else some 1
  | 3 => some 2
  | 5 => if e.len = 0 then none else if e.rts then some 5 else some 1
  | _ => none

/-- Whether a count or length lies in its range (check 4 of Table 07-8). -/
def Entry.lenOk (e : Entry) : Bool :=
  match e.opc with
  | 1 => decide (1 ≤ e.len ∧ e.len ≤ 2 ^ 31)
  | 2 => decide (e.len ≤ 2 ^ 31)
  | 3 => decide (1 ≤ e.len ∧ e.len ≤ 2 ^ 31)
  | 5 => decide (e.len ≤ 2 ^ 31)
  | 0x10 => decide (e.len ≤ 2 ^ 31)
  | 0x20 => e.f 32 1 == 3 || decide (1 ≤ e.len ∧ e.len ≤ 2 ^ 28)
  | _ => true

/-- Whether the operation fields hold assigned values (check 3 of Table 07-8). -/
def Entry.fieldsOk (e : Entry) : Bool :=
  match e.opc with
  | 4 => decide (e.f 37 1 ≤ 2)
  | 0x20 => decide (e.f 32 1 ≤ 3 ∧ e.f 33 1 ≤ 4 ∧ e.f 34 1 ≤ 5 ∧ e.f 35 1 ≤ 1) &&
      (e.f 35 1 == 0 || (e.f 34 1 == 0 && decide (e.f 33 1 < 3)))
  | _ => true

/-- The checks of Table 07-8 on a taken entry: the status of the first that fails, 0 where none does.
DEDUCED, unsafe (assumption 65). -/
def Dev.takeCheck (d : Dev) (q : Nat) (e : Entry) : Nat :=
  if !opcOk (d.qKind q) e.opc then 2
  else if e.opc = 0x20 ∧ e.f 35 1 = 1 ∧
      (!d.part.hasXac || (d.colState (e.conn % 4096) != 0 && !d.flag F.COL_GRP_CFG_EXACT_OK (e.conn % 4096))) then 0xA
  else if !e.fieldsOk then 2
  else if !e.lenOk then 3
  else if e.onConn ∧ !(d.usable e.conn && (d.conn e.conn).ready && (d.conn e.conn).sq == q) then 1
  else if e.opc = 0x20 ∧ !d.colMember (e.conn % 4096) q then 1
  else match e.takeRights with
    | none => 0
    | some r =>
      match d.localCheck e.tick (d.fld F.WQ_Q_CFG_PD q) e.lkey r e.laddr e.len with
      | .error s => s
      | .ok _ => 0

/-- Puts an entry in the taken set; the cursor moves on (R220). -/
def Dev.addTaken (d : Dev) (q : Nat) (e : Entry) : Dev :=
  let d := d.modQueue q fun x =>
    { x with taken := x.taken ++ [if e.onConn then { e with key := some (4 * e.conn, x.stamp) }
                                  else if e.opc = 0x20 then { e with key := some (4 * (e.conn % 4096) + 1, x.stamp) } else e]
             stamp := x.stamp + 1 }
  let d := (d.count 5 1).inflight q
  d.setFld F.WQ_Q_STATUS_CURSOR q ((e.idx + 1) % d.qSize q)

/-- Takes a POSTED entry (R220 to R225). The answer is false where it cannot be taken yet: a rendezvous SEND that finds its
table full (R279). -/
def Dev.takeEntry (d : Dev) (q : Nat) (e : Entry) : Bool × Dev :=
  let st := d.takeCheck q e
  if st ≠ 0 then (true, (((d.addTaken q e).count 5 3).entryDone q e.idx (d.compl st)).pumpQueue q)
  else
    match e.opc with
    | 7 => (true, (d.addTaken q e).entryDone q e.idx (d.compl 0))
    | 0x10 =>
      (true, (d.addTaken q e).modMctx (d.fld F.WQ_Q_BIND_MCTX q) fun c => { c with input := c.input ++ [.posting q e.idx] })
    | 5 =>
      if e.rts && (d.queueSlot q).isNone then
        match d.rdvTake q e.idx e.conn with
        | none => (false, d.modQueue q fun x => { x with stall := true })
        | some (i, d) => (true, d.addTaken q { e with rdv := some i, verdict := true })
      else (true, d.addTaken q { e with verdict := decide (e.len ≠ 0) })
    | 0x20 =>
      let d := d.addTaken q e
      (true, if (d.queueSlot q).isSome then d else d.colTake q e.idx)
    | _ => (true, (d.addTaken q { e with verdict := e.takeRights.isSome }).pumpQueue q)

/-- The state that a queue has or left for HELD. -/
def Dev.qBase (d : Dev) (q : Nat) : Nat := if d.qState q = 2 then (d.queue q).prior else d.qState q

/-- The entries of one ring read, in ring order, up to the first that is not taken. A read that was outstanding when its queue
became HELD is completed and its entries are taken (Table 13-7); the next read waits. -/
def Dev.takeLoop : Nat → Dev → Nat → List Byte → Dev
  | 0, d, q, _ => if d.qState q = 1 then d else d.modQueue q fun x => { x with scan := false, rescan := true }
  | n + 1, d, q, bs =>
    let x := d.queue q
    let idx := d.fld F.WQ_Q_STATUS_CURSOR q
    let desc := bs.take 64
    let own := field desc 63 1 6 2
    let live := d.qState q == 1
    let stop := fun (d : Dev) => d.modQueue q fun x => { x with scan := x.rescan && live, rescan := x.rescan && !live }
    if x.stall then d.modQueue q fun x => { x with scan := false }
    else if d.qBase q ≠ 1 then d.modQueue q fun x => { x with scan := false, rescan := true }
    else if own = 3 then stop ((d.count 5 8).raise 0x0C04 [q])
    else if own ≠ 1 ∨ (x.at_ idx).isSome then stop d
    else
      let e : Entry := { idx := idx, desc := desc, tick := d.tickNow, verdict := false, started := false, key := none,
                         reserved := false, rdv := none, rts := d.isRts (field desc 0 1 0 8) (field desc 16 4 0 32),
                         retried := false, done := none }
      match d.takeEntry q e with
      | (false, d) => d.modQueue q fun x => { x with scan := false }
      | (true, d) => Dev.takeLoop n d q (bs.drop 64)

/-- The entries that one read returns for an abort, none where it failed: those POSTED, and those that are taken, are to complete
ABORTED (R222, R238, R240). -/
def Dev.abortRead (d : Dev) (q : Nat) (a : Abort) (n : Nat) (bs : List Byte) : Dev :=
  let first := d.fld F.WQ_Q_STATUS_CURSOR q + (d.qSize q - a.left)
  let found := (List.range n).filterMap fun i =>
    let desc := (bs.drop (64 * i)).take 64
    let idx := (first + i) % d.qSize q
    match (d.queue q).at_ idx with
    | some e => some (idx, d.extended q e.opc)
    | none => if field desc 63 1 6 2 = 1 then some (idx, d.extended q (field desc 0 1 0 8)) else none
  (d.modQueue q fun x => { x with abort := some { a with left := a.left - n, found := a.found ++ found } }).pumpQueue q

/-- RING_FETCH_DONE: a ring read of at most 8 entries returns. A read that fails puts an ACTIVE queue in ERROR; during an abort
only the taken entries it covers are known. A ring in HBM answers from the device's own memory. -/
def execRingFetchDone (q : BitVec 16) (data : List Byte) (res : MemRes) (s : State) : Host.Outcome State Fault Refusal :=
  s.runHost fun d =>
    let q := q.toNat
    let x := d.queue q
    let cur := d.fld F.WQ_Q_STATUS_CURSOR q
    let size := d.qSize q
    match d.qState q, x.abort with
    | 3, some a =>
      if x.scan then d.modQueue q fun x => { x with scan := false }
      else if a.left = 0 ∨ d.heldFn (d.queueFn q) ∧ !d.flag F.WQ_Q_CFG_MEM q then d
      else
        let at_ := (cur + (size - a.left)) % size
        let n := min (min 8 a.left) (size - at_)
        let r := if res ≠ .ok then ([], d) else if d.flag F.WQ_Q_CFG_MEM q then d.load .hbm (d.qAddr q at_) (64 * n) else (data, d)
        r.2.abortRead q a n r.1
    | st, _ =>
      if !x.scan then d
      else if res ≠ .ok then
        if d.qBase q ≠ 1 then d.modQueue q fun x => { x with scan := false }
        else if st = 2 then ((d.queueError q).modQueue q fun x => { x with prior := 4 }).setQState q 2
        else d.queueError q
      else
        let n := min 8 (size - cur)
        let r := if d.flag F.WQ_Q_CFG_MEM q then d.load .hbm (d.qAddr q cur) (64 * n) else (data, d)
        Dev.takeLoop n r.2 q r.1

/-! Starting (R225, R248). -/

/-- Whether an entry may start: it has a start, no FENCE taken before it is open, and no earlier entry of its connection or
group waits. -/
def Queue.mayStart (x : Queue) (e : Entry) : Bool :=
  let before := x.taken.takeWhile fun y => y.idx != e.idx
  !e.started && e.done.isNone && (e.onConn || e.opc == 0x20) &&
    before.all fun y => y.opc != 6 && !(!y.started && y.done.isNone && y.key.map (·.1) == e.key.map (·.1))

/-- The operation of a connection that an entry stands for (Tables 07-5 and 07-6). -/
def Dev.opOf (d : Dev) (q : Nat) (e : Entry) : Op :=
  let r := match e.takeRights with
    | none => none
    | some m => (d.localCheck e.tick (d.fld F.WQ_Q_CFG_PD q) e.lkey m e.laddr e.len).toOption
  let o := Op.blank (.entry q e.idx) e.opc
  let x := (r.map (·.xctx)).getD 0
  let tick := if r.isSome then some e.tick else none
  match e.opc with
  | 4 => { o with roff := field e.desc 24 8 0 48, rkey := e.f 32 4, rgen := e.f 36 1, akind := e.f 37 1,
                  opnd := BitVec.ofNat 64 (e.f 40 8), swap := BitVec.ofNat 64 (e.f 8 8) }
  | 5 =>
    let mctx := field e.desc 32 8 0 16
    match e.rdv with
    | some i =>
      { o with tick := tick
               hdr := matchHeader (e.f 24 8) e.len mctx 1 0 (d.cookie i) e.lkey
                 ((r.map fun g => e.laddr - g.base).getD 0) ((r.map fun g => g.ver.gen).getD 0) }
    | none => { o with len := e.len, laddr := e.laddr, xctx := x, tick := tick
                       hdr := matchHeader (e.f 24 8) e.len mctx 0 0 0 0 0 0 }
  | _ => { o with len := e.len, laddr := e.laddr, xctx := x, tick := tick, roff := field e.desc 24 8 0 48
                  rkey := e.f 32 4, rgen := e.f 36 1, imm := e.f 40 4 }

/-- Starts a taken entry: its operation joins its connection, its collective, or, on an engine-internal queue, a dispatch
queue (R403). -/
def Dev.startEntry (d : Dev) (q : Nat) (e : Entry) : Dev :=
  let go := fun (d : Dev) => d.modQueue q fun x => x.modAt e.idx fun e => { e with started := true }
  match d.queueSlot q with
  | some k =>
    match d.addItem { slot := k, src := 1, a := q, b := e.idx, ready := true, waited := false } with
    | some d => go d
    | none => d
  | none =>
    if e.opc = 0x20 then (go d).colStart q e.idx
    else if !d.isResident e.conn then d.startFetch e.conn
    else if !(d.conn e.conn).ready then d
    else ((go d).addOp e.conn (d.opOf q e)).connStep e.conn

/-- ENTRY_START: the first entry of a queue that may start and whose context is resident starts. Where none is resident, the
fetch of the first one's context begins (R198). -/
def execEntryStart (q : BitVec 16) (s : State) : Host.Outcome State Fault Refusal :=
  s.runHost fun d =>
    let q := q.toNat
    let x := d.queue q
    if d.qBase q ≠ 1 ∧ d.qBase q ≠ 4 then d
    else
      let slot := (d.queueSlot q).isSome
      let may := x.taken.filter x.mayStart
      match may.find? fun e => slot || !e.onConn || d.isResident e.conn with
      | some e => d.startEntry q e
      | none => match may with
        | e :: _ => d.startEntry q e
        | [] => d

/-! Event queues. -/

/-- EQ_COAL_DELAY: DELAY ns have passed since a queue's pending count left 0 (R233). -/
def execEqCoalDelay (q : BitVec 16) (ns : Nat) (s : State) : Host.Outcome State Fault Refusal :=
  s.runHost fun d =>
    let q := q.toNat
    let delay := d.fld F.WQ_EQ_COAL_DELAY (d.fld F.WQ_Q_BIND_EQ q)
    if d.flag F.WQ_Q_CFG_EQ_EN q ∧ delay ≠ 0 ∧ delay ≤ ns ∧ (d.queue q).pend ≠ 0 then d.reportNow q else d

/-- A write of `EQ_CONSUMED`: software's consumer position; one that cannot be is ignored (R234). -/
def Dev.eqConsumed (d : Dev) (q : Nat) (v : Word) : Dev :=
  let c := v.toNat % 2 ^ 17
  if d.qKind q ≠ 3 then d.count 5 7
  else if (d.eqPos q + 2 ^ 17 - c) % 2 ^ 17 ≤ d.qSize q then d.modQueue q fun x => { x with cons := c } else d

/-- EQ_CONSUMED. -/
def execEqConsumed (q : BitVec 16) (v : Word) (s : State) : Host.Outcome State Fault Refusal :=
  s.runHost (·.eqConsumed q.toNat v)

/-- The queues that report to an event queue. -/
def Dev.boundTo (d : Dev) (eq : Nat) : List Nat :=
  (d.wq.map (·.1)).filter fun q => d.qKind q != 3 && d.flag F.WQ_Q_CFG_EQ_EN q && d.fld F.WQ_Q_BIND_EQ q == eq

/-- A write of `EQ_CTRL` (R235, R236): the clear takes effect first. -/
def Dev.eqCtrlWrite (d : Dev) (eq : Nat) (v : Word) : Dev :=
  if d.qKind eq ≠ 3 then d.count 5 7
  else
    let d := if v.getLsbD 1 then
      (d.boundTo eq).foldl (fun d q => if (d.queue q).pend = 0 then d else d.reportDue q) (d.setFld F.WQ_Q_STATUS_OVF eq 0)
    else d
    if v.getLsbD 0 then
      let d := d.modQueue eq fun x => { x with armed := true }
      if d.eqPos eq = (d.queue eq).cons ∨ d.qState eq = 2 then d else d.signal eq
    else d

/-- EQ_CLEAR_OVF. -/
def execEqClearOvf (q : BitVec 16) (v : Word) (s : State) : Host.Outcome State Fault Refusal :=
  s.runHost fun d => if v.getLsbD 1 then d.eqCtrlWrite q.toNat v else d

/-- EQ_ARM. -/
def execEqArm (q : BitVec 16) (v : Word) (s : State) : Host.Outcome State Fault Refusal :=
  s.runHost fun d => if v.getLsbD 0 then d.eqCtrlWrite q.toNat v else d

/-! States (Table 07-13). -/

/-- Whether a queue's ring lies in host memory that its function cannot reach. -/
def Dev.queueHeld (d : Dev) (q : Nat) : Bool := !d.flag F.WQ_Q_CFG_MEM q && d.heldFn (d.queueFn q)

/-- Puts a queue that cannot reach its ring in HELD. -/
def Dev.holdQueue (d : Dev) (q : Nat) : Dev :=
  let st := d.qState q
  if st = 0 ∨ st = 2 ∨ !d.queueHeld q then d
  else (d.modQueue q fun x => { x with prior := st }).setQState q 2

/-- An event queue starts from nothing: P = C = 0, no overflow, and the pending reports of the queues bound to it are gone. -/
def Dev.eqClear (d : Dev) (eq : Nat) : Dev :=
  let d := (d.boundTo eq).foldl (fun d q => d.modQueue q fun x => { x with pend := 0 }) d
  ((d.modQueue eq fun x => { x with cons := 0, armed := false, keptEv := [] }).setFld F.WQ_Q_STATUS_CURSOR eq 0).setFld
    F.WQ_Q_STATUS_OVF eq 0

/-- Begins an abort of a queue (R238, R315); a queue that is HELD aborts once it leaves HELD (R239). -/
def Dev.beginAbort (d : Dev) (q : Nat) (disable : Bool) : Dev :=
  let held := d.qState q == 2
  let d := d.colAbort q
  let d := d.modQueue q fun x =>
    { x with abort := some { left := d.qSize q, found := [], disable := disable }, rescan := false, stall := false
             prior := if held then 3 else x.prior }
  if held then d else (d.setQState q 3).pumpQueue q

/-- ENABLE set to 1. -/
def Dev.queueEnable (d : Dev) (fn q : Nat) : Dev :=
  let k := d.qKind q
  let l := d.fld F.WQ_Q_CFG_LOG_SIZE q
  if k = 0 ∨ l < 6 ∨ 16 < l then d.stateWrite fn (Reg.addr .WQ_Q_CTRL 0)
  else
    let d := { d with wq := Tbl.set d.wq q { Queue.reset with prior := 1 } }
    let d := (d.setFld F.WQ_Q_CTRL_ENABLE q 1).setReg .WQ_Q_STATUS q 0#32
    ((d.setReg .WQ_Q_INFLIGHT q 0#32).setQState q 1).holdQueue q

/-- ENABLE set to 0, or RESET. -/
def Dev.queueStop (d : Dev) (q : Nat) (disable : Bool) : Dev :=
  let st := d.qBase q
  if st ≠ 1 ∧ st ≠ 4 then d
  else
    let d := if disable then d.setFld F.WQ_Q_CTRL_ENABLE q 0 else d
    if d.qKind q = 3 then
      let d := d.eqClear q
      if disable then d.setQState q 0
      else if d.qState q = 2 then d.modQueue q fun x => { x with prior := 1 } else d.setQState q 1
    else d.beginAbort q disable

/-- A write of `WQ_Q_CTRL` on the queue that a function has selected (R237, R241). DEDUCED, unsafe (assumption 66). -/
def Dev.wqCtrlWrite (d : Dev) (src : Src) (v : Word) : Dev :=
  let fn := src.fn
  let q := d.fld F.WQ_SEL_QUEUE fn
  if !d.selValid fn .WQ_SEL ∨ d.level src = 3 then d
  else
    let on := F.WQ_Q_CTRL_ENABLE.ofWord v == 1
    let reset := F.WQ_Q_CTRL_RESET.ofWord v == 1
    if d.qState q = 0 then (if on then d.queueEnable fn q else d)
    else if !on then d.queueStop q true
    else if reset then d.queueStop q false
    else d

/-- WQ_ENABLE. -/
def execWqEnable (src : Src) (v : Word) (s : State) : Host.Outcome State Fault Refusal :=
  s.run fun d => if v.getLsbD 31 ∧ ¬ v.getLsbD 30 then d.wqCtrlWrite src v else d

/-- WQ_RESET. -/
def execWqReset (src : Src) (v : Word) (s : State) : Host.Outcome State Fault Refusal :=
  s.run fun d => if v.getLsbD 31 ∧ v.getLsbD 30 then d.wqCtrlWrite src v else d

/-- WQ_DISABLE. -/
def execWqDisable (src : Src) (v : Word) (s : State) : Host.Outcome State Fault Refusal :=
  s.run fun d => if v.getLsbD 31 then d else d.wqCtrlWrite src v

/-- Queues go into HELD whose function lost its bus mastership or whose hierarchy became unreachable (R392). -/
def Dev.holdQueues (d : Dev) : Dev := (d.wq.map (·.1)).foldl Dev.holdQueue d

/-- A queue leaves HELD for the state it left. -/
def Dev.unholdQueue (d : Dev) (q : Nat) : Dev :=
  if d.qState q = 2 ∧ !d.queueHeld q then d.setQState q (d.queue q).prior else d

/-- Writes the entries that an event queue kept, after the signal of one armed meanwhile with an unread entry (R236). -/
def Dev.flushEvents (d : Dev) (eq : Nat) : Dev :=
  let evs := (d.queue eq).keptEv
  if d.qState eq ≠ 1 ∨ d.qKind eq ≠ 3 then d
  else
    let d := if d.eqPos eq = (d.queue eq).cons then d else d.signal eq
    evs.foldl (fun d (x : Nat × Nat × Nat) =>
      let r := d.writeEvent eq x.1 x.2.1 x.2.2
      if r.2 ∨ x.2.1 ≠ 0 then r.1 else r.1.modQueue x.1 fun y => { y with pend := y.pend + x.2.2 })
      (d.modQueue eq fun x => { x with keptEv := [] })

/-- Queues leave HELD that can reach their rings again: event queues write what they kept, then aborts go on, then kept
completions are written and scans resume (R239, R392). -/
def Dev.resumeQueues (d : Dev) : Dev :=
  let qs := (d.wq.map (·.1)).filter fun q => d.qState q == 2 && !d.queueHeld q
  let d := qs.foldl Dev.unholdQueue d
  let d := qs.foldl Dev.flushEvents d
  let d := (qs.filter fun q => d.qState q == 3).foldl Dev.pumpQueue d
  qs.foldl (fun d q =>
    if d.qState q = 1 ∧ d.qKind q ≠ 3 then
      (d.pumpQueue q).modQueue q fun x =>
        if x.rescan && !x.scan && !x.stall then { x with scan := true, rescan := false } else x
    else d) d

end Sys2Proof.Machine
end

