-- ==== Sys2Proof/Machine/EngRun.lean ====
section
/-!
DEFINITION. The engines' dispatches, their handlers' memory accesses, local memory, faults and resets (R402 to R411).
-/

namespace Sys2Proof.Machine

/-! Dispatches. -/

/-- A bit of `ENG_HR_ENG`: BUSY, or RETIRED 16 places higher, of engine `e`. -/
def Dev.engBit (d : Dev) (e hi : Nat) : Bool := (d.rd .ENG_HR_ENG (e / 16)).getLsbD (e % 16 + hi)

/-- Sets or clears such a bit. -/
def Dev.setEngBit (d : Dev) (e hi : Nat) (on : Bool) : Dev :=
  let w := d.rd .ENG_HR_ENG (e / 16)
  let b := BitVec.ofNat 32 (2 ^ (e % 16 + hi))
  d.setReg .ENG_HR_ENG (e / 16) (if on then w ||| b else w &&& ~~~b)

/-- The lowest-numbered engine of a hedgerow that is idle, not retired and not being reset (R404, R409). -/
def Dev.idleEngine (d : Dev) (h : Nat) : Option Nat :=
  ((List.range 16).map (16 * h + ·)).find? fun e => !d.engBit e 0 && !d.engBit e 16 && !d.eng.resets.contains e

/-- What a dispatch of class `c` of slot `k` costs on a hedgerow: at 1.2 GHz the DISPATCH_12 sixteenths of its package cost,
rounded up (R419). -/
def Dev.dispatchCost (d : Dev) (h k c : Nat) : Nat :=
  let cost := d.fld F.ENG_PKG_COST_COST (16 * k + c)
  if d.fld F.PWR_HR_STATE h = 2 then cost else (cost * d.fld F.PWR_COST_COST 7 + 15) / 16

/-- Topiary's answer to a dispatch: the reduction of R37 caps what a hedgerow may take (R423). -/
def Dev.spendDispatch (d : Dev) (h cost : Nat) : Option Dev :=
  match Tbl.get d.pwr.hrCap h with
  | none => d.spend 8 cost
  | some m =>
    if m < cost then none
    else (d.spend 8 cost).map fun d => { d with pwr := { d.pwr with hrCap := Tbl.set d.pwr.hrCap h (m - cost) } }

/-! Local memory (R406, R409). -/

/-- The local memory of an engine; at reset its content is undefined. -/
def Dev.localMem (d : Dev) (e : Nat) : LocalMem := Tbl.getD d.eng.lm e { clear := false, fills := [], cells := [] }

/-- Stores it. -/
def Dev.setLocalMem (d : Dev) (e : Nat) (m : LocalMem) : Dev := { d with eng := { d.eng with lm := Tbl.set d.eng.lm e m } }

/-- Whether byte `a` lies in one of some ranges: first byte and length. -/
def inRanges (rs : List (Nat × Nat)) (a : Nat) : Bool := rs.any fun r => decide (r.1 ≤ a ∧ a < r.1 + r.2)

/-- Whether a package declares byte `a` retained. -/
def Dev.retained (d : Dev) (a : Nat) : Bool := inRanges (d.eng.retain.map (·.2)) a

/-- Byte `a` of an engine's local memory. -/
def Dev.lmByte (d : Dev) (e a : Nat) : Byte :=
  let m := d.localMem e
  match Mem.read m.cells a with
  | some b => b
  | none => match m.fills.find? fun f => !inRanges f.2 a with
    | some f => Config.lmByte e f.1 a
    | none => if m.clear then 0#8 else Config.lmByte e 0 a

/-- Firmware's read of local memory: at L0, while the engine is in reset or retired. -/
def Dev.lmRead (d : Dev) (src : Src) (e a : Nat) : Option Byte :=
  if d.level src = 0 ∧ (d.eng.resets.contains e ∨ d.engBit e 16) ∧ a < 65536 then some (d.lmByte e a) else none

/-- A dispatch starts: the content is undefined, but for what packages declare retained. -/
def Dev.lmStart (d : Dev) (e : Nat) : Dev :=
  let m := d.localMem e
  let rs := d.eng.retain.map (·.2)
  ({ d with free := d.free + 1 }).setLocalMem e
    { m with fills := (d.free + 1, rs) :: m.fills.filter (fun f => f.2 != rs), cells := m.cells.filter fun c => d.retained c.1 }

/-- What a handler has stored. -/
def Dev.lmStores (d : Dev) (e : Nat) (ws : List (BitVec 16 × Byte)) : Dev :=
  let m := d.localMem e
  d.setLocalMem e { m with cells := ws.foldl (fun m w => Mem.write m w.1.toNat w.2) m.cells }

/-- An engine reset clears it, and the engine's unlocked translation entries (R409). -/
def Dev.lmClear (d : Dev) (e : Nat) : Dev :=
  ({ d with xlt := { d.xlt with itlb := Tbl.erase d.xlt.itlb e, dtlb := Tbl.erase d.xlt.dtlb e } }).setLocalMem e
    { clear := true, fills := [], cells := [] }

/-- DISPATCH_START: the first work item of a hedgerow that is ready starts on an idle engine, once the grant covers its cost; one
that must wait is counted once (R404, R420). `cls` is the cost class of its handler. DEDUCED, unsafe (assumption 94). -/
def execDispatchStart (h : Hedge) (cls : Fin 16) (s : State) : Host.Outcome State Fault Refusal :=
  s.run fun d =>
    let h := h.val
    let q := d.dispatchQ h
    match q.findIdx? (·.ready), d.idleEngine h with
    | some i, some e =>
      match q[i]? with
      | none => d
      | some x =>
        if d.fld F.PWR_HR_STATE h = 0 then d
        else
          match d.spendDispatch h (d.dispatchCost h x.slot cls.val) with
          | none => if x.waited then d else (d.setDispatchQ h (q.set i { x with waited := true })).count 12 1
          | some d =>
            let d := d.setDispatchQ h (q.eraseIdx i)
            let d := { d with eng := { d.eng with running := Tbl.set d.eng.running e (x, 0) } }
            ((d.lmStart e).setEngBit e 0 true).count 12 0
    | _, _ => d

/-- A DRAINING slot becomes EMPTY once no item of its package is queued or running, and its endpoint is free (R415). -/
def Dev.drainSlot (d : Dev) (k : Nat) : Dev :=
  let busy := d.eng.queues.any (fun q => q.2.any fun x => x.slot == k) || d.eng.running.any fun r => r.2.1.slot == k
  if d.pkgState k ≠ 3 ∨ busy then d
  else
    let d := ((d.setReg .ENG_PKG_STATUS k 0#32).setReg .ENG_PKG_ID k 0#32).setReg .ENG_PKG_HR_LO k 0#32
    let d := (List.range 16).foldl (fun (d : Dev) c => d.setReg .ENG_PKG_COST (16 * k + c) 0#32) (d.setReg .ENG_PKG_HR_HI k 0#32)
    let ch := Tbl.get d.eng.disabling k
    let d := { d with eng := { d.eng with queuesOf := Tbl.erase d.eng.queuesOf k, disabling := Tbl.erase d.eng.disabling k,
                                              image := Tbl.erase d.eng.image k, minHr := Tbl.erase d.eng.minHr k,
                                              retain := Tbl.erase d.eng.retain k, ctx := Tbl.erase d.eng.ctx k } }
    d.outcome ch 0 []

/-- An engine is free of its dispatch. -/
def Dev.freeEngine (d : Dev) (e : Nat) : Dev :=
  let d := { d with eng := { d.eng with running := Tbl.erase d.eng.running e, ending := Tbl.erase d.eng.ending e } }
  ({ d with xlt := { d.xlt with wait := d.xlt.wait.filter fun a => a.cont != Cont.eng e } }).setEngBit e 0 false

/-- A dispatch finishes; an entry completes with the status that its handler gives. -/
def Dev.dispatchOver (d : Dev) (e : Nat) (st : Nat) (stores : List (BitVec 16 × Byte)) : Dev :=
  match Tbl.get d.eng.running e with
  | none => d
  | some (x, _) =>
    let d := (d.lmStores e stores).freeEngine e
    let d := if x.src = 1 then d.entryDone x.a x.b (d.compl st) else d
    d.drainSlot x.slot

/-! Faults (R408 to R411). -/

/-- The fault record (Table 14-9). -/
def Dev.engRecord (d : Dev) (e slot cause : Nat) : Dev :=
  if d.flag F.ENG_FAULT_INFO_VALID 0 then d.setFld F.ENG_FAULT_INFO_MORE 0 1
  else
    let d := d.setReg .ENG_FAULT_INFO 0 (BitVec.ofNat 32 (2 ^ 31 + slot * 2 ^ 24 + cause * 2 ^ 20 + e))
    (d.setReg .ENG_FAULT_TICK_LO 0 (d.clk.tick.setWidth 32)).setReg .ENG_FAULT_TICK_HI 0 ((d.clk.tick >>> 32).setWidth 32)

/-- A faulted item ends with the failure that its package's interface defines: which one of the failing statuses or syndromes,
the spec does not state (R410). -/
def Dev.itemFails (d : Dev) (x : Item) : Dev :=
  match x.src with
  | 0 =>
    let (v, d) := d.fresh
    d.sendAck x.a (v.toNat % 255 + 1) x.b
  | 1 =>
    let (v, d) := d.fresh
    d.entryDone x.a x.b (d.compl (v.toNat % 255 + 1))
  | _ => d

/-- An engine that has faulted RETIRE_AFTER times within 1 s is retired: a fault of class F3 (R411). -/
def Dev.retireCheck (d : Dev) (e slot : Nat) : Dev :=
  let fs := d.clk.edges :: (Tbl.getD d.eng.faults e []).filter fun t => decide (d.clk.edges ≤ t + 1562500)
  let d := { d with eng := { d.eng with faults := Tbl.set d.eng.faults e fs } }
  if fs.length < max 1 (d.fld F.ENG_CFG_RETIRE_AFTER 0) ∨ d.engBit e 16 then d
  else (((d.setEngBit e 16 true).setFld F.ENG_STATUS_RETIRED 0 1).raise 0x1202 [e, slot]).fault3 0x1202

/-- An engine fault: the engine stops, is recorded, and is reset; the locks it holds are poisoned, and its item ends (R408 to
R410). -/
def Dev.engFault (d : Dev) (e cause : Nat) : Dev :=
  match Tbl.get d.eng.running e with
  | none => d
  | some (x, _) =>
    let d := (((d.engRecord e x.slot cause).setFld F.ENG_STATUS_FAULT 0 1).count 12 2).fault2.raise 0x1201 [e, x.slot]
    let d := (d.freeEngine e).lockResets [4224 + e]
    let d := { d with eng := { d.eng with resets := d.eng.resets ++ [e] } }
    ((d.itemFails x).retireCheck e x.slot).drainSlot x.slot

/-! The memory accesses and lock operations of handlers (R407, R441). -/

/-- What a memory access of a handler needs: its address, its length and its right. -/
def engShape (a : EngAcc) : Option (Nat × Nat × Nat) :=
  match a with
  | .fetch va => some (va.toNat, 4, 4)
  | .read va n => some (va.toNat, n.toNat, 1)
  | .write va bs => some (va.toNat, bs.length, 2)
  | .acquire _ _ | .release _ => none

/-- A lock operation of a handler, as requester 4,224 + `e` (R441). -/
def Dev.engLock (d : Dev) (e : Nat) (a : EngAcc) : Dev :=
  match a with
  | .acquire l prio => d.lockAcquire l.val (4224 + e) prio.val
  | .release l => d.lockRelease l.val (4224 + e)
  | .fetch _ | .read _ _ | .write _ _ => d

/-- The accesses that remain for the handler of engine `e`. -/
def Dev.engLeft (d : Dev) (e : Nat) (y : HandlerEnd) (ks : List EngAcc) : Dev :=
  { d with eng := { d.eng with ending := Tbl.set d.eng.ending e { y with accs := ks } } }

/-- Looks up an access of an engine's handler, from the engine's own tier on. -/
def Dev.engAsk (d : Dev) (e : Nat) (a : Access) : Asked × Dev :=
  d.askBy (fun d va => d.engLook e (a.need == 4) a.ctx va a.need) a

/-- Makes the accesses of an engine's handler one after the other, in the context of its package, then ends the dispatch. -/
def Dev.engRun : Nat → Dev → Nat → Dev
  | 0, d, _ => d
  | n + 1, d, e =>
    match Tbl.get d.eng.running e, Tbl.get d.eng.ending e with
    | some (x, _), some y =>
      match y.accs with
      | [] => d.dispatchOver e y.status.toNat y.stores
      | k :: ks =>
        match engShape k with
        | none => Dev.engRun n ((d.engLock e k).engLeft e y ks) e
        | some (va, len, need) =>
          match d.engAsk e (Access.make (.eng e) (Tbl.getD d.eng.ctx x.slot 0) va len need 1 none) with
          | (.go segs, d) =>
            let d := match k with
              | .write _ bs => d.storeSegs segs bs
              | _ => d
            Dev.engRun n (d.engLeft e y ks) e
          | (.wait, d) => d
          | (.fault _, d) => d.engFault e 3
    | _, _ => d

/-- The first of a handler's accesses has its translation: it is made, and the next follow. -/
def Dev.engMade (d : Dev) (e : Nat) (segs : List Seg) : Dev :=
  match Tbl.get d.eng.ending e with
  | none => d
  | some y =>
    let d := match y.accs.head? with
      | some (.write _ bs) => d.storeSegs segs bs
      | _ => d
    Dev.engRun y.accs.length (d.engLeft e y (y.accs.drop 1)) e

/-- DISPATCH_END: the handler of a dispatch is done. Its accesses are made and its stores land, and the dispatch ends with its last
access. DESIGN CHOICE, unsafe (assumption 95). -/
def execDispatchEnd (e : Fin 1024) (x : HandlerEnd) (s : State) : Host.Outcome State Fault Refusal :=
  s.run fun d =>
    if (Tbl.get d.eng.ending e.val).isSome || (Tbl.get d.eng.running e.val).isNone then d
    else
      Dev.engRun (x.accs.length + 1) { d with eng := { d.eng with ending := Tbl.set d.eng.ending e.val x } } e.val

end Sys2Proof.Machine
end

