-- ==== Sys2Proof/Machine/Walk.lean ====
section
/-!
DEFINITION. The commands of the translation unit and of the protection table: walks, invalidations, locks, context and mode
changes, staging and loading (R257 to R264, R326 to R338); and the loss and return of bus mastership, which accesses wait for
(R392).
-/

namespace Sys2Proof.Machine

/-! Accesses that waited. -/

/-- Goes on with an access whose translation, or whose failure, is at hand. -/
def Dev.resumeAccess (d : Dev) (a : Access) (r : Except Nat (List Seg)) : Dev :=
  match a.cont with
  | .put c psn => d.putDone c psn r
  | .commit c psn => d.commitGo c psn r
  | .again c psn _ len => d.againGo c psn len (a.tick.getD d.tickNow) r
  | .src c op k => d.srcGo c op k r
  | .dst c op k bs => d.dstDone c op k bs r
  | .recv q idx bs =>
    match r with
    | .ok segs => (d.storeSegs segs bs).recvPlaced q idx bs.length 0
    | .error st => d.recvPlaced q idx bs.length st
  | .colSrc g seq ep b => d.colSrcGo g seq ep b r
  | .colDst g seq ep b bs => d.colDstGo g seq ep b bs r
  | .mbr id =>
    match r with
    | .ok segs => d.brXlated id segs
    | .error _ => d.brFault id
  | .eng e =>
    match r with
    | .ok segs => d.engMade e segs
    | .error _ => d.engFault e 3

/-- Takes an access out of those that wait. -/
def Dev.unpark (d : Dev) (a : Access) : Dev :=
  { d with xlt := { d.xlt with wait := d.xlt.wait.filter fun b => b.seq != a.seq } }

/-- An access looks up its translation again, in the tiers of its user. -/
def Dev.askAgain (d : Dev) (a : Access) : Asked × Dev :=
  match a.cont with
  | .eng e => d.engAsk e { a with segs := none }
  | _ => d.ask { a with segs := none }

/-- Tries an access again after its walk. DEDUCED, unsafe (assumption 75). -/
def Dev.retryAccess (d : Dev) (a : Access) : Dev :=
  match (d.unpark a).askAgain a with
  | (.go segs, d) => d.resumeAccess a (.ok segs)
  | (.wait, d) => d
  | (.fault st, d) => d.resumeAccess a (.error st)

/-- Ends an access with a status. -/
def Dev.failAccess (d : Dev) (a : Access) (st : Nat) : Dev := (d.unpark a).resumeAccess a (.error st)

/-! Locks (R332, Table 11-6). -/

/-- Sets RESULT as the operation ends; a refusal is flagged and raised, with the cause and level of its fault (R339). -/
def Dev.lockResult (d : Dev) (fn c r : Nat) (cause : Nat := 0) (level : Nat := 0) : Dev :=
  let d := ({ d with xlt := { d.xlt with locks := Tbl.erase d.xlt.locks fn } }).setFld F.XLT_LOCK_CTRL_RESULT fn r
  if r = 2 ∨ r = 3 ∨ r = 5 then (d.setFld F.XLT_STATUS_LOCK_REFUSED fn 1).raise 0x0F04 [c, cause, level] else d

/-- Context and engine of a function's lock operation: with DEST 1 the context that `XLT_CTX_SEL` selects. -/
def Dev.lockTarget (d : Dev) (fn : Nat) : Nat × Option Nat :=
  let x := d.fld F.XLT_LOCK_CTRL_CTX_ENG fn
  if d.flag F.XLT_LOCK_CTRL_DEST fn then (d.fld F.XLT_CTX_SEL_CTX fn, some (x % 1024)) else (x, none)

/-- The input address of a function's lock operation. -/
def Dev.lockVa (d : Dev) (fn : Nat) : Nat := d.addr57 F.XLT_LOCK_ADDR_LO_ADDR F.XLT_LOCK_ADDR_HI_ADDR fn

/-- Places a locked entry in the large cache or in an engine's slots. -/
def Dev.placeLock (d : Dev) (fn : Nat) (x : XEnt) (engine : Option Nat) : Dev :=
  let x := { x with va := x.va / 2 ^ spanBits x.level * 2 ^ spanBits x.level, locked := true, used := d.xlt.seq }
  let same := fun (y : XEnt) => y.ctx == x.ctx && y.level == x.level && y.va == x.va
  match engine with
  | some e =>
    let es := (Tbl.getD d.xlt.slots e []).filter fun y => !same y
    if 16 ≤ es.length then d.lockResult fn x.ctx 2
    else (({ d with xlt := { d.xlt with slots := Tbl.set d.xlt.slots e (es ++ [x]) } }).lockSync x.ctx).lockResult fn x.ctx 0
  | none =>
    let xs := d.xlt.cache.filter fun y => !same y
    let ways := xs.filter fun y => y.set == x.set
    if 1024 ≤ (xs.filter (·.locked)).length ∨ 4 ≤ (ways.filter (·.locked)).length then d.lockResult fn x.ctx 2
    else
      let xs := if ways.length < 8 then xs else match lruOf xs x.set with
        | some y => xs.erase y
        | none => xs
      let d := if ways.length < 8 then d else d.count 8 7
      (({ d with xlt := { d.xlt with cache := x :: xs } }).lockSync x.ctx).lockResult fn x.ctx 0

/-- A lock operation ends in a fault. -/
def Dev.lockFault (d : Dev) (fn c va cause level table : Nat) : Dev :=
  (d.walkFault c va cause level table (d.xctxKind c) false).2.lockResult fn c 3 cause level

/-- Begins the walk of a function's LOCK_WALK, or begins it again. -/
def Dev.lockWalk (d : Dev) (fn : Nat) : Dev :=
  let (c, va, _) := Tbl.getD d.xlt.locks fn (0, 0, none)
  let top := d.xctxLevels c - 1
  if d.xctxState c ≠ 1 then d.lockFault fn c va 1 top 0
  else if 2 ^ (12 + 9 * d.xctxLevels c) ≤ va then d.lockFault fn c va 2 top 0
  else
    match (d.setFld F.XLT_LOCK_CTRL_RESULT fn 1).startWalk c va (d.xctxKind c) (some fn) with
    | (some (l, t), d) => d.lockFault fn c va 0xA l t
    | (none, d) => d

/-- LOCK_LOAD of the value in `XLT_LOCK_ENTRY`. -/
def Dev.lockLoad (d : Dev) (fn : Nat) : Dev :=
  let (c, e) := d.lockTarget fn
  let va := d.lockVa fn
  let l := d.fld F.XLT_LOCK_CTRL_SIZE fn
  let v := d.rd .XLT_LOCK_ENTRY_HI fn ++ d.rd .XLT_LOCK_ENTRY_LO fn
  let k := if d.xctxState c ≠ 1 then 1
    else if 2 ^ (12 + 9 * d.xctxLevels c) ≤ va then 2
    else d.leafCause c l v
  if k ≠ 0 then d.lockFault fn c va k l 0
  else d.placeLock fn { ctx := c, level := l, va := va, ent := v, locked := true, used := 0 } e

/-- UNLOCK. -/
def Dev.unlockEntry (d : Dev) (fn : Nat) : Dev :=
  let (c, e) := d.lockTarget fn
  let va := d.lockVa fn
  match e with
  | some e =>
    let es := Tbl.getD d.xlt.slots e []
    match es.find? fun y => y.covers c va with
    | none => d.lockResult fn c 4
    | some y => (({ d with xlt := { d.xlt with slots := Tbl.set d.xlt.slots e (es.erase y) } }).lockSync c).lockResult fn c 0
  | none =>
    match d.xlt.cache.find? fun y => y.locked && y.covers c va with
    | none => d.lockResult fn c 4
    | some y => (({ d with xlt := { d.xlt with cache := d.xlt.cache.erase y } }).lockSync c).lockResult fn c 0

/-- A write of `XLT_LOCK_CTRL` (R332): the fields, then the operation where GO is 1. DEDUCED, unsafe (assumption 76). -/
def Dev.lockCtrlWrite (d : Dev) (src : Src) (v : Word) : Dev :=
  let fn := src.fn
  if 1 < d.level src then d
  else if F.XLT_LOCK_CTRL_GO.ofWord v = 1 ∧ d.fld F.XLT_LOCK_CTRL_RESULT fn = 1 then
    d.stateWrite fn (Reg.addr .XLT_LOCK_CTRL 0)
  else
    let old := d.rd .XLT_LOCK_CTRL fn
    let new := Reg.merge .XLT_LOCK_CTRL old v 0xFFFFFFFF#32
    let new := if d.level src = 0 then new else F.XLT_LOCK_CTRL_DEST.put new 0
    let d := d.setReg .XLT_LOCK_CTRL fn new
    let (c, e) := d.lockTarget fn
    let dest := F.XLT_LOCK_CTRL_DEST.ofWord v
    if F.XLT_LOCK_CTRL_GO.ofWord v = 0 ∨ !d.mayReach src (Tbl.get d.own.xctx c) ∨ (dest = 1 ∧ d.level src ≠ 0) then d
    else
      let split := match e with
        | some e => !d.flag F.XLT_HR_MODE_MODE (e / 16)
        | none => false
      match F.XLT_LOCK_CTRL_OP.ofWord v with
      | 0 =>
        if split then d.lockResult fn c 5
        else ({ d with xlt := { d.xlt with locks := Tbl.set d.xlt.locks fn (c, d.lockVa fn, e) } }).lockWalk fn
      | 1 => if split then d.lockResult fn c 5 else d.lockLoad fn
      | 2 => if split then d.lockResult fn c 5 else d.unlockEntry fn
      | _ => d

/-- LOCK_WALK. -/
def execLockWalk (src : Src) (v : Word) (s : State) : Host.Outcome State Fault Refusal :=
  s.run fun d => if F.XLT_LOCK_CTRL_GO.ofWord v = 1 ∧ F.XLT_LOCK_CTRL_OP.ofWord v = 0 then d.lockCtrlWrite src v else d

/-- LOCK_LOAD. -/
def execLockLoad (src : Src) (v : Word) (s : State) : Host.Outcome State Fault Refusal :=
  s.run fun d => if F.XLT_LOCK_CTRL_GO.ofWord v = 1 ∧ F.XLT_LOCK_CTRL_OP.ofWord v = 1 then d.lockCtrlWrite src v else d

/-- UNLOCK. -/
def execUnlock (src : Src) (v : Word) (s : State) : Host.Outcome State Fault Refusal :=
  s.run fun d => if F.XLT_LOCK_CTRL_GO.ofWord v = 1 ∧ F.XLT_LOCK_CTRL_OP.ofWord v = 2 then d.lockCtrlWrite src v else d

/-! Walks (R326 to R329). -/

/-- The accesses that wait for a walk. -/
def Dev.waiters (d : Dev) (w : Walk) : List Access :=
  d.xlt.wait.filter fun a => a.segs.isNone && a.ctx == w.ctx && a.missing / 4096 == w.va / 4096

/-- Walks that found 256 running begin, in arrival order (R328). -/
def Dev.wakeWalks (d : Dev) : Dev :=
  let d := (d.xlt.wait.filter fun a => a.segs.isNone).foldl (fun d a =>
    if d.xlt.walks.any fun w => w.lock.isNone && w.ctx == a.ctx && w.va / 4096 == a.missing / 4096 then d
    else if d.xlt.wait.any fun b => b.seq == a.seq then d.retryAccess a else d) d
  ((List.range 24).map (4096 + ·) ++ (List.range 16).map (4176 + ·) ++ [4224]).foldl (fun d fn =>
    if d.fld F.XLT_LOCK_CTRL_RESULT fn = 1 ∧ !(d.xlt.walks.any fun w => w.lock == some fn) then d.lockWalk fn else d) d

/-- Takes a walk out of those that run. -/
def Dev.dropWalk (d : Dev) (w : Walk) : Dev :=
  ({ d with xlt := { d.xlt with walks := d.xlt.walks.filter fun x => x.seq != w.seq } }).arbDrop 3 w.seq

/-- A walk ends in a fault: it reaches every user of the walk. -/
def Dev.walkFails (d : Dev) (w : Walk) (cause level table : Nat) : Dev :=
  let d := d.dropWalk w
  match w.lock with
  | some fn => (d.lockFault fn w.ctx w.va cause level table).wakeWalks
  | none =>
    let as := d.waiters w
    let r := d.walkFault w.ctx w.va cause level table w.user false
    (as.foldl (fun d a => d.failAccess a r.1) r.2).wakeWalks

/-- Whether an entry's span meets a range that was invalidated while the walk ran (R335). -/
def Walk.dropped (w : Walk) (va level : Nat) : Bool :=
  w.drop.any fun r => decide (va ≤ r.2 ∧ r.1 < va + 2 ^ spanBits level)

/-- Puts what a walk found in the cache, unless an invalidation discards it. -/
def Dev.install (d : Dev) (w : Walk) (level : Nat) (e : BitVec 64) : Dev :=
  let va := w.va / 2 ^ spanBits level * 2 ^ spanBits level
  if w.dropped va level || d.xctxState w.ctx != 1 then d
  else d.cachePut { ctx := w.ctx, level := level, va := va, ent := e, locked := false, used := 0 }

/-- A walk finds its leaf: a lock takes it, and accesses that it serves go on or fault (R326). -/
def Dev.walkLeaf (d : Dev) (w : Walk) (e : BitVec 64) : Dev :=
  let l := w.level
  let va := w.va / 2 ^ spanBits l * 2 ^ spanBits l
  match w.lock with
  | some fn =>
    let d := d.dropWalk w
    if w.dropped va l || d.xctxState w.ctx != 1 then (d.lockWalk fn).wakeWalks
    else
      let x : XEnt := { ctx := w.ctx, level := l, va := va, ent := e, locked := true, used := 0 }
      (d.placeLock fn x (Tbl.getD d.xlt.locks fn (0, 0, none)).2.2).wakeWalks
  | none =>
    let as := d.waiters w
    let d := (d.install w l e).dropWalk w
    (as.foldl (fun d a =>
      let high := entTgt e == 1 && decide (d.hbmBytes ≤ entAddr e + a.missing % 2 ^ spanBits l)
      let cause := if entRights e &&& a.need ≠ a.need then 8 else if high then 7 else 0
      if cause = 0 then d.retryAccess a
      else
        let r := d.walkFault a.ctx a.missing cause l w.table a.user false
        r.2.failAccess a r.1) d).wakeWalks

/-- A table read of walk `w` returned entry `e`. -/
def Dev.walkStep (d : Dev) (w : Walk) (e : BitVec 64) : Dev :=
  let l := w.level
  if !entV e then d.walkFails w 3 l w.table
  else if !entRsvOk e then d.walkFails w 4 l w.table
  else if (l = 0 ∧ entTbl e) ∨ (l = 4 ∧ !entTbl e) then d.walkFails w 5 l w.table
  else if entTbl e then
    let d := if w.lock.isNone then d.install w l e else d
    let t := entAddr e
    if !d.tableLegal w.ctx t then d.walkFails w 0xA (l - 1) t
    else
      let ws := d.xlt.walks.map fun (x : Walk) => if x.seq = w.seq then { x with level := l - 1, table := t } else x
      (({ d with xlt := { d.xlt with walks := ws } }).count 8 3).request 3 w.seq (d.flag F.XLT_CTX_CFG_MEM w.ctx) []
  else
    let k := d.leafCause w.ctx l e
    if k ≠ 0 then d.walkFails w k l w.table else d.walkLeaf w e

/-- WALK_READ_DONE: the table read of the `k`th walk returns. A table in HBM answers from the device's own memory; one in a
hierarchy that is HELD waits with it, and one that the arbiter has not issued waits for it (R201, R328). -/
def execWalkReadDone (k : Fin 256) (e : BitVec 64) (res : MemRes) (s : State) : Host.Outcome State Fault Refusal :=
  s.runHost fun d =>
    match d.xlt.walks[k.val]? with
    | none => d
    | some w =>
      let hbm := d.flag F.XLT_CTX_CFG_MEM w.ctx
      if d.arbWaits 3 w.seq || !hbm && d.heldHier (d.fld F.XLT_CTX_CFG_HIER w.ctx) then d
      else if res ≠ .ok then d.walkFails w 9 w.level w.table
      else
        let a := w.table + 8 * (w.va / 2 ^ spanBits w.level % 512)
        let r := d.load .hbm a 8
        if hbm then r.2.walkStep w (BitVec.ofNat 64 (leNat r.1)) else d.walkStep w e

/-! Invalidations (R334, R335). -/

/-- A write of `XLT_INV_CTRL` (Table 11-12). -/
def Dev.invCtrlWrite (d : Dev) (src : Src) (v : Word) : Dev :=
  let fn := src.fn
  if 1 < d.level src then d
  else
    let d := d.setReg .XLT_INV_CTRL fn (Reg.merge .XLT_INV_CTRL (d.rd .XLT_INV_CTRL fn) v 0xFFFFFFFF#32)
    let ty := F.XLT_INV_CTRL_TYPE.ofWord v
    let c := F.XLT_INV_CTRL_CTX.ofWord v
    if F.XLT_INV_CTRL_ISSUE.ofWord v = 0 then d
    else if ty = 3 ∨ (ty = 2 ∧ d.level src ≠ 0) ∨ (ty ≠ 2 ∧ !d.mayReach src (Tbl.get d.own.xctx c)) then
      d.stateWrite fn (Reg.addr .XLT_INV_CTRL 0)
    else if 64 ≤ (d.xlt.invals.filter fun i => i.fn.isSome).length then
      (d.setFld F.XLT_STATUS_INV_FULL fn 1).raise 0x0F03 [c, 0, 0]
    else
      let span := 2 ^ (12 + min 45 (F.XLT_INV_CTRL_LOG_PAGES.ofWord v))
      let lo := d.addr57 F.XLT_INV_ADDR_LO_ADDR F.XLT_INV_ADDR_HI_ADDR fn / span * span
      let token := (d.fld F.XLT_INV_TOKEN_ISSUED fn + 1) % 2 ^ 16
      let i : Inval := { fn := some fn, token := token, ctx := if ty = 2 then none else some c,
                         lo := if ty = 0 then lo else 0, hi := if ty = 0 then lo + span - 1 else 2 ^ 57 - 1, seq := 0 }
      let r := ((d.setFld F.XLT_INV_TOKEN_ISSUED fn token).count 8 6).invalidate i false
      if r.2 then r.1.setFld F.XLT_STATUS_LOCKED_HIT fn 1 else r.1

/-- XLT_INV_ISSUE. -/
def execXltInvIssue (src : Src) (v : Word) (s : State) : Host.Outcome State Fault Refusal :=
  s.run fun d => if F.XLT_INV_CTRL_ISSUE.ofWord v = 1 then d.invCtrlWrite src v else d

/-- Whether an invalidation's conditions hold (R335): it is its function's oldest, every walk that started before it has
ended, and no access it translated still waits to be issued. -/
def Dev.tokenReady (d : Dev) (k : Nat) (i : Inval) : Bool :=
  let mine := fun (c : Nat) => match i.ctx with
    | none => true
    | some x => x == c
  (d.xlt.invals.take k).all (fun j => i.fn.isNone || j.fn != i.fn) &&
    d.xlt.walks.all (fun w => !(mine w.ctx && decide (w.seq < i.seq))) &&
    d.xlt.wait.all fun a => !(a.segs.isSome && mine a.ctx && decide (a.seq < i.seq ∧ a.va ≤ i.hi ∧ i.lo < a.va + a.len))

/-- INV_TOKEN_DONE: the `k`th outstanding invalidation is done; a disable's own ends DRAINING (R335, R337). -/
def execInvTokenDone (k : Nat) (s : State) : Host.Outcome State Fault Refusal :=
  s.run fun d =>
    match d.xlt.invals[k]? with
    | none => d
    | some i =>
      if !d.tokenReady k i then d
      else
        let d := { d with xlt := { d.xlt with invals := d.xlt.invals.eraseIdx k } }
        match i.fn, i.ctx with
        | some fn, _ => d.setFld F.XLT_INV_TOKEN_DONE fn i.token
        | none, some c => d.setFld F.XLT_CTX_STATUS_STATE c 0
        | none, none => d

/-! Contexts and modes (R331, R337). -/

/-- A write of `XLT_CTX_CFG` on the context that a function has selected. -/
def Dev.xctxCfgWrite (d : Dev) (src : Src) (v : Word) : Dev :=
  let fn := src.fn
  let off := Reg.addr .XLT_CTX_CFG 0
  let c := d.fld F.XLT_CTX_SEL_CTX fn
  if 1 < d.level src ∨ !d.selValid fn .XLT_CTX_SEL then d
  else
    let old := d.rd .XLT_CTX_CFG c
    let new := Reg.merge .XLT_CTX_CFG old v 0xFFFFFFFF#32
    let new := if d.part.hasHbm then new else F.XLT_CTX_CFG_MEM.put new 0
    let new := if d.level src = 0 then new else
      let n := F.XLT_CTX_CFG_DEV_OK.put new (F.XLT_CTX_CFG_DEV_OK.ofWord old)
      if F.XLT_CTX_CFG_KIND.ofWord n = 2 then F.XLT_CTX_CFG_KIND.put n (F.XLT_CTX_CFG_KIND.ofWord old) else n
    let on := F.XLT_CTX_CFG_ENABLE.ofWord v == 1
    match d.xctxState c with
    | 0 =>
      if on ∧ F.XLT_CTX_CFG_LEVELS.ofWord new = 3 then d.stateWrite fn off
      else
        let d := d.setReg .XLT_CTX_CFG c new
        if on then d.setFld F.XLT_CTX_STATUS_STATE c 1 else d
    | 1 =>
      let d := if F.XLT_CTX_CFG_ENABLE.put new 0 = F.XLT_CTX_CFG_ENABLE.put old 0 then d else d.stateWrite fn off
      if on then d
      else
        let d := (d.setFld F.XLT_CTX_CFG_ENABLE c 0).setFld F.XLT_CTX_STATUS_STATE c 2
        let i : Inval := { fn := none, token := 0, ctx := some c, lo := 0, hi := 2 ^ 57 - 1, seq := 0 }
        (d.invalidate i true).1.lockSync c
    | _ => d.stateWrite fn off

/-- XLT_CTX_DISABLE. DEDUCED, unsafe (assumption 77). -/
def execXltCtxDisable (src : Src) (v : Word) (s : State) : Host.Outcome State Fault Refusal :=
  s.run fun d => if F.XLT_CTX_CFG_ENABLE.ofWord v = 0 then d.xctxCfgWrite src v else d

/-- A write of `XLT_HR_MODE[h]`. -/
def Dev.hrModeWrite (d : Dev) (src : Src) (h : Nat) (v : Word) : Dev :=
  if d.level src ≠ 0 then d
  else if d.fld F.PWR_HR_STATE h ≠ 0 then d.stateWrite src.fn (Reg.addr .XLT_HR_MODE h)
  else
    let m := F.XLT_HR_MODE_MODE.ofWord v
    if m = d.fld F.XLT_HR_MODE_MODE h then d
    else
      let d := d.setFld F.XLT_HR_MODE_MODE h m
      let x := d.xlt
      let x := { x with
        slots := x.slots.filter fun t => t.1 / 16 != h
        itlb := x.itlb.filter fun t => t.1 / 16 != h
        dtlb := x.dtlb.filter fun t => t.1 / 16 != h
        hr := Tbl.erase x.hr h }
      ({ d with xlt := x }).setFld F.XLT_HR_MODE_SLOTS_USED h 0

/-- XLT_HR_MODE. -/
def execXltHrMode (src : Src) (h : Hedge) (v : Word) (s : State) : Host.Outcome State Fault Refusal :=
  s.run fun d => d.hrModeWrite src h.val v

/-! The protection table (R252 to R264). -/

/-- The entry that a function's field registers spell; it takes effect at its boundary. -/
def Dev.fieldVer (d : Dev) (fn : Nat) : ProtVer :=
  { from_ := 0
    attr := F.XLT_RGN_ATTR_RIGHTS.put (d.rd .XLT_RGN_ATTR fn) (d.fld F.XLT_RGN_ATTR_RIGHTS fn % 32)
    owner := d.rd .XLT_RGN_OWNER fn
    base := d.fld F.XLT_RGN_BASE_LO_BASE fn + d.fld F.XLT_RGN_BASE_HI_BASE fn * 2 ^ 32
    len := d.fld F.XLT_RGN_LEN_LO_LENGTH fn + d.fld F.XLT_RGN_LEN_HI_LENGTH fn * 2 ^ 32
    parent := d.rd .XLT_RGN_PARENT fn }

/-- Stages an entry for a function; the answer is whether a slot was free (R259). -/
def Dev.stageProt (d : Dev) (fn i : Nat) (late : Bool) (v : ProtVer) : Bool × Dev :=
  if 4096 ≤ d.protSlots then (false, (d.setFld F.XLT_PROT_STATUS_STAGE_FULL 0 1).raise 0x0F42 [])
  else (true, d.stage fn late (.prot i v))

/-- A write of `XLT_RGN_CMD`. -/
def Dev.rgnCmdWrite (d : Dev) (src : Src) (v : Word) (late : Bool) : Dev :=
  let fn := src.fn
  let i := d.fld F.XLT_RGN_SEL_INDEX fn
  if 1 < d.level src then d
  else
    let d := if F.XLT_RGN_CMD_STAGE.ofWord v = 0 ∨ i = 0 then d
      else if !d.inRange fn i ∨
          (d.level src = 1 ∧ (Tbl.get d.own.domain (d.fld F.XLT_RGN_OWNER_PD fn)).map d.pfOf ≠ some fn) then
        d.setFld F.XLT_PROT_STATUS_REFUSED 0 1
      else (d.stageProt fn i late (d.fieldVer fn)).2
    if F.XLT_RGN_CMD_LOAD.ofWord v = 0 then d
    else
      let e := d.protAt d.tickNow i
      let d := ((d.setReg .XLT_RGN_ATTR fn e.attr).setReg .XLT_RGN_OWNER fn e.owner).setReg .XLT_RGN_PARENT fn e.parent
      let d := (d.setFld F.XLT_RGN_BASE_LO_BASE fn e.base).setFld F.XLT_RGN_BASE_HI_BASE fn (e.base / 2 ^ 32)
      (d.setFld F.XLT_RGN_LEN_LO_LENGTH fn e.len).setFld F.XLT_RGN_LEN_HI_LENGTH fn (e.len / 2 ^ 32)

/-- XLT_RGN_STAGE. -/
def execXltRgnStage (src : Src) (v : Word) (late : Bool) (s : State) : Host.Outcome State Fault Refusal :=
  s.run fun d => if F.XLT_RGN_CMD_STAGE.ofWord v = 1 then d.rgnCmdWrite src v late else d

/-- XLT_RGN_LOAD. -/
def execXltRgnLoad (src : Src) (v : Word) (s : State) : Host.Outcome State Fault Refusal :=
  s.run fun d => if F.XLT_RGN_CMD_STAGE.ofWord v = 0 ∧ F.XLT_RGN_CMD_LOAD.ofWord v = 1 then d.rgnCmdWrite src v false else d

/-- Staged entries switch in: each is its entry's newest version from this tick on, and versions that nothing can use any
more are freed (R257, R259). -/
def Dev.applyProt (d : Dev) (i : Nat) (v : ProtVer) : Dev :=
  let vs := { v with from_ := d.tickNow } :: Tbl.getD d.prot.ents i []
  ({ d with prot := { d.prot with ents := Tbl.set d.prot.ents i vs } }).count 9 8

/-- Frees superseded versions that nothing can use any more. -/
def Dev.pruneProt (d : Dev) : Dev :=
  let s := d.settled
  { d with prot := { d.prot with ents := Tbl.mapVal (keptVersions s) d.prot.ents } }

/-! Bus mastership (R392). -/

/-- The function number or hierarchy of a `Bm`. -/
def Dev.setHeld (d : Dev) (f : Bm) (on : Bool) : Dev :=
  let put := fun (xs : List Nat) (n : Nat) => if on then (if xs.contains n then xs else n :: xs) else xs.filter (· != n)
  match f with
  | .pf h => { d with hsw := { d.hsw with held := put d.hsw.held (4096 + h.val) } }
  | .vf v => { d with hsw := { d.hsw with held := put d.hsw.held v.val } }
  | .hier h => { d with hsw := { d.hsw with unreach := put d.hsw.unreach h.val } }

/-- BUS_MASTER_DISABLE: queues that need the function's DMA enter HELD. -/
def execBusMasterDisable (f : Bm) (s : State) : Host.Outcome State Fault Refusal :=
  s.run fun d => (d.setHeld f true).holdQueues

/-- Accesses that waited for a hierarchy go on. -/
def Dev.releaseAccesses (d : Dev) : Dev :=
  (d.xlt.wait.filter fun a => match a.segs with
    | some segs => !segs.any d.segHeld
    | none => false).foldl (fun d a =>
      if d.xlt.wait.any fun b => b.seq == a.seq then (d.unpark a).resumeAccess a (.ok (a.segs.getD [])) else d) d

/-- BUS_MASTER_ENABLE: aborts first, then kept completions, then new work. -/
def execBusMasterEnable (f : Bm) (s : State) : Host.Outcome State Fault Refusal :=
  s.run fun d => ((d.setHeld f false).resumeQueues).releaseAccesses

/-- SOURCE_DATA_READ_DONE: local source data returns. -/
def execSourceDataReadDone (x : SrcOf) (data : List Byte) (res : MemRes) (s : State) : Host.Outcome State Fault Refusal :=
  s.runHost fun d =>
    match x with
    | .op c id k => d.sourceDone c.toNat id k data res
    | .col g seq ep b => d.colSourceDone g.toNat seq.toNat ep.val b data res

end Sys2Proof.Machine
end

