-- ==== Sys2Proof/Machine/Hsw.lean ====
section
/-!
DEFINITION. The host switch: hierarchies and their resets, configuration and peer requests, completion timeouts, tunnels,
containment and host-lane links (R370 to R401).
-/

namespace Sys2Proof

/-- The number of a function. -/
def Func.num : Func → Nat
  | .pf h => 4096 + h.val
  | .vf v => v.val

end Sys2Proof

namespace Sys2Proof.Machine

/-- Whether a tunnel names connection `n`. -/
def Dev.tunnelConn (d : Dev) (n : Nat) : Bool :=
  (List.range 64).any fun t => d.fld F.HSW_TUN_CONN_CONN t == n &&
    (d.tunState t == 2 || d.tunState t == 3 || (d.tunState t == 1 && !d.tunDev t))

/-- Whether host-lane port `n` is present: its group is, and the group's mode has it (R371, Table 13-2). -/
def Dev.hlPresent (d : Dev) (n : Nat) : Bool :=
  decide (n < d.part.hostPorts) && match F.HSW_GRP_CFG_BIF.ofWord (d.grpCfg (n / 4)) with
    | 0 => n % 4 == 0
    | 1 => n % 2 == 0
    | 2 => true
    | _ => n % 4 != 1

/-- ROLE of a port: 0 DISABLED, 1 UPSTREAM, 2 DOWNSTREAM, 3 POOL (R372). -/
def Dev.hlRole (d : Dev) (n : Nat) : Nat := if d.hlPresent n then F.HSW_PORT_CFG_ROLE.ofWord (d.portCfg n) else 0

/-- The UPSTREAM ports that name a hierarchy, the one that serves it first (R374). -/
def Dev.upstreams (d : Dev) (h : Nat) : List Nat :=
  (List.range 48).filter fun n => d.hlRole n == 1 && F.HSW_PORT_CFG_HIER.ofWord (d.portCfg n) == h

/-- Whether hierarchy `h` is ACTIVE. -/
def Dev.hierActive (d : Dev) (h : Nat) : Bool := d.flag F.HSW_HIER_ACTIVE h

/-- Whether a function exists: its hierarchy is ACTIVE (R376, R379). -/
def Dev.funcOn (d : Dev) (f : Nat) : Bool := decide (d.hierOf f < 24) && d.hierActive (d.hierOf f)

/-- Two UPSTREAM ports name one hierarchy. -/
def Dev.hierConflict (d : Dev) (n h : Nat) : Dev := (d.setFld F.HSW_STATUS_CONFLICT 0 1).raise 0x1106 [n, h]

/-- The size of the peer BAR: the end of the highest window, rounded up to a power of two and at least 1 MiB (R530). -/
def Dev.peerBar (d : Dev) (h : Nat) : Nat :=
  let top := d.hsw.windows.foldl (fun m w => if w.1 / 16 = h then max m (w.2.off + w.2.len) else m) 0
  2 ^ ((List.range 41).find? fun k => decide (20 ≤ k ∧ top ≤ 2 ^ k)).getD 40

/-- HIERARCHY_UP: the upstream link is up and PERST_N is deasserted, so the hierarchy is ACTIVE and is enumerated: its bridge is
presented when ENABLE is 1, with the window size read now (R340, R343, R374 to R376, R396, R530).
DEDUCED, unsafe (assumption 86). -/
def execHierarchyUp (h : Hier) (s : State) : Host.Outcome State Fault Refusal :=
  s.run fun d =>
    let h := h.val
    match d.upstreams h with
    | [] => d
    | n :: others =>
      if d.hierActive h then d
      else
        let d := others.foldl (fun (d : Dev) m => d.hierConflict m h) d
        let d := (d.setFld F.HSW_PORT_STATUS_STATE n 3).setFld F.HSW_PORT_STATUS_PERST n 0
        let d := (d.setFld F.HSW_HIER_ACTIVE h 1).setFld F.HSW_HIER_USP h n
        let d := d.setFld F.HSW_HIER_READY h (if d.sec.step = 6 then 1 else 0)
        let d := { d with hsw := { d.hsw with bar := Tbl.set d.hsw.bar h (d.peerBar h) } }
        if d.part.hasMbr && d.flag F.MBR_CFG_EN 0 && d.flag F.MBR_HIER_WIN_ENABLE h && d.brState h == 0 then
          let gib := min 262144 (d.fld F.MBR_HIER_WIN_GIB h)
          ({ d with mbr := { d.mbr with shown := Tbl.set d.mbr.shown h gib } }).setFld F.MBR_HIER_STATUS_STATE h 1
        else d

/-! Resets of functions (R397, R398). -/

/-- A queue is disabled without writing any completion; what its entries held elsewhere is released. -/
def Dev.clearQueue (d : Dev) (q : Nat) : Dev :=
  let m := d.fld F.WQ_Q_BIND_MCTX q
  let d := if d.qKind q = 2 then
      (d.queue q).taken.foldl (fun (d : Dev) (e : Entry) => if e.opc = 0x10 then d.unpost m q e.idx else d) d
    else d
  let d := (d.mte.recvs.filter fun j => j.q == q).foldl (fun (d : Dev) (j : RecvJob) => d.dropRecv j) d
  let d := (d.mte.rdv.filter fun r => r.2.q == q).foldl (fun (d : Dev) r => d.rdvDrop q r.2.idx) d
  let d : Dev := { d with
    xlt := { d.xlt with wait := d.xlt.wait.filter fun a => match a.cont with
      | .recv p _ _ => p != q
      | _ => true }
    wq := Tbl.set d.wq q Queue.reset }
  let d := if d.qKind q = 3 then d.eqClear q else d
  ((d.setReg .WQ_Q_CTRL q 0#32).setReg .WQ_Q_STATUS q 0#32).setReg .WQ_Q_INFLIGHT q 0#32

/-- The function a connection belongs to: that of its send queue; none for a connection of the bridge, of a tunnel or of an
engine service. -/
def Dev.connFn (d : Dev) (n : Nat) : Option Nat :=
  let c := d.conn n
  if c.free || c.localEp == 24 || c.service || d.tunnelConn n then none else Tbl.get d.own.queue c.sq

/-- What a Function Level Reset does to functions: their queues are disabled, their connections reset, and their locks
poisoned. -/
def Dev.resetFns (d : Dev) (fns : List Nat) : Dev :=
  let qs := (d.own.queue.filter fun x => fns.contains x.2).map (·.1)
  let d := qs.foldl Dev.clearQueue d
  let d := qs.foldl Dev.colAbort d
  let cs := (d.trn.conns.map (·.1)).filter fun n => (d.connFn n).any fns.contains
  let d := cs.foldl (fun (d : Dev) n => d.connReset n) d
  d.lockResets fns

/-- A function, and a management function's virtual functions with it. -/
def Dev.fnsOf (d : Dev) (f : Nat) : List Nat :=
  if 4096 ≤ f then f :: (d.own.vfHier.filter fun x => x.2 == f - 4096).map (·.1) else [f]

/-- FUNCTION_LEVEL_RESET. DEDUCED, unsafe (assumption 92). -/
def execFunctionLevelReset (f : Func) (s : State) : Host.Outcome State Fault Refusal :=
  s.run fun d => d.resetFns (d.fnsOf f.num)

/-- A reset of what stands behind a virtual downstream port: a device, a function, or the far end of a tunnel, which hears of it
once the tunnel is open (Table 13-7). -/
def Dev.vdspReset (d : Dev) (x : Vdsp) : Dev :=
  match x.kind with
  | 1 => d.emit (.portReset x.a)
  | 2 | 3 => d.emit (.funcReset x.a x.b)
  | _ =>
    if d.tunState x.a = 2 then d.tunControl x.a 3
    else if d.tunState x.a = 1 ∨ d.tunState x.a = 3 then d.modTun x.a fun t => { t with hot := true }
    else d

/-- HIERARCHY_RESET (R389). -/
def execHierarchyReset (h : Hier) (s : State) : Host.Outcome State Fault Refusal :=
  s.run fun d =>
    let h := h.val
    let d := (d.setFld F.HSW_HIER_ACTIVE h 0).setFld F.HSW_HIER_READY h 0
    let d := (d.hsw.vdsp.filter fun x => x.1 / 32 == h).foldl (fun (d : Dev) x => d.vdspReset x.2) d
    (d.resetFns (d.fnsOf (4096 + h))).brReset h

/-! Requests to functions. -/

/-- CONFIG_REQUEST: answered with Request Retry Status until firmware is ready (R396). -/
def execConfigRequest (f : Func) (w : CfgAct) (s : State) : Host.Outcome State Fault Refusal :=
  s.run fun d =>
    let h := d.hierOf f.num
    if !d.funcOn f.num then d
    else if !d.flag F.HSW_HIER_READY h then (d.count 11 8).emit (.config f.num true)
    else
      let d := d.emit (.config f.num false)
      match w with
      | .other => d
      | .timeout v => { d with hsw := { d.hsw with cto := Tbl.set d.hsw.cto f.num v.toNat } }
      | .redirect v on =>
        let k := 32 * h + v.val
        let others := d.hsw.redirect.filter (· != k)
        { d with hsw := { d.hsw with redirect := if on then k :: others else others } }

/-- A request to space that a function does not implement (R391). -/
def Dev.unsupported (d : Dev) (f : Nat) (write : Bool) : Dev := (d.count 11 0).emit (.unsupported f write)

/-- UNSUPPORTED_REQUEST. -/
def execUnsupportedRequest (f : Func) (write : Bool) (s : State) : Host.Outcome State Fault Refusal :=
  s.run fun d => if d.part.hostPorts = 0 then d else d.unsupported f.num write

/-- Whether bit `n` of `HSW_P2P` of a hierarchy is set. -/
def Dev.p2pBit (d : Dev) (h n : Nat) : Bool :=
  if n < 32 then (d.rd .HSW_P2P_LO h).getLsbD n else (d.rd .HSW_P2P_HI h).getLsbD (n - 32)

/-- P2P_REQUEST: within its hierarchy a request goes to the other virtual port, or first to the host where its own port
redirects; across hierarchies it passes only through a window that is usable (R380). DEDUCED, unsafe (assumption 87). -/
def execP2pRequest (h : Hier) (v : Fin 32) (to_ : PeerTo) (write : Bool) (s : State) : Host.Outcome State Fault Refusal :=
  s.run fun d =>
    let h := h.val
    if d.part.hostPorts = 0 then d
    else if d.halted then (if write then d else d.emit (.unsupported (4096 + h) false))
    else match to_ with
    | .inside w a =>
      if d.hsw.redirect.contains (32 * h + v.val) then d.emit (.peerHost h write)
      else d.emit (.peer h w.val a.toNat write)
    | .bar off =>
      let hit := d.hsw.windows.find? fun w => w.1 / 16 == h && decide (w.2.off ≤ off.toNat ∧ off.toNat < w.2.off + w.2.len)
      match hit with
      | some (_, w) =>
        if d.p2pBit h w.port then d.emit (.peerWin h w.port (w.target + (off.toNat - w.off)) write)
        else ((((d.unsupported (4096 + h) write).count 11 3).setFld F.HSW_STATUS_ACL_BLOCK 0 1).raise 0x1104 [h, w.port])
      | none => ((((d.unsupported (4096 + h) write).count 11 3).setFld F.HSW_STATUS_ACL_BLOCK 0 1).raise 0x1104 [h])

/-! Completion timeouts (R393 to R395). -/

/-- Twice the completion timeout of a function, in ticks rounded up (Table 13-6). -/
def twiceTimeout : Nat → Nat
  | 1 => 313
  | 2 => 31250
  | 5 => 171875
  | 6 => 656250
  | 9 => 2812500
  | 10 => 10937500
  | _ => 156250

/-- A timed-out request is reported, and its tag is not to be used again until twice the timeout has passed. -/
def Dev.timedOut (d : Dev) (f tag : Nat) : Dev :=
  let h := d.hierOf f
  let end_ := d.clk.edges + twiceTimeout (Tbl.getD d.hsw.cto f 0)
  let d := { d with hsw := { d.hsw with quarantine := d.hsw.quarantine ++ [(h, tag, end_)] } }
  (((d.count 11 1).setFld F.HSW_STATUS_CTO 0 1).emit (.aer h false)).raise 0x1102 [h, f]

/-- Goes on with the state a command left. -/
def andThen (o : Host.Outcome State Fault Refusal) (f : State → Host.Outcome State Fault Refusal) :
    Host.Outcome State Fault Refusal :=
  match o with
  | .next s => f s
  | o => o

/-- COMPLETION_TIMEOUT: the request is reported, and ends as its kind gives (R394). DEDUCED, unsafe (assumption 88). -/
def execCompletionTimeout (f : Func) (tag : BitVec 14) (r : UpReq) (s : State) : Host.Outcome State Fault Refusal :=
  andThen (s.run fun d => if d.part.hostPorts = 0 then d else d.timedOut f.num tag.toNat) fun s =>
    match r with
    | .ring q => execRingFetchDone q [] .timeout s
    | .context n => execContextFetchDone n none .timeout [] s
    | .table k => execWalkReadDone k 0#64 .timeout s
    | .source x => execSourceDataReadDone x [] .timeout s
    | .get n psn => execGetReadDone n psn [] .timeout s
    | .result g => s.run fun d => if d.colState g.toNat = 2 then d.colFail g.toNat 2 none none else d

/-- LATE_COMPLETION: a completion for a tag in quarantine is discarded (R395). -/
def execLateCompletion (h : Hier) (tag : BitVec 14) (s : State) : Host.Outcome State Fault Refusal :=
  s.run fun d =>
    if d.hsw.quarantine.any fun x => x.1 == h.val && x.2.1 == tag.toNat then
      (((d.count 11 2).setFld F.HSW_STATUS_LATE_CPL 0 1).emit (.aer h.val true)).raise 0x1103 [h.val]
    else d

/-- TAG_QUARANTINE_END: twice the timeout has passed, and the tag may be used again (R395). -/
def execTagQuarantineEnd (h : Hier) (tag : BitVec 14) (s : State) : Host.Outcome State Fault Refusal :=
  s.run fun d =>
    let left := d.hsw.quarantine.filter fun x => !(x.1 == h.val && x.2.1 == tag.toNat && decide (x.2.2 ≤ d.clk.edges))
    ({ d with hsw := { d.hsw with quarantine := left } }).releaseAccesses

/-! Tunnels (R381 to R386). -/

/-- TUNNEL_TLP_SEND: a TLP is written as a record, once its area has room (R382, R383). -/
def execTunnelTlpSend (t : Fin 64) (area : Fin 3) (tlp : List Byte) (s : State) : Host.Outcome State Fault Refusal :=
  s.runHost fun d =>
    let bs := tunBytes 0 0 tlp
    if d.tunState t.val = 2 ∧ d.tunRoom t.val area.val bs.length ∧ (area.val = 0 → (d.tun t.val).waiting = []) then
      d.tunSend t.val area.val bs
    else d

/-- What a CONTROL record does where it arrives (Table 13-4, R385). -/
def Dev.tunEvent (d : Dev) (t ev : Nat) : Dev :=
  let n := d.fld F.HSW_TUN_STATUS_PORT t
  match ev with
  | 1 => d.modTun t fun x => { x with link := true }
  | 2 => d.modTun t fun x => { x with link := false }
  | 3 => if d.tunDev t then d.emit (.portReset n) else d
  | 4 => d.modTun t fun x => { x with present := true }
  | 5 => d.modTun t fun x => { x with present := false, link := false }
  | 6 => if d.tunDev t then d.emit (.linkDisable n) else d
  | _ => d

/-- Hands on the records of an area that have been announced, in order (R384). -/
def Dev.tunHand : Nat → Dev → Nat → Nat → Dev
  | 0, d, _, _ => d
  | n + 1, d, t, area =>
    let x := d.tun t
    let pos := Tbl.getD x.freed area 0
    let end_ := Tbl.getD x.announced area 0
    if end_ ≤ pos then d
    else
      let at_ := x.base + 65536 * area + pos % 65536
      let (head, d) := d.load .hbm at_ 8
      let len := field head 0 2 0 16
      let kind := field head 2 1 0 8
      let size := if kind = 0 then 8 + (len + 7) / 8 * 8 else if kind = 1 then 8 + len else 8
      let (tlp, d) := if kind = 0 then d.load .hbm (at_ + 8) len else ([], d)
      let d := match kind with
        | 0 => (d.count 11 6).emit (if d.tunDev t then .tlpPort (d.fld F.HSW_TUN_STATUS_PORT t) tlp
            else .tlpHost (d.fld F.HSW_TUN_STATUS_HIER t) (d.fld F.HSW_TUN_STATUS_VDSP t) tlp)
        | 2 => (d.count 11 6).tunEvent t (field head 3 1 0 8)
        | _ => d
      Dev.tunHand n (d.modTun t fun x => { x with freed := Tbl.set x.freed area (min end_ (pos + size)) }) t area

/-- TUNNEL_RECORD: the oldest immediate that has committed is processed: a data immediate announces bytes of its area, a report
releases bytes of the peer's (R383, R384). -/
def execTunnelRecord (t : Fin 64) (s : State) : Host.Outcome State Fault Refusal :=
  s.runHost fun d =>
    let t := t.val
    let x := d.tun t
    match x.imms with
    | [] => d
    | imm :: rest =>
      if imm / 2 ^ 30 % 4 = 3 then
        let area := imm / 2 ^ 28 % 4
        let was := Tbl.getD x.released area 0
        let now := was + (imm % 2 ^ 28 + 2 ^ 28 - was % 2 ^ 28) % 2 ^ 28
        let d := d.modTun t fun x => { x with imms := rest, released := Tbl.set x.released area now }
        Dev.tunFlush (x.waiting.length + 1) d t
      else
        let area := imm / 2 ^ 30 % 4
        let was := Tbl.getD x.announced area 0
        let now := was + (imm % 2 ^ 30 + 2 ^ 30 - was % 2 ^ 30) % 2 ^ 30
        let d := d.modTun t fun x => { x with imms := rest, announced := Tbl.set x.announced area now }
        Dev.tunHand 8193 d t area

/-- TUNNEL_REPORT: a report of the bytes released from an area is sent (R383). -/
def execTunnelReport (t : Fin 64) (area : Fin 3) (s : State) : Host.Outcome State Fault Refusal :=
  s.runHost fun d =>
    let x := d.tun t.val
    if d.tunState t.val = 2 ∧ Tbl.getD x.reported area.val 0 < Tbl.getD x.freed area.val 0 then d.tunReport t.val area.val
    else d

/-- SECONDARY_BUS_RESET: a Secondary Bus Reset, or Link Disable, that the host sets on a virtual downstream port (R385). -/
def execSecondaryBusReset (h : Hier) (v : Fin 32) (disable : Bool) (s : State) : Host.Outcome State Fault Refusal :=
  s.run fun d =>
    match Tbl.get d.hsw.vdsp (32 * h.val + v.val) with
    | none => d
    | some x =>
      if !disable then d.vdspReset x
      else match x.kind with
        | 1 => d.emit (.linkDisable x.a)
        | 4 => if d.tunState x.a = 2 then d.tunControl x.a 6 else d
        | _ => d

/-! Containment (R387) and links. -/

/-- HSW_DPC: containment of a virtual downstream port from 2 up, or of a DOWNSTREAM port. -/
def execHswDpc (p : DpcAt) (s : State) : Host.Outcome State Fault Refusal :=
  s.run fun d =>
    match p with
    | .virt h v => if 2 ≤ v.val then d.containV h.val v.val else d
    | .port n => d.containPort n.val

/-- Opens the connection of a tunnel's host side: class 1, pinned, kept in the cache, from HOST_h to the firmware hierarchy's
endpoint of the far device, with the reliability parameters of `TRN_DEFAULTS` (R381). -/
def Dev.tunOpen (d : Dev) (t : Nat) (chan : Option Nat) : Except Nat Nat × Dev :=
  let r := d.openConn
    { peerEp := d.fld F.HSW_TUN_PEER_EP t, localEp := d.fld F.HSW_TUN_STATUS_HIER t, tc := 1, pinned := true,
      noevict := true, pd := d.fld F.HSW_CFG_TUN_PD 0, sq := 0, rq := 0, rto := 0, retryMax := 0, arg := 0#64, chan := none }
  match r.1 with
  | .error e => (.error e, r.2)
  | .ok n =>
    let d := (r.2.setFld F.HSW_TUN_CONN_CONN t n).setFld F.HSW_TUN_STATUS_STATE t 1
    let d := d.modTun t fun x => Tun.fresh { x with chan := chan }
    (.ok n, d)

/-- DPC_STATUS_CLEAR: containment ends; a tunnel that had failed is opened again with a new connection (Table 13-5). -/
def execDpcStatusClear (p : DpcAt) (s : State) : Host.Outcome State Fault Refusal :=
  s.run fun d =>
    match p with
    | .virt h v =>
      let k := 32 * h.val + v.val
      let d := { d with hsw := { d.hsw with contained := d.hsw.contained.filter (· != k) } }
      match Tbl.get d.hsw.vdsp k with
      | some x => if x.kind = 4 ∧ d.tunState x.a = 3 then (d.tunOpen x.a none).2 else d
      | none => d
    | .port n => if d.fld F.HSW_PORT_STATUS_STATE n.val = 4 then d.setFld F.HSW_PORT_STATUS_STATE n.val 1 else d

/-- The virtual ports that hold a function or logical device of the device on port `n`. -/
def Dev.sharers (d : Dev) (n : Nat) : List Nat :=
  (d.hsw.vdsp.filter fun x => (x.2.kind == 2 || x.2.kind == 3) && x.2.a == n).map (·.1)

/-- HSW_LINK: a host-lane link changes state. The link of an UPSTREAM port that does not serve its hierarchy stays down, and a
hierarchy is not ACTIVE while the link of the port that serves it is down (R374); what else R389 asks is HIERARCHY_RESET's.
the loss of a shared device's link contains its virtual port in each hierarchy (R388); a tunnel's device side tells the host side
(Table 13-5). -/
def execHswLink (n : Fin 48) (l : HostLink) (s : State) : Host.Outcome State Fault Refusal :=
  s.run fun d =>
    let n := n.val
    let role := d.hlRole n
    let was := d.fld F.HSW_PORT_STATUS_STATE n
    let st := l.state.val
    let h := F.HSW_PORT_CFG_HIER.ofWord (d.portCfg n)
    if role = 0 ∨ was = 4 ∨ st = 0 then d
    else if role = 1 ∧ (d.upstreams h).head? ≠ some n then
      if 2 ≤ st then (d.setFld F.HSW_PORT_STATUS_STATE n 1).hierConflict n h else d
    else
      let w := d.rd .HSW_PORT_STATUS n
      let put := fun (w : Word) (f : Fld) (v : Nat) => f.put w v
      let w := put (put (put w F.HSW_PORT_STATUS_STATE st) F.HSW_PORT_STATUS_RATE l.rate.toNat) F.HSW_PORT_STATUS_WIDTH
        l.width.toNat
      let w := put (put (put w F.HSW_PORT_STATUS_CXL (if l.cxl then 1 else 0)) F.HSW_PORT_STATUS_FLIT (if l.flit then 1 else 0))
        F.HSW_PORT_STATUS_REVERSED (if l.reversed then 1 else 0)
      let d := d.setReg .HSW_PORT_STATUS n w
      if (was = 3) = (st = 3) then d
      else
        let d := d.raise 0x1107 [n]
        let d := if role = 1 ∧ st ≠ 3 then (d.setFld F.HSW_HIER_ACTIVE h 0).setFld F.HSW_HIER_READY h 0 else d
        let t := d.fld F.HSW_PORT_STATUS_TUNNEL n
        let d := if t < 64 ∧ d.tunState t = 2 then d.tunControl t (if st = 3 then 1 else 2) else d
        if st = 3 then d else (d.sharers n).foldl (fun (d : Dev) k => d.containV (k / 32) (k % 32)) d

end Sys2Proof.Machine
end

