-- ==== Sys2Proof/Machine/Phy.lean ====
section
/-!
DEFINITION. Fabric lanes (R42 to R75): modules, bring-up, back-channel words, degrade and quickset, and test mode.
-/

namespace Sys2Proof.Machine

/-- `PHY_STATUS.STATE`: 0 DISABLED, 1 DOWN, 2 WAIT_POWER, 3 BRINGUP, 4 ACTIVE, 5 QUICKSET, 6 TEST. -/
def Dev.phyState (d : Dev) (p : Nat) : Nat := d.fld F.PHY_STATUS_STATE p

/-- `PHY_STATUS.STAGE`. -/
def Dev.phyStage (d : Dev) (p : Nat) : Nat := d.fld F.PHY_STATUS_STAGE p

/-- Whether a port is in BRINGUP at stage `k`. -/
def Dev.inStage (d : Dev) (p k : Nat) : Bool := d.phyState p == 3 && d.phyStage p == k

/-- The parent port: the one named in `TCK_PARENT.PARENT`; the provisional parent where that is 0xFF (Table 01-9, R18).
DEDUCED, unsafe (assumption 25). -/
def Dev.parentPort (d : Dev) : Nat :=
  if d.fld F.TCK_PARENT_PARENT 0 = 0xFF then d.clk.provisional.getD 0xFF else d.fld F.TCK_PARENT_PARENT 0

/-- Whether port `p` is the parent port or the standby parent that `TCK_PARENT` names. -/
def Dev.namedParent (d : Dev) (p : Nat) : Bool := d.parentPort == p || d.fld F.TCK_PARENT_STANDBY 0 == p

/-- Whether the clock state is ISLAND (Table 01-1). -/
def Dev.island (d : Dev) : Bool := d.fld F.TCK_STATUS_CLK_STATE 0 == 5

/-! Lanes and width (R62). -/

/-- The lanes the port's module carries, as a mask of logical lanes. DESIGN CHOICE, unsafe (assumption 140). -/
def Dev.carried (d : Dev) (p : Nat) : Nat :=
  if d.flag F.PHY_CFG_FIXED p then 15
  else match (d.port p).dataLanes with
    | 1 => 1
    | 2 => 3
    | _ => 15

/-- The lanes and width code that R62 chooses from the lanes fit at both ends, no wider than the width asked for. -/
def chooseLanes (mask want : Nat) : Option (Nat × Nat) :=
  if mask % 16 = 15 ∧ want ≠ 1 ∧ want ≠ 2 then some (15, 0)
  else if mask % 4 = 3 ∧ want ≠ 2 then some (3, 1)
  else if mask / 4 % 4 = 3 ∧ want ≠ 2 then some (12, 1)
  else if mask % 2 = 1 then some (1, 2)
  else if mask / 2 % 2 = 1 then some (2, 2)
  else if mask / 4 % 2 = 1 then some (4, 2)
  else if mask / 8 % 2 = 1 then some (8, 2)
  else none

/-- Whether `PHY_CFG.MIN_WIDTH` allows a width code; the reserved value 3 acts as one lane. DEDUCED, unsafe (assumption 40). -/
def Dev.widthOk (d : Dev) (p w : Nat) : Bool := decide (w ≤ d.fld F.PHY_CFG_MIN_WIDTH p)

/-- The narrower of two width codes (0 four, 1 two, 2 one); the reserved value 3 acts as four. -/
def narrower (a b : Nat) : Nat := max (if a = 3 then 0 else a) (if b = 3 then 0 else b)

/-- The width that the two ends agree on: the narrower of the two that they propose (Table 02-8, Table 02-11, R43). -/
def Dev.agreedWidth (d : Dev) (p : Nat) : Nat := narrower (d.fld F.PHY_CTRL_WIDTH p) (d.port p).farWidth

/-- Puts the chosen lanes in use and powers off the others (R62). -/
def Dev.useLanes (d : Dev) (p mask w : Nat) : Dev :=
  let d := (d.setFld F.PHY_STATUS_ACTIVE_LANES p mask).setFld F.PHY_STATUS_WIDTH p w
  d.modPort p fun x => { x with powered := mask }

/-- The choice at the end of stage 3: the lanes found unfit are powered off; the other fit lanes are still trained, since the far
end's choice is not known before stage 7 (R62). DEDUCED, unsafe (assumption 122). -/
def Dev.planLanes (d : Dev) (p mask w : Nat) : Dev :=
  (d.useLanes p mask w).modPort p fun x => { x with powered := x.fit }

/-- Records the lanes now fit; LANE_FAIL shows the carried lanes that are not (Table 02-16). DEDUCED, unsafe (assumption 39). -/
def Dev.setFit (d : Dev) (p fit : Nat) : Dev :=
  let fit := fit &&& d.carried p
  (d.modPort p fun x => { x with fit := fit }).setFld F.PHY_STATUS_LANE_FAIL p (d.carried p - fit)

/-! Entering and leaving states (Table 02-10). -/

/-- Asserts `MODSEL_N` of the port being read, or releases it (R53). -/
def Dev.selectModule (d : Dev) (p : Nat) (on : Bool) : Dev :=
  let d := d.modPort p fun x => { x with reading := on }
  { d with pins := { d.pins with modsel := (d.pins.modsel.filter (· != p)) ++ if on then [p] else [] } }

/-- Discards the saved quickset settings (R70). -/
def Dev.forget (d : Dev) (p : Nat) : Dev :=
  (d.modPort p fun x => { x with saved := [] }).setFld F.PHY_STATUS_SAVED p 0

/-- Saves the quickset settings (R70). -/
def Dev.saveSettings (d : Dev) (p : Nat) : Dev :=
  let ws := (List.range 4).map fun l => (d.rd .PHY_TXEQ (4 * p + l), d.rd .PHY_LANE_STATUS (4 * p + l))
  (d.modPort p fun x => { x with saved := ws }).setFld F.PHY_STATUS_SAVED p 1

/-- Begins a bring-up of a port that wants one as soon as its module is present or it has none (Table 02-10). -/
def Dev.tryBringup (d : Dev) (p : Nat) : Dev :=
  if d.phyState p = 1 ∧ d.flag F.PHY_CTRL_ENABLE p = true ∧ (d.port p).go = true ∧
      (d.flag F.PHY_STATUS_PRESENT p || d.flag F.PHY_CFG_FIXED p) = true then
    (d.modPort p fun x => { x with go := false }).setFld F.PHY_STATUS_STATE p 2
  else d

/-- Wants a bring-up, and begins it where it can. -/
def Dev.wantBringup (d : Dev) (p : Nat) : Dev := (d.modPort p fun x => { x with go := true }).tryBringup p

/-- What leaving a state with powered lanes undoes: among it, no forwarded clock is received any more, and DELAY reads 0
(Table 01-12). -/
def Dev.quietPort (d : Dev) (p : Nat) : Dev :=
  let d := { d with clk := { d.clk with live := d.clk.live.filter (· != p) } }.setFld F.TCK_PDLY_DELAY p 0
  let d := (d.selectModule p false).modPort p fun x =>
    { x with go := false, qsStep := 0, qsWait := false, qsFar := false, powered := 0, bcOut := [], bcAns := [], bcTold := [],
             adapt := [], fomLow := [], tune := [], hdrs := [] }
  let d := d.setFld F.PHY_STATUS_ACTIVE_LANES p 0
  let d := { d with rte := { d.rte with upAt := Tbl.erase d.rte.upAt p } }
  (List.range 4).foldl (fun d l => d.setFld F.PHY_LANE_STATUS_BLOCK_LOCK (4 * p + l) 0) d

/-- The port goes DOWN with a reason: from BRINGUP, ACTIVE and QUICKSET that is a link-down event (R66).
DEDUCED, unsafe (assumption 37). -/
def Dev.phyDown (d : Dev) (p reason : Nat) : Dev :=
  let st := d.phyState p
  let d := if st = 3 then d.bump F.PHY_COUNTS_FAILS p 1 else d
  let d := if reason = 0x32 ∨ (st = 5 ∧ reason = 0x31) then d.forget p else d
  let d := (d.setFld F.PHY_STATUS_STATE p 1).setFld F.PHY_STATUS_REASON p reason
  let d := (d.quietPort p).modPort p fun x => { x with restartAt := some d.clk.edges }
  let d := if st = 3 ∨ st = 4 ∨ st = 5 then d.linkDown p else d
  let d := if st = 1 then d else d.raise 0x0602 [p, reason]
  if st = 0 ∨ st = 1 ∨ reason = 0x30 then d else d.fault3 0x0602

/-- Clearing ENABLE (Table 02-10): lanes off, DISABLED with ADMIN; the fabric reserve is released (R123). -/
def Dev.phyDisable (d : Dev) (p : Nat) : Dev :=
  let st := d.phyState p
  let d := (d.setFld F.PHY_STATUS_STATE p 0).setFld F.PHY_STATUS_REASON p 0x30
  let d := (d.quietPort p).modPort p fun x => { x with restartAt := none }
  let d := if st = 3 ∨ st = 4 ∨ st = 5 then d.linkDown p else d
  d.releaseReserve p

/-- A full retrain: DOWN with ADMIN, and bring-up at once while ENABLE is 1 (Table 02-10). -/
def Dev.retrain (d : Dev) (p : Nat) : Dev := (d.phyDown p 0x30).wantBringup p

/-- Moves a bring-up to stage `k`. -/
def Dev.toStage (d : Dev) (p k : Nat) : Dev :=
  (d.modPort p fun x => { x with stageAt := d.clk.edges }).setFld F.PHY_STATUS_STAGE p k

/-! Back-channel words (R46 to R48, R50). -/

/-- A back-channel word (Table 02-3): lane, type, bits 11:8 and bits 7:0. -/
def bcWord (lane type hi lo : Nat) : Nat := lane % 4 * 2 ^ 14 + type % 4 * 2 ^ 12 + hi % 16 * 2 ^ 8 + lo % 256

/-- Stores transmit coefficients of a lane, with MAIN = 64 − PRE − POST (R46). -/
def Dev.setEq (d : Dev) (p l pre post : Nat) : Dev :=
  let i := 4 * p + l
  ((d.setFld F.PHY_TXEQ_PRE i pre).setFld F.PHY_TXEQ_POST i post).setFld F.PHY_TXEQ_MAIN i (64 - pre - post)

/-- One tap's action: the new magnitude and the result code of Table 02-3. -/
def tapStep (act cur lim : Nat) : Nat × Nat :=
  match act with
  | 0 => (cur, 0)
  | 1 => if cur < lim then (cur + 1, 0) else (lim, 1)
  | 2 => if 0 < cur then (cur - 1, 0) else (0, 1)
  | _ => (cur, 2)

/-- PRE and POST of the presets (Table 02-2). -/
def presets : List (Nat × Nat) := [(0, 0), (0, 4), (0, 8), (0, 12), (2, 8), (4, 8), (4, 14), (8, 20)]

/-- Answers a request with a status word that goes out when the lane's turn comes. DEDUCED, unsafe (assumption 42). -/
def Dev.bcAnswer (d : Dev) (p l seq st : Nat) : Dev :=
  d.modPort p fun x => { x with applied := Tbl.set x.applied l (seq, st), bcAns := Tbl.set x.bcAns l st }

/-- Whether the pair of lane and sequence number is the one applied last on the lane. -/
def Dev.bcSeen (d : Dev) (p l seq : Nat) : Option Nat :=
  match Tbl.get (d.port p).applied l with
  | some (s, st) => if s = seq then some st else none
  | none => none

/-- A request to step this end's transmitter (R46, R48). -/
def Dev.bcRequest (d : Dev) (p l seq preAct postAct : Nat) : Dev :=
  match d.bcSeen p l seq with
  | some st => d.modPort p fun x => { x with bcAns := Tbl.set x.bcAns l st }
  | none =>
    let a := tapStep preAct (d.fld F.PHY_TXEQ_PRE (4 * p + l)) 12
    let b := tapStep postAct (d.fld F.PHY_TXEQ_POST (4 * p + l)) 20
    let d := (d.setEq p l a.1 b.1).bcAnswer p l seq (bcWord l 1 (a.2 * 4 + b.2) seq)
    let d := if d.phyState p = 4 ∧ d.flag F.PHY_STATUS_SAVED p = true then d.saveSettings p else d
    if a.2 = 1 ∨ b.2 = 1 then d.raise 0x0608 [p, l] else d

/-- A preset request (R47, R48). -/
def Dev.bcPreset (d : Dev) (p l seq n : Nat) : Dev :=
  match d.bcSeen p l seq with
  | some st => d.modPort p fun x => { x with bcAns := Tbl.set x.bcAns l st }
  | none =>
    match presets[n]? with
    | some (pre, post) => (d.setEq p l pre post).bcAnswer p l seq (bcWord l 1 0 seq)
    | none => d.bcAnswer p l seq (bcWord l 1 10 seq)

/-- Whether a word of `bcOut` is a request that still waits for the status word with a sequence number. -/
def isRequest (w seq : Nat) : Bool := (w / 2 ^ 12 % 4 == 0 || w / 2 ^ 12 % 4 == 2) && w % 256 == seq

/-- The reach class of a port's channel: COPPER where it has no module (R57). -/
def Dev.reach (d : Dev) (p : Nat) : Nat := if d.flag F.PHY_CFG_FIXED p then 0 else d.fld F.PHY_MODULE_REACH p

/-- The start preset of a reach class (R60, stage 7). -/
def startPreset (reach : Nat) : Nat := 2 + reach % 4

/-- Queues a request word of type 0 or 2 for the far transmitter; it is repeated until it is answered (R48). A lane has at most one
request outstanding. -/
def Dev.bcAsk (d : Dev) (p l type hi : Nat) : Dev :=
  if Tbl.has (d.port p).bcOut l then d
  else d.modPort p fun x => { x with bcOut := Tbl.set x.bcOut l (bcWord l type hi x.bcSeq), bcSeq := (x.bcSeq + 1) % 256 }

/-- The lanes a port trains and sends on: until the width is chosen at the end of stage 7 all fit lanes, afterwards those in use
(R59, R61, R62). -/
def Dev.sentLanes (d : Dev) (p : Nat) : Nat :=
  if d.phyState p = 3 ∧ d.phyStage p ≤ 7 then (d.port p).fit else d.fld F.PHY_STATUS_ACTIVE_LANES p

/-- The next back-channel word to be sent: the active lanes take turns; a lane with nothing to ask or answer reports its
FOM and fitness (R48, Table 02-3). Where a lane has both a request and an answer to send, they take turns. -/
def Dev.bcNext (d : Dev) (p : Nat) : Nat × Dev :=
  let x := d.port p
  let l := ((List.range 4).map fun k => (x.bcLane + 1 + k) % 4).find? (fun l => (d.sentLanes p).testBit l) |>.getD 0
  let d := d.modPort p fun x => { x with bcLane := l }
  match Tbl.get x.bcAns l, Tbl.get x.bcOut l with
  | some a, none => (a, d.modPort p fun x => { x with bcAns := Tbl.erase x.bcAns l })
  | some a, some w =>
    if x.bcTold.contains l then (w, d.modPort p fun x => { x with bcTold := x.bcTold.filter (· != l) })
    else (a, d.modPort p fun x => { x with bcAns := Tbl.erase x.bcAns l, bcTold := x.bcTold ++ [l] })
  | none, some w => (w, d.modPort p fun x => { x with bcTold := x.bcTold.filter (· != l) })
  | none, none =>
    (l * 2 ^ 14 + 3 * 2 ^ 12 + d.fld F.PHY_LANE_STATUS_FOM (4 * p + l) * 16 + (if x.fit.testBit l then 0 else 8), d)

/-! The search for transmitter settings in stage 7 (R60). -/

/-- The steps tried in turn: PRE up, PRE down, POST up, POST down. DESIGN CHOICE, unsafe (assumption 123). -/
def tuneActs : List Nat := [4, 8, 1, 2]

/-- The opposite of a step. -/
def stepBack (c : Nat) : Nat := if c % 4 = 0 then (if c / 4 = 1 then 8 else 4) else if c = 1 then 2 else 1

/-- Stores a lane's search and asks for what it tries next. -/
def Dev.tuneAsk (d : Dev) (p l : Nat) (t : Tune) : Dev :=
  let d := d.modPort p fun x => { x with tune := Tbl.set x.tune l { t with told := false } }
  match t.phase with
  | 0 => d.bcAsk p l 2 t.preset
  | 1 => d.bcAsk p l 2 t.best
  | 2 => d.bcAsk p l 0 (tuneActs.getD t.act 0)
  | 3 => d.bcAsk p l 0 (stepBack (tuneActs.getD t.act 0))
  | _ => d

/-- The next step is tried, or the search ends. -/
def Dev.tuneNext (d : Dev) (p l : Nat) (t : Tune) : Dev :=
  if t.act + 1 < tuneActs.length then d.tuneAsk p l { t with phase := 2, act := t.act + 1 }
  else d.tuneAsk p l { t with phase := 4, doneAt := d.clk.edges }

/-- The walk over the presets ends: the best is asked for again, unless it is the one on trial, and the steps begin. -/
def Dev.tuneBest (d : Dev) (p l : Nat) (t : Tune) : Dev :=
  let t := { t with act := 0, fom := t.top.getD 0 }
  if t.best = t.preset then d.tuneAsk p l { t with phase := 2 } else d.tuneAsk p l { t with phase := 1 }

/-- A request of stage 7 was answered with the results `res` of Table 02-3: a trial that was applied waits for the FOM; one that was
not is over. -/
def Dev.tuneTold (d : Dev) (p l res : Nat) : Dev :=
  match Tbl.get (d.port p).tune l with
  | none => d
  | some t =>
    match t.phase with
    | 0 => if res = 10 then d.tuneBest p l t else d.modPort p fun x => { x with tune := Tbl.set x.tune l { t with told := true } }
    | 1 => d.tuneAsk p l { t with phase := 2 }
    | 2 => if res ≠ 0 then d.tuneNext p l t
      else d.modPort p fun x => { x with tune := Tbl.set x.tune l { t with told := true } }
    | 3 => d.tuneNext p l t
    | _ => d

/-- The FOM of a trial is known (R60, stage 7): presets of rising number are tried while it rises, the best is kept, and each step
that raises it is kept. -/
def Dev.tuneFom (d : Dev) (p l : Nat) : Dev :=
  match Tbl.get (d.port p).tune l with
  | none => d
  | some t =>
    let f := d.fld F.PHY_LANE_STATUS_FOM (4 * p + l)
    if !t.told then d
    else if t.phase = 0 then
      let rises := match t.top with
        | some m => decide (m < f)
        | none => true
      if !rises then d.tuneBest p l t
      else if t.preset < 7 then d.tuneAsk p l { t with top := some f, best := t.preset, preset := t.preset + 1 }
      else d.tuneBest p l { t with top := some f, best := t.preset }
    else if t.fom < f then d.tuneAsk p l { t with fom := f }
    else d.tuneAsk p l { t with phase := 3 }

/-! Quickset and degrade (R67 to R72). -/

/-- The step limits of Table 02-11. -/
def qsLimit (k : Nat) : Nat := [0, 4, 20, 10, 12, 10, 6].getD k 0

/-- The link layer is told that its port retrains (R71, R106). -/
def Dev.linkRetrain (d : Dev) (p : Nat) : Dev :=
  let d := (d.modLnk p fun l => { l with replay := none, sendInit := false, havePeer := false, claimed := false,
                                         bcHalf := none, fetching := false, fetched := false }).setFld
             F.LNK_STATUS_REPLAYING p 0
  if d.linkState p = 0 then d else d.setFld F.LNK_STATUS_STATE p 3

/-- Puts a port in QUICKSET at step 1 with a CMD: 1 quickset, 2 degrade. The link retrains. -/
def Dev.enterQs (d : Dev) (p cmd : Nat) : Dev :=
  let now := d.clk.edges
  let d := d.setFld F.PHY_STATUS_STATE p 5
  let d := d.modPort p fun x =>
    { x with qsStep := 1, qsCmd := cmd, qsAt := now, stageAt := now, qsAgain := false, qsWait := false, farFit := 15,
             farWidth := 0, hdrs := [] }
  let d := if cmd = 1 then d.setFit p 15 else d
  d.linkRetrain p

/-- Starts a quickset retrain of an ACTIVE port (R70), at the far end's command where that is `far`, with the width it proposes:
without saved settings the port goes DOWN; a retrain that needs lanes powered up waits for their admission (R72). -/
def Dev.quickset (d : Dev) (p : Nat) (far : Option Nat) : Dev :=
  if d.phyState p ≠ 4 then d
  else if !d.flag F.PHY_STATUS_SAVED p then d.phyDown p 0x32
  else
    let want := ((chooseLanes (d.carried p) (narrower (d.fld F.PHY_CTRL_WIDTH p) (far.getD 0))).map (·.1)).getD 0
    if (d.port p).powered ||| want != (d.port p).powered then
      d.modPort p fun x => if x.qsWait then x else { x with qsWait := true, qsFar := far.isSome }
    else (d.enterQs p 1).raise 0x0604 [p, if far.isSome then 1 else 0]

/-- A degrade that the far end commands sets DEGRADED and is recorded here too (R69, R75). -/
def Dev.degradeFar (d : Dev) (p : Nat) : Dev := ((d.setFld F.PHY_STATUS_DEGRADED p 1).raise 0x0603 [p, 1]).fault3 0x0603

/-- Starts a degrade of an ACTIVE port, or restarts one at step 1 (R69). `lane` is the failed lane at this end.
DEDUCED, unsafe (assumption 43). -/
def Dev.degrade (d : Dev) (p : Nat) (lane : Option Nat) : Dev :=
  if !d.flag F.PHY_STATUS_SAVED p then d.phyDown p 0x32
  else
    let d := d.enterQs p 2
    match lane with
    | some l => ((d.setFld F.PHY_STATUS_DEGRADED p 1).raise 0x0603 [p, l, 0]).fault3 0x0603
    | none => d.degradeFar p

/-- A data lane in service has failed (R67, R69, Table 02-12). -/
def Dev.laneFailed (d : Dev) (p l : Nat) : Dev :=
  let st := d.phyState p
  if (st = 4 ∨ st = 5) ∧ (d.fld F.PHY_STATUS_ACTIVE_LANES p).testBit l then
    let d := d.setFit p ((d.port p).fit &&& (15 - 2 ^ l))
    d.degrade p (some l)
  else d

/-- Receive lanes fit now; in a quickset or degrade a lane that is powered off is not (R61, R62). -/
def Dev.fitNow (d : Dev) (p : Nat) : Nat :=
  if d.phyState p = 5 then (d.port p).fit &&& (d.port p).powered else (d.port p).fit

/-- The lanes agreed at step 1 (R62); a width that MIN_WIDTH forbids takes the port down with WIDTH_MIN. -/
def Dev.agreeLanes (d : Dev) (p : Nat) : Dev :=
  match chooseLanes (d.fitNow p &&& (d.port p).farFit) (d.agreedWidth p) with
  | some (m, w) => if d.widthOk p w then d.useLanes p m w else d.phyDown p 0x31
  | none => d.phyDown p 0x31

/-- Moves to quickset step `k`. -/
def Dev.toQsStep (d : Dev) (p k : Nat) : Dev := d.modPort p fun x => { x with qsStep := k, stageAt := d.clk.edges }

/-- A word received on the back channel (R48); in training and in service. -/
def Dev.backchannel (d : Dev) (p : Nat) (w : BitVec 16) : Dev :=
  let st := d.phyState p
  if !(st == 4 || st == 5 || (st == 3 && decide (6 ≤ d.phyStage p))) then d
  else
    let v := w.toNat
    let l := v / 2 ^ 14
    let seq := v % 256
    match v / 2 ^ 12 % 4 with
    | 0 => d.bcRequest p l seq (v / 2 ^ 10 % 4) (v / 2 ^ 8 % 4)
    | 1 =>
      match Tbl.get (d.port p).bcOut l with
      | some o =>
        if isRequest o seq then
          let d := d.modPort p fun x => { x with bcOut := Tbl.erase x.bcOut l }
          if st = 3 then d.tuneTold p l (v / 2 ^ 8 % 16) else d
        else d
      | none => d
    | 2 => d.bcPreset p l seq (v / 2 ^ 8 % 16)
    | _ => if v / 8 % 2 = 1 then d.laneFailed p l else d

/-! Training control blocks (R61). -/

/-- CRC-8 with x^8 + x^2 + x + 1 over bits 63:8, most significant first. PRESUMED, unsafe (assumption 44). -/
def crc8 (w : BitVec 64) : Nat :=
  ((List.range 56).foldl (fun (c : BitVec 8) i =>
    if c.getLsbD 7 == w.getLsbD (63 - i) then c <<< 1 else (c <<< 1) ^^^ 7#8) 0#8).toNat

/-- The training control block that a lane sends (Table 02-8). -/
def Dev.trainingBlock (d : Dev) (p l bc : Nat) : BitVec 64 :=
  let x := d.port p
  let w := BitVec.ofNat 64 (0xB5 * 2 ^ 56 + l * 2 ^ 54 + (if d.phyState p = 5 then x.qsCmd else 0) * 2 ^ 52 +
    d.fld F.PHY_CTRL_WIDTH p % 4 * 2 ^ 50 + d.fitNow p % 16 * 2 ^ 46 + d.phyStage p * 2 ^ 42 + bc * 2 ^ 26 +
    d.fld F.PHY_STATUS_REASON p * 2 ^ 18)
  w ||| BitVec.ofNat 64 (crc8 w)

/-- A training control block is received (R61, R69). DESIGN CHOICE, unsafe (assumption 141). -/
def Dev.trainingIn (d : Dev) (p : Nat) (w : BitVec 64) : Dev :=
  if bits w 56 8 ≠ 0xB5 ∨ bits w 0 8 ≠ crc8 w then d
  else
    let cmd := bits w 52 2
    let far := bits w 46 4
    let width := bits w 50 2
    let st := d.phyState p
    let d := if st = 4 ∧ cmd = 1 then d.quickset p (some width) else if st = 4 ∧ cmd = 2 then d.degrade p none else d
    let d :=
      if d.phyState p = 5 then
        let x := d.port p
        if x.qsStep = 1 then
          let d := if x.qsCmd = 1 ∧ cmd = 2 then (d.modPort p fun x => { x with qsCmd := 2 }).degradeFar p else d
          let d := (d.modPort p fun x => { x with farFit := far, farWidth := width }).agreeLanes p
          if d.phyState p = 5 then d.toQsStep p (if x.qsAgain then 3 else 2) else d
        else if far ≠ x.farFit ∧ !x.qsAgain then
          let d := (d.modPort p fun x => { x with farFit := far, farWidth := width, qsAgain := true }).agreeLanes p
          if d.phyState p = 5 then (d.linkRetrain p).toQsStep p 3 else d
        else d
      else if d.phyState p = 3 ∧ 6 ≤ d.phyStage p then d.modPort p fun x =>
        { x with farFit := far, farWidth := width }
      else d
    d.backchannel p (BitVec.ofNat 16 (bits w 26 16))

/-! Modules (R53 to R58). -/

/-- MODULE_REMOVED: two consecutive high samples (R53). -/
def runModuleRemoved (p : Port) (s : State) : Host.Outcome State Fault Refusal :=
  s.run fun d =>
    if d.flag F.PHY_STATUS_PRESENT p.val && decide (2 ≤ (d.port p.val).highRun) then
      let d := (d.setFld F.PHY_STATUS_PRESENT p.val 0).setReg .PHY_MODULE p.val 0#32
      let d := (d.forget p.val).modPort p.val fun x => { x with dataLanes := 0, ready := false, resetAt := none,
                                                                highPower := false }
      let d := { d with pins := { d.pins with modrst := Tbl.set d.pins.modrst p.val true } }
      let d := d.phyDown p.val 0x01
      d.raise 0x0606 [p.val]
    else d

/-- MODULE_INSERTED: 25,000 consecutive low samples (R53); a port that may come up asks for power (Table 02-10). -/
def execModuleInserted (p : Port) (s : State) : Host.Outcome State Fault Refusal :=
  s.run fun d =>
    if !d.flag F.PHY_STATUS_PRESENT p.val && decide (25000 ≤ (d.port p.val).lowRun) then
      let d := (d.setFld F.PHY_STATUS_PRESENT p.val 1).modPort p.val fun x =>
        { x with resetAt := some d.clk.edges, ready := false }
      let d := { d with pins := { d.pins with modrst := Tbl.set d.pins.modrst p.val false } }
      let d := if d.phyState p.val = 1 then d.wantBringup p.val else d
      d.raise 0x0605 [p.val]
    else d

/-- MODULE_READY: ModuleReady within 3,125,000 ticks of the release of `MODRST_N` (R54). -/
def execModuleReady (p : Port) (s : State) : Host.Outcome State Fault Refusal :=
  s.run fun d =>
    match (d.port p.val).resetAt with
    | some e => if d.clk.edges ≤ e + 3125000 then d.modPort p.val fun x => { x with ready := true } else d
    | none => d

/-- MODULE_TIMEOUT: a module that is not ready in 3,125,000 ticks is refused (R54). -/
def runModuleTimeout (p : Port) (s : State) : Host.Outcome State Fault Refusal :=
  s.run fun d =>
    match (d.port p.val).resetAt with
    | some e =>
      let st := d.phyState p.val
      if !(d.port p.val).ready && decide (e + 3125000 < d.clk.edges) && !d.flag F.PHY_CFG_FIXED p.val &&
          (st == 2 || d.inStage p.val 1 || (st == 1 && d.fld F.PHY_STATUS_REASON p.val != 0x02)) then d.phyDown p.val 0x02
      else d
    | none => d

/-- Stage 1 or 2 begins: stage 2 where the identity is cached or the channel has no module (R57, R58). -/
def Dev.startBringup (d : Dev) (p : Nat) : Dev :=
  let d := ((d.setFld F.PHY_STATUS_STATE p 3).setFld F.PHY_STATUS_REASON p 0).setFld F.PHY_STATUS_REVERSED p 0
  let d := d.modPort p fun x => { x with admitted := d.clk.edges, restartAt := none, farFit := 15, farWidth := 0, powered := 15 }
  let d := (d.setFit p 15).setFld F.PHY_STATUS_LANE_FAIL p 0
  if d.flag F.PHY_CFG_FIXED p || d.flag F.PHY_MODULE_VALID p then d.toStage p 2 else d.toStage p 1

/-- Admission of a lane power-up (Table 02-10, R72). DESIGN CHOICE, unsafe (assumption 143). -/
def Dev.laneAdmitted (d : Dev) (p : Nat) : Dev :=
  if d.phyState p = 2 then
    if d.fld F.PHY_CTRL_TEST p = 0 then d.startBringup p
    else
      let d := ((d.setFld F.PHY_STATUS_STATE p 6).setFld F.PHY_STATUS_REASON p 0).modPort p fun x => { x with powered := 15 }
      let d := d.setFld F.PHY_STATUS_ACTIVE_LANES p 15
      if d.fld F.PHY_CTRL_TEST p = 3 then d.toStage p 3 else d.toStage p 2
  else if (d.port p).qsWait ∧ d.phyState p = 4 then
    let far := (d.port p).qsFar
    (d.modPort p fun x => { x with powered := 15, qsWait := false, qsFar := false }).quickset p (if far then some 0 else none)
  else d

/-- Whether a port waits for admission of a lane power-up (R59, R72). -/
def Dev.wantsPower (d : Dev) (p : Nat) : Bool := d.phyState p == 2 || ((d.port p).qsWait && d.phyState p == 4)

/-- Whether a port waits for its module master (R58). -/
def Dev.waitsRead (d : Dev) (p : Nat) : Bool := d.inStage p 1 && (d.port p).ready && !(d.port p).reading

/-- STAGE1_READ_START: a free master serves its lowest-numbered waiting port (R58). -/
def execStage1ReadStart (p : Port) (s : State) : Host.Outcome State Fault Refusal :=
  s.run fun d =>
    let mine := (List.range 8).map fun k => p.val / 8 * 8 + k
    if mine.any (fun q => (d.port q).reading) then d
    else if mine.find? d.waitsRead = some p.val then (d.selectModule p.val true).toStage p.val 1
    else d

end Sys2Proof.Machine

namespace Sys2Proof

/-- Byte `o` of page 0xB0, 128 to 255. -/
def ModuleId.at (m : ModuleId) (o : Nat) : Nat := (m.page.getD (o - 128) 0#8).toNat

/-- LENGTH, in units of 0.1 m. -/
def ModuleId.length (m : ModuleId) : Nat := m.at 136 * 256 + m.at 137

end Sys2Proof

namespace Sys2Proof.Machine

/-- Check 2 of Table 02-6: a valid Unnas page with forwarded clock. -/
def unnasOk (m : ModuleId) : Bool :=
  m.paged && m.at 128 == 0x53 && m.at 129 == 0x43 && m.at 130 == 0x4E && m.at 131 == 0x4C && m.at 132 == 1 &&
    (List.range 127).foldl (fun n i => n + m.at (128 + i)) 0 % 256 == m.at 255 && m.at 133 % 4 == 3 && m.at 134 == 1

/-- The length limit of a reach class in units of 0.1 m (Table 02-5). -/
def reachLimit (c : Nat) : Nat := [25, 500, 2500, 5000].getD c 0

/-- The number of lanes of a width code. -/
def widthLanes (w : Nat) : Nat := if w = 0 then 4 else if w = 1 then 2 else 1

/-- The checks of Table 02-6 in their order; none when the module passes. DESIGN CHOICE, unsafe (assumption 142). -/
def Dev.moduleCheck (d : Dev) (p : Nat) (m : ModuleId) : Option Nat :=
  let maxP := d.fld F.PHY_CFG_MAX_PCLASS p
  let maxP := if maxP = 0 ∨ 8 < maxP then 8 else maxP
  if !(m.readOk && m.cmis) then some 0x03
  else if !unnasOk m then some 0x04
  else if maxP < m.pclass then some 0x05
  else if 3 < m.at 138 ∨ reachLimit (m.at 138) < m.length ∨ (d.part.code = .tn ∧ 2500 < m.length) then some 0x06
  else if !(m.at 135 == 4 || ((m.at 135 == 1 || m.at 135 == 2) &&
      decide (widthLanes (d.fld F.PHY_CFG_MIN_WIDTH p) ≤ m.at 135))) then some 0x31
  else none

/-- MODULE_IDENTITY_READ: the stage-1 read completes (R56). -/
def runModuleIdentityRead (p : Port) (id : ModuleId) (s : State) : Host.Outcome State Fault Refusal :=
  s.run fun d =>
    if !(d.inStage p.val 1 && (d.port p.val).reading) then d
    else
      let d := d.selectModule p.val false
      match d.moduleCheck p.val id with
      | some r => d.phyDown p.val r
      | none =>
        let d := d.modPort p.val fun x => { x with dataLanes := id.at 135, highPower := true }
        let d := d.setReg .PHY_MODULE p.val
          (BitVec.ofNat 32 (id.length % 65536 * 2 ^ 16 + id.pclass % 16 * 2 ^ 12 + id.at 138 % 16 * 2 ^ 8 +
            id.at 133 % 8 * 2 ^ 5 + 1))
        (d.setFit p.val 15).toStage p.val 2

/-! Bring-up stages (R59, R60). -/

/-- The stage limits of Table 02-7. -/
def stageLimit (k : Nat) : Nat := [0, 1500, 750, 3125, 300, 300, 625, 11025, 625, 500].getD k 0

/-- The reason of a stage that exceeds its limit: the first that Table 02-7 gives for it. DEDUCED, unsafe (assumption 38). -/
def stageReason (k : Nat) : Nat := [0, 0x03, 0x10, 0x20, 0x21, 0x22, 0x23, 0x25, 0x27, 0x28].getD k 0

/-- BRINGUP_STAGE_TIMEOUT: a stage exceeds its limit (R59). The stage-1 limit runs from the start of the port's own read,
and stage 2 of a named port has none in ISLAND (R60). -/
def runBringupStageTimeout (p : Port) (s : State) : Host.Outcome State Fault Refusal :=
  s.run fun d =>
    let k := d.phyStage p.val
    if d.phyState p.val = 3 ∧ (d.port p.val).stageAt + stageLimit k < d.clk.edges ∧
        !(k == 1 && !(d.port p.val).reading) ∧ !(k == 2 && d.island && d.namedParent p.val) then
      let d := d.phyDown p.val (stageReason k)
      if k = 9 then d.raise 0x0707 [p.val] else d
    else d

/-- A live forwarded clock is known at port `p`. -/
def Dev.clockLive (d : Dev) (p : Nat) (on : Bool) : Dev :=
  { d with clk := { d.clk with live := d.clk.live.filter (· != p) ++ if on then [p] else [] } }

/-- CLOCK_LANE_LOCK: stage 2 has measured the forwarded clock over 16 ticks (R60); `ppb` is its offset in parts per
thousand million. -/
def runClockLaneLock (p : Port) (ppb : Nat) (s : State) : Host.Outcome State Fault Refusal :=
  s.run fun d =>
    if !(d.inStage p.val 2 && decide ((d.port p.val).stageAt + 16 ≤ d.clk.edges)) then d
    else if ppb ≤ 2000 then (d.clockLive p.val true).toStage p.val 3
    else if d.island && d.namedParent p.val then d
    else d.phyDown p.val 0x11

/-- TEST_STAGE2_MEASURE: in TEST 1 or 2, the clock is measured every 16 ticks until it fits (R64). -/
def execTestStage2Measure (p : Port) (ppb : Option Nat) (s : State) : Host.Outcome State Fault Refusal :=
  s.run fun d =>
    if !(d.phyState p.val == 6 && d.phyStage p.val == 2 && decide ((d.port p.val).stageAt + 16 ≤ d.clk.edges)) then d
    else match ppb with
      | none => (d.toStage p.val 2).setFld F.PHY_STATUS_REASON p.val 0x10
      | some x =>
        if 2000 < x then (d.toStage p.val 2).setFld F.PHY_STATUS_REASON p.val 0x11
        else ((d.clockLive p.val true).toStage p.val 3).setFld F.PHY_STATUS_REASON p.val 0

/-- The CTLE setting kept: fewest errors, then highest FOM (R60, stage 3), with its number. -/
def bestCtle (ts : List (Nat × Nat)) : Option (Nat × Nat × Nat) :=
  (ts.zipIdx).foldl (fun b t => match b with
    | none => some (t.2, t.1.1, t.1.2)
    | some (i, e, f) => if t.1.1 < e ∨ (t.1.1 = e ∧ f < t.1.2) then some (t.2, t.1.1, t.1.2) else some (i, e, f)) none

/-- Records what stage 3 found on a lane. In TEST nothing is counted before the pattern check (R64). -/
def Dev.lanePhase (d : Dev) (p l : Nat) (x : LanePhase) : Dev :=
  let i := 4 * p + l
  match bestCtle x.trials with
  | none => d
  | some (c, e, f) =>
    let d := (d.setFld F.PHY_LANE_STATUS_CTLE i c).setFld F.PHY_LANE_STATUS_FOM i (min f 255)
    let d := (d.setFld F.PHY_LANE_STATUS_PI i x.code.toNat).setFld F.PHY_LANE_STATUS_PHYS i l
    (d.setFld F.PHY_LANE_STATUS_INVERTED i 0).setReg .PHY_PRBS_ERR i
      (BitVec.ofNat 32 (if d.phyState p = 6 then 0 else min e 0xFFFFFFFF))

/-- PHASE_LOCK: stage 3 completes, and the width is chosen again (R60, R62); in TEST the pattern check follows (R64). -/
def runPhaseLock (p : Port) (lanes : List LanePhase) (s : State) : Host.Outcome State Fault Refusal :=
  s.run fun d =>
    let locked := lanes.map fun x => bestCtle x.trials
    let note := fun d => (lanes.take 4).zipIdx.foldl (fun d (x : LanePhase × Nat) => Dev.lanePhase d p.val x.2 x.1) d
    if d.phyState p.val = 6 ∧ d.phyStage p.val = 3 then (note d).toStage p.val 7
    else if !d.inStage p.val 3 then d
    else
      let d := note d
      let fit := (List.range 4).foldl (fun m l => match locked.getD l none with
        | some (_, _, f) => if d.fld F.PHY_CFG_FOM_MIN p.val ≤ f then m + 2 ^ l else m
        | none => m) 0
      if locked.all (·.isNone) then d.phyDown p.val 0x20
      else
        let d := d.setFit p.val fit
        match chooseLanes (d.port p.val).fit (d.fld F.PHY_CTRL_WIDTH p.val) with
        | some (m, w) => if d.widthOk p.val w then (d.planLanes p.val m w).toStage p.val 4 else d.phyDown p.val 0x31
        | none => d.phyDown p.val 0x31

/-- POLARITY_DETECT: stage 4 decides each fit lane's polarity from its mean level, in thousandths (R60). -/
def runPolarityDetect (p : Port) (means : List Nat) (s : State) : Host.Outcome State Fault Refusal :=
  s.run fun d =>
    if !d.inStage p.val 4 then d
    else
      let fitLanes := (List.range 4).filter fun l => (d.port p.val).fit.testBit l
      if fitLanes.any (fun l => decide (1000 ≤ means.getD l 1500 ∧ means.getD l 1500 ≤ 2000)) then d.phyDown p.val 0x21
      else (fitLanes.foldl (fun d l =>
        d.setFld F.PHY_LANE_STATUS_INVERTED (4 * p.val + l) (if means.getD l 0 < 1000 then 0 else 1)) d).toStage p.val 5

/-- The four low bits in reverse order. -/
def reverse4 (m : Nat) : Nat := m % 2 * 8 + m / 2 % 2 * 4 + m / 4 % 2 * 2 + m / 8 % 2

/-- LANE_ORDER_DETECT: stage 5 finds the identity or a reversal, which is corrected (R60). -/
def runLaneOrderDetect (p : Port) (order : List Nat) (s : State) : Host.Outcome State Fault Refusal :=
  s.run fun d =>
    if !d.inStage p.val 5 then d
    else
      let fitLanes := (List.range 4).filter fun l => (d.port p.val).fit.testBit l
      if fitLanes.all (fun l => order.getD l 4 == l) then d.toStage p.val 6
      else if fitLanes.all (fun l => order.getD l 4 == 3 - l) then
        let ws := (List.range 4).map fun l => d.rd .PHY_LANE_STATUS (4 * p.val + (3 - l))
        let es := (List.range 4).map fun l => d.rd .PHY_PRBS_ERR (4 * p.val + (3 - l))
        let d := (List.range 4).foldl (fun d l =>
          ((d.setReg .PHY_LANE_STATUS (4 * p.val + l) (ws.getD l 0#32)).setFld F.PHY_LANE_STATUS_PHYS (4 * p.val + l)
            (3 - l)).setReg .PHY_PRBS_ERR (4 * p.val + l) (es.getD l 0#32)) d
        let d := (d.setFit p.val (reverse4 (d.port p.val).fit)).setFld F.PHY_STATUS_REVERSED p.val 1
        match chooseLanes (d.port p.val).fit (d.fld F.PHY_CTRL_WIDTH p.val) with
        | some (m, w) => (d.planLanes p.val m w).toStage p.val 6
        | none => d.phyDown p.val 0x22
      else d.phyDown p.val 0x22

/-- Records block lock and the deskew of the lanes of a mask. -/
def Dev.deskew (d : Dev) (p mask : Nat) (skew : List Nat) : Dev :=
  let ls := (List.range 4).filter fun l => mask.testBit l
  let late := ls.foldl (fun m l => max m (skew.getD l 0)) 0
  ls.foldl (fun d l =>
    (d.setFld F.PHY_LANE_STATUS_BLOCK_LOCK (4 * p + l) 1).setFld F.PHY_LANE_STATUS_SKEW (4 * p + l)
      (late - skew.getD l 0)) d

/-- Whether the lanes of a mask lie within 64 UI of each other. -/
def skewOk (mask : Nat) (skew : List Nat) : Bool :=
  let ls := (List.range 4).filter fun l => mask.testBit l
  ls.all fun a => ls.all fun b => decide (skew.getD a 0 ≤ skew.getD b 0 + 64)

/-- BLOCK_LOCK_DESKEW: stage 6 locks on sync headers and aligns the lanes; stage 7 starts from the preset of the reach
class (R60). -/
def runBlockLockDeskew (p : Port) (lock : List Bool) (skew : List Nat) (s : State) :
    Host.Outcome State Fault Refusal :=
  s.run fun d =>
    if !d.inStage p.val 6 then d
    else
      let ls := (List.range 4).filter fun l => (d.port p.val).fit.testBit l
      if ls.any (fun l => !lock.getD l false) then d.phyDown p.val 0x23
      else if !skewOk (d.port p.val).fit skew then d.phyDown p.val 0x24
      else
        let d := d.deskew p.val (d.port p.val).fit skew
        let start := startPreset (d.reach p.val)
        let t : Tune := { phase := 0, preset := start, best := start, top := none, act := 0, fom := 0, told := false, doneAt := 0 }
        (ls.foldl (fun d l => d.tuneAsk p.val l t) d).toStage p.val 7

/-- The search of stage 7 has ended on a lane, and the 986.9 ticks of its PRBS31 window have passed since (R60). -/
def Dev.tuned (d : Dev) (p l : Nat) : Bool :=
  match Tbl.get (d.port p).tune l with
  | some t => t.phase == 4 && decide (t.doneAt + 987 ≤ d.clk.edges)
  | none => false

/-- PRESET_NEGOTIATION: stage 7 completes with PRBS31 verification, and the width is chosen again (R60, R62); `errors` are the
PRBS31 errors of the logical lanes. -/
def runPresetNegotiation (p : Port) (errors : List Nat) (s : State) : Host.Outcome State Fault Refusal :=
  s.run fun d =>
    let was := (List.range 4).filter fun l => (d.port p.val).fit.testBit l
    if !(d.inStage p.val 7 && was.all (d.tuned p.val)) then d
    else
      let ls := was.filter fun l => match Tbl.get (d.port p.val).tune l with
        | some t => decide (d.fld F.PHY_CFG_FOM_MIN p.val ≤ t.top.getD 0)
        | none => false
      let fit := ls.foldl (fun m l => m + 2 ^ l) 0
      let d := was.foldl (fun d l => d.setReg .PHY_PRBS_ERR (4 * p.val + l)
        (BitVec.ofNat 32 (min (errors.getD l 0) 0xFFFFFFFF))) d
      let d := (d.setFit p.val fit).modPort p.val fun x => { x with bcOut := [], bcAns := [], bcTold := [], tune := [] }
      if ls.isEmpty then d.phyDown p.val 0x25
      else if ls.any (fun l => decide (d.fld F.PHY_CFG_PRBS_LIMIT p.val < errors.getD l 0)) then
        d.phyDown p.val 0x26
      else
        match chooseLanes (fit &&& (d.port p.val).farFit) (d.agreedWidth p.val) with
        | some (m, w) => if d.widthOk p.val w then (d.useLanes p.val m w).toStage p.val 8 else d.phyDown p.val 0x31
        | none => d.phyDown p.val 0x31

/-- The link enters INIT and sends init frames (R101, Table 03-7). -/
def Dev.linkInit (d : Dev) (p : Nat) : Dev :=
  (d.modLnk p fun l => { l with havePeer := false, sendInit := true, claimed := false, resync := false }).setFld
    F.LNK_STATUS_STATE p 1

/-- The measured round trip in whole nanoseconds, rounded up, for a one-way delay in units of 10 ps. -/
def roundTrip (delay : BitVec 24) : Nat := (2 * delay.toNat + 99) / 100

/-- Records the path delay and the round trip that follows from it (R24). -/
def Dev.pathDelay (d : Dev) (p : Nat) (delay : BitVec 24) : Dev :=
  (d.setFld F.TCK_PDLY_DELAY p delay.toNat).setFld F.LNK_REPLAY_TO_RTT p (min (roundTrip delay) 65535)

/-- Link-frame lock records the path delay and sets the replay timeout from it (R60, R87). -/
def Dev.lockDelay (d : Dev) (p : Nat) (delay : BitVec 24) : Dev :=
  let rtt := roundTrip delay
  let d := d.pathDelay p delay
  if d.flag F.LNK_CFG_AUTO_TO p then d.setFld F.LNK_REPLAY_TO_TIMEOUT p (min (max 2000 (rtt + 1000)) 65535) else d

/-- LINK_FRAME_LOCK: stage 8, or quickset step 5, locks to link frames and measures the path delay. -/
def execLinkFrameLock (p : Port) (delay : BitVec 24) (s : State) : Host.Outcome State Fault Refusal :=
  s.run fun d =>
    if d.inStage p.val 8 then ((d.lockDelay p.val delay).toStage p.val 9).linkInit p.val
    else if d.phyState p.val = 5 ∧ (d.port p.val).qsStep = 5 then
      ((d.lockDelay p.val delay).toQsStep p.val 6).linkInit p.val
    else d

/-- The corrected-symbol count of a lane (R51). -/
def Dev.corrected (d : Dev) (p l : Nat) : Nat := (d.cnt 0 (4 * p + l)).toNat

/-- The first window of in-service adaptation begins on every lane in use (R50). -/
def Dev.startWindows (d : Dev) (p : Nat) : Dev :=
  let used := d.fld F.PHY_STATUS_ACTIVE_LANES p
  let ws : Tbl (Nat × Nat × Nat × Nat × Option Nat) := ((List.range 4).filter fun l => used.testBit l).map fun l =>
    (l, d.clk.edges, d.corrected p l, 0, d.fld F.PHY_LANE_STATUS_FOM (4 * p + l), none)
  d.modPort p fun x => { x with adapt := ws }

/-- The port becomes ACTIVE at the end of SLL initialisation: a full bring-up, or a quickset or degrade (Table 02-10). -/
def Dev.phyActive (d : Dev) (p : Nat) : Dev :=
  let full := d.phyState p == 3
  let d := ((d.setFld F.PHY_STATUS_STATE p 4).setFld F.PHY_STATUS_STAGE p 10).saveSettings p
  let d := (d.modPort p fun x => { x with qsStep := 0, fomLow := [], hdrs := [] }).startWindows p
  let d := { d with rte := { d.rte with installed := Tbl.erase d.rte.installed p, kept := Tbl.erase d.rte.kept p } }
  if full then
    let d := { d with rte := { d.rte with upAt := Tbl.set d.rte.upAt p d.clk.edges } }
    (d.setReg .PHY_BRINGUP_TIME p (BitVec.ofNat 32 (d.clk.edges - (d.port p).admitted))).raise 0x0601 [p]
  else d.bump F.PHY_COUNTS_QUICKSETS p 1

/-! Events in service. -/

/-- BACKCHANNEL_WORD: a back-channel word is received (R48). -/
def runBackchannelWord (p : Port) (w : BitVec 16) (s : State) : Host.Outcome State Fault Refusal :=
  s.run (·.backchannel p.val w)

/-- TRAINING_CONTROL_BLOCK: a training control block is received (R61). -/
def runTrainingControlBlock (p : Port) (w : BitVec 64) (s : State) : Host.Outcome State Fault Refusal :=
  s.run (·.trainingIn p.val w)

/-- The action code of a step: 1 raises the magnitude, 2 lowers it; PRE in bits 3:2, POST in bits 1:0. -/
def stepCode (tap up : Bool) : Nat := (if up then 1 else 2) * if tap then 4 else 1

/-- In-service adaptation of a lane (R50): the last step stands if the count did not rise, or, where both windows count
zero, if the FOM did not fall; otherwise the opposite step is requested. Which step comes next is the receiver's choice,
given by `tap` and `up`. -/
def Dev.adaptLane (d : Dev) (p l : Nat) (tap up : Bool) : Dev :=
  if !(d.phyState p == 4 && d.flag F.PHY_CFG_ADAPT p && (d.fld F.PHY_STATUS_ACTIVE_LANES p).testBit l) then d
  else match Tbl.get (d.port p).adapt l with
    | none => d
    | some (e, c0, prev, f0, step) =>
      if d.clk.edges < e + 1024 ∨ Tbl.has (d.port p).bcOut l = true then d
      else
        let cnt := d.corrected p l
        let fom := d.fld F.PHY_LANE_STATUS_FOM (4 * p + l)
        let win := cnt - c0
        let stands := if win = 0 ∧ prev = 0 then decide (f0 ≤ fom) else decide (win ≤ prev)
        let back := if stands then none else step
        let act := (back.map stepBack).getD (stepCode tap up)
        let d := (d.bcAsk p l 0 act).modPort p fun x =>
          { x with adapt := Tbl.set x.adapt l (d.clk.edges, cnt, win, fom, if back.isSome then none else some act) }
        if d.flag F.PHY_STATUS_SAVED p then d.saveSettings p else d

/-- ADAPTATION_STEP: every 1,024 ticks the last step of a lane is judged and the next requested (R50). -/
def execAdaptationStep (p : Port) (l : Fin 4) (tap up : Bool) (s : State) : Host.Outcome State Fault Refusal :=
  s.run (·.adaptLane p.val l.val tap up)

/-- PHY_FOM_LOW: the FOM has stayed below FOM_MIN/2 for 1,024 ticks in service; raised once for the lane (R52). -/
def execPhyFomLow (p : Port) (l : Fin 4) (s : State) : Host.Outcome State Fault Refusal :=
  s.run fun d =>
    if d.phyState p.val == 4 && decide (1024 ≤ Tbl.getD (d.port p.val).fomLow l.val 0) &&
        !(d.port p.val).fomRaised.contains l.val then
      (d.modPort p.val fun x => { x with fomRaised := x.fomRaised ++ [l.val] }).raise 0x0607 [p.val, l.val]
    else d

/-- AUTO_RESTART: 1,600 ticks after a failure a new bring-up begins (R63). -/
def execAutoRestart (p : Port) (s : State) : Host.Outcome State Fault Refusal :=
  s.run fun d =>
    let r := d.fld F.PHY_STATUS_REASON p.val
    match (d.port p.val).restartAt with
    | some e =>
      if d.phyState p.val = 1 ∧ d.flag F.PHY_CFG_AUTO_RESTART p.val = true ∧ r ≠ 0x30 ∧ r ≠ 0x01 ∧ r ≠ 0x13 ∧
          e + 1600 ≤ d.clk.edges then
        (d.modPort p.val fun x => { x with restartAt := none }).wantBringup p.val
      else d
    | none => d

/-- Sync headers of a lane arrive: 32 invalid ones of 1,024 that follow each other fail the lane (R67). -/
def Headers.note (h : Headers) (x : BitVec 2) : Headers :=
  let n := h.seen + 1
  let bad := (if x = 1#2 ∨ x = 2#2 then h.bad else h.bad ++ [n]).filter fun k => decide (n < k + 1024)
  { seen := n, bad := bad, failed := h.failed || decide (32 ≤ bad.length) }

/-- Whether the sync headers of a lane in service show it failed (R67). -/
def Dev.headersFail (d : Dev) (p l : Nat) : Bool := ((Tbl.get (d.port p).hdrs l).map (·.failed)).getD false

/-- DATA_LANE_FAILED: a data lane in service is failed by its sync headers, or because its phase interpolator, whose code is now
`code`, has reached the end of its range (R67, R69). DEDUCED, unsafe (assumption 124). -/
def runDataLaneFailed (p : Port) (l : Fin 4) (code : Byte) (s : State) : Host.Outcome State Fault Refusal :=
  s.run fun d =>
    let d := d.setFld F.PHY_LANE_STATUS_PI (4 * p.val + l.val) code.toNat
    if d.headersFail p.val l.val || code == 0#8 || code == 255#8 then d.laneFailed p.val l.val else d

/-- CLOCK_LANE_LOST: the clock lane is lost; from stage 3 on the port goes DOWN with CLOCK_LOST (R68). -/
def runClockLaneLost (p : Port) (s : State) : Host.Outcome State Fault Refusal :=
  s.run fun d =>
    let d := d.clockLive p.val false
    let st := d.phyState p.val
    if st = 4 ∨ st = 5 ∨ (st = 3 ∧ 3 ≤ d.phyStage p.val) then d.phyDown p.val 0x12 else d

/-- ALL_BLOCK_LOCK_LOST: every data lane loses block lock while the clock lane is good, a quickset trigger (R70). -/
def runAllBlockLockLost (p : Port) (s : State) : Host.Outcome State Fault Refusal :=
  s.run fun d =>
    if d.phyState p.val ≠ 4 then d
    else
      let d := (List.range 4).foldl (fun d l => d.setFld F.PHY_LANE_STATUS_BLOCK_LOCK (4 * p.val + l) 0) d
      d.quickset p.val none

/-- Step 3 finds the saved mapping and polarity on every lane in use (Table 02-11). -/
def Dev.matchesSaved (d : Dev) (p : Nat) (r : QsRes) : Bool :=
  let used := d.fld F.PHY_STATUS_ACTIVE_LANES p
  (List.range 4).all fun l => !used.testBit l ||
    (r.lock.getD l false && r.order.getD l 4 == l &&
      (r.inverted.getD l false == d.flag F.PHY_LANE_STATUS_INVERTED (4 * p + l))) && skewOk used r.skew

/-- Restores the saved coefficients and lane settings (Table 02-11, step 2). -/
def Dev.restoreSettings (d : Dev) (p : Nat) : Dev :=
  (d.port p).saved.zipIdx.foldl (fun d x =>
    (d.setReg .PHY_TXEQ (4 * p + x.2) x.1.1).setReg .PHY_LANE_STATUS (4 * p + x.2)
      (F.PHY_LANE_STATUS_FOM.put x.1.2 (d.fld F.PHY_LANE_STATUS_FOM (4 * p + x.2)))) d

/-- QUICKSET_STEP_COMPLETE: step 2, 3 or 4 of Table 02-11 completes. A lane found below FOM_MIN at step 4 is unfit, and steps 1
and 3 repeat once (R69, R72). -/
def runQuicksetStepComplete (p : Port) (res : QsRes) (s : State) : Host.Outcome State Fault Refusal :=
  s.run fun d =>
    if d.phyState p.val ≠ 5 then d
    else match (d.port p.val).qsStep with
      | 2 => (d.restoreSettings p.val).toQsStep p.val 3
      | 3 =>
        if d.matchesSaved p.val res then
          (d.deskew p.val (d.fld F.PHY_STATUS_ACTIVE_LANES p.val) res.skew).toQsStep p.val 4
        else d.phyDown p.val 0x32
      | 4 =>
        let used := d.fld F.PHY_STATUS_ACTIVE_LANES p.val
        let low := (List.range 4).filter fun l =>
          used.testBit l && decide (d.fld F.PHY_LANE_STATUS_FOM (4 * p.val + l) < d.fld F.PHY_CFG_FOM_MIN p.val)
        if low.isEmpty then d.toQsStep p.val 5
        else if (d.port p.val).qsAgain then d.phyDown p.val 0x32
        else
          let d := low.foldl (fun d l => d.setFit p.val ((d.port p.val).fit &&& (15 - 2 ^ l))) d
          (d.modPort p.val fun x => { x with qsAgain := true }).toQsStep p.val 1
      | _ => d

/-- QUICKSET_FAIL: a step, or the whole, exceeds its limit (Table 02-11, R69). -/
def runQuicksetFail (p : Port) (s : State) : Host.Outcome State Fault Refusal :=
  s.run fun d =>
    let x := d.port p.val
    let all := if x.qsCmd = 2 then 94 else 63
    if d.phyState p.val = 5 ∧ (x.stageAt + qsLimit x.qsStep < d.clk.edges ∨ x.qsAt + all ≤ d.clk.edges) then
      let d := d.phyDown p.val 0x32
      if x.qsStep = 6 then d.raise 0x0707 [p.val] else d
    else d

/-! Writes of `PHY_CTRL` (R64, R66, R70, R73, R74). -/

/-- A write of `PHY_CTRL` at L0; other levels are ignored. In recovery the ports stay DISABLED (R494). -/
def Dev.phyCtrlWrite (d : Dev) (src : Src) (p : Nat) (v : Word) : Dev :=
  if d.level src ≠ 0 then d
  else
    let off := 0x800000 + 0x1000 * p
    let d := d.setFld F.PHY_CTRL_WIDTH p (F.PHY_CTRL_WIDTH.ofWord v)
    let test := F.PHY_CTRL_TEST.ofWord v
    let d := if test = d.fld F.PHY_CTRL_TEST p then d
      else if d.phyState p = 0 then d.setFld F.PHY_CTRL_TEST p test else d.stateWrite src.fn off
    let d := if v.getLsbD 31 then d.forget p else d
    let was := d.flag F.PHY_CTRL_ENABLE p
    let v := if d.sec.recovery && decide (d.sec.step < 6) then v &&& ~~~1#32 else v
    let d := d.setFld F.PHY_CTRL_ENABLE p (if v.getLsbD 0 then 1 else 0)
    let d :=
      if !was && v.getLsbD 0 then
        if d.fld F.PHY_CTRL_TEST p = 0 then (d.setFld F.PHY_STATUS_STATE p 1).wantBringup p
        else d.setFld F.PHY_STATUS_STATE p 2
      else if !v.getLsbD 0 && (was || d.phyState p != 0) then d.phyDisable p
      else d
    let d :=
      if !v.getLsbD 8 then d
      else if d.phyState p = 6 then d.stateWrite src.fn off
      else if d.phyState p = 0 then d
      else d.retrain p
    if !v.getLsbD 9 then d
    else if d.phyState p = 4 then d.quickset p none
    else d.stateWrite src.fn off

/-- The present word of `PHY_CTRL` with bits set and bits cleared. -/
def Dev.phyCtrlWord (d : Dev) (p : Nat) (set clear : Word) : Word := (d.rd .PHY_CTRL p ||| set) &&& ~~~clear

/-- PHY_ENABLE: a write of ENABLE = 1 (R66). -/
def runPhyEnable (src : Src) (p : Port) (s : State) : Host.Outcome State Fault Refusal :=
  s.run fun d => d.phyCtrlWrite src p.val (d.phyCtrlWord p.val 1#32 0#32)

/-- PHY_DISABLE: a write of ENABLE = 0 (R66). -/
def runPhyDisable (src : Src) (p : Port) (s : State) : Host.Outcome State Fault Refusal :=
  s.run fun d => d.phyCtrlWrite src p.val (d.phyCtrlWord p.val 0#32 1#32)

/-- PHY_RETRAIN: a write of RETRAIN (R66). -/
def runPhyRetrain (src : Src) (p : Port) (s : State) : Host.Outcome State Fault Refusal :=
  s.run fun d => d.phyCtrlWrite src p.val (d.phyCtrlWord p.val 0x100#32 0#32)

/-- PHY_QUICKSET: a write of QUICKSET (R70). -/
def runPhyQuickset (src : Src) (p : Port) (s : State) : Host.Outcome State Fault Refusal :=
  s.run fun d => d.phyCtrlWrite src p.val (d.phyCtrlWord p.val 0x200#32 0#32)

/-- PHY_FORGET: a write of FORGET (R70). -/
def runPhyForget (src : Src) (p : Port) (s : State) : Host.Outcome State Fault Refusal :=
  s.run fun d => d.phyCtrlWrite src p.val (d.phyCtrlWord p.val 0x80000000#32 0#32)

/-- A write of `PHY_CFG` at L0; FIXED only in DOWN or DISABLED (Table 02-15). DEDUCED, unsafe (assumption 41). -/
def Dev.phyCfgWrite (d : Dev) (src : Src) (p : Nat) (v : Word) : Dev :=
  if d.level src ≠ 0 then d
  else
    let fixed := F.PHY_CFG_FIXED.ofWord v
    let was := d.fld F.PHY_CFG_FIXED p
    let ok := fixed == was || decide (d.phyState p ≤ 1)
    let adapts := d.flag F.PHY_CFG_ADAPT p
    let d := d.setReg .PHY_CFG p (Reg.merge .PHY_CFG (d.rd .PHY_CFG p) v (if ok then ~~~0#32 else ~~~F.PHY_CFG_FIXED.mask))
    let d := if !adapts && d.flag F.PHY_CFG_ADAPT p && d.phyState p == 4 then d.startWindows p else d
    if ok then d.tryBringup p else d.stateWrite src.fn (0x800004 + 0x1000 * p)

/-- A write of `PHY_TXEQ` at L0, while ADAPT is 0 or TEST is not 0; larger values are held at the limit (Table 02-18,
R46). -/
def Dev.phyTxeqWrite (d : Dev) (src : Src) (i : Nat) (v : Word) : Dev :=
  let p := i / 4
  if d.level src ≠ 0 then d
  else if d.flag F.PHY_CFG_ADAPT p && d.fld F.PHY_CTRL_TEST p == 0 then
    d.stateWrite src.fn (0x800020 + 0x1000 * p + 4 * (i % 4))
  else
    let pre := F.PHY_TXEQ_PRE.ofWord v
    let post := F.PHY_TXEQ_POST.ofWord v
    let d := d.setEq p (i % 4) (min pre 12) (min post 20)
    if 12 < pre ∨ 20 < post then d.raise 0x0608 [p, i % 4] else d

end Sys2Proof.Machine
end

