-- ==== Sys2Proof/Machine/Link.lean ====
section
/-!
DEFINITION. The link layer (R76 to R111, R537 to R539): line coding, frames, replay, credits, initialisation and the
credit audit.
-/

namespace Sys2Proof.Machine

/-! Line coding (R44, R45). -/

/-- The level of two bits, the first most significant. -/
def pamLevel (a b : Bool) : BitVec 2 :=
  match a, b with
  | false, false => 0#2
  | false, true => 1#2
  | true, true => 2#2
  | true, false => 3#2

/-- The two bits of a level. -/
def pamBits (x : BitVec 2) : List Bool :=
  match x.toNat with
  | 0 => [false, false]
  | 1 => [false, true]
  | 2 => [true, true]
  | _ => [true, false]

/-- Bits taken two at a time as levels. -/
def toLevels : List Bool → List (BitVec 2)
  | a :: b :: t => pamLevel a b :: toLevels t
  | _ => []

/-- The number whose bits are given, bit 0 first. -/
def ofBits (bs : List Bool) : Nat := bs.foldr (fun b n => 2 * n + if b then 1 else 0) 0

/-- Scrambles 64 bits, bit 0 first, with x^58 + x^39 + 1: the bits sent and the next register.
DESIGN CHOICE, unsafe (assumption 45). -/
def scramble (r : BitVec 58) (w : BitVec 64) : BitVec 64 × BitVec 58 :=
  (List.range 64).foldl (fun (o, r) i =>
    let b := (w.getLsbD i ^^ r.getLsbD 38) ^^ r.getLsbD 57
    (o ||| ((BitVec.ofBool b).setWidth 64 <<< i), (r <<< 1) ||| (BitVec.ofBool b).setWidth 58)) (0#64, r)

/-- Descrambles 64 bits. -/
def descramble (r : BitVec 58) (w : BitVec 64) : BitVec 64 × BitVec 58 :=
  (List.range 64).foldl (fun (o, r) i =>
    let c := w.getLsbD i
    let b := (c ^^ r.getLsbD 38) ^^ r.getLsbD 57
    (o ||| ((BitVec.ofBool b).setWidth 64 <<< i), (r <<< 1) ||| (BitVec.ofBool c).setWidth 58)) (0#64, r)

/-- A block: its sync header and its 64 payload bits. -/
abbrev Block := BitVec 2 × BitVec 64

/-- The levels of blocks sent on one lane, and the lane's scrambler afterwards. Sync headers are not scrambled. -/
def laneLevels (r : BitVec 58) (bs : List Block) : List (BitVec 2) × BitVec 58 :=
  bs.foldl (fun (o, r) b =>
    let x := scramble r b.2
    (o ++ toLevels ([b.1.getLsbD 1, b.1.getLsbD 0] ++ (List.range 64).map fun i => x.1.getLsbD i), x.2)) ([], r)

/-- Reads `n` blocks from a lane's levels, and the lane's descrambler afterwards. -/
def laneBlocks : Nat → List (BitVec 2) → BitVec 58 → List Block × BitVec 58
  | 0, _, r => ([], r)
  | n + 1, ls, r =>
    let bits := (ls.take 33).flatMap pamBits
    let x := descramble r (BitVec.ofNat 64 (ofBits (bits.drop 2)))
    let sync := BitVec.ofBool (bits.getD 0 false) ++ BitVec.ofBool (bits.getD 1 false)
    let rest := laneBlocks n (ls.drop 33) x.2
    ((sync, x.1) :: rest.1, rest.2)

/-- The logical lanes in use, ascending. -/
def Dev.lanes (d : Dev) (p : Nat) : List Nat :=
  (List.range 4).filter fun l => (d.fld F.PHY_STATUS_ACTIVE_LANES p).testBit l

/-- Sends the 68 blocks of a frame, striped over the lanes in use (R78). -/
def Dev.sendBlocks (d : Dev) (p : Nat) (bs : List Block) : Dev :=
  let ls := d.lanes p
  let w := ls.length
  let r := ls.zipIdx.foldl (fun (acc : List (List (BitVec 2)) × Dev) x =>
    let mine := (bs.zipIdx.filter fun b => b.2 % w == x.2).map (·.1)
    let y := laneLevels (Tbl.getD (acc.2.lnk p).scrTx x.1 0#58) mine
    (acc.1 ++ [y.1], acc.2.modLnk p fun k => { k with scrTx := Tbl.set k.scrTx x.1 y.2 })) ([], d)
  r.2.emit (.frame p r.1)

/-- Reassembles the 68 blocks of a frame from the levels of the four physical lanes: lane order and polarity are corrected
(R42), the lanes descrambled, and the blocks taken in turn (R78). -/
def Dev.readBlocks (d : Dev) (p : Nat) (phys : List (List (BitVec 2))) : List Block × Dev :=
  let ls := d.lanes p
  let w := ls.length
  let r := ls.foldl (fun (acc : List (List Block) × Dev) l =>
    let i := 4 * p + l
    let raw := phys.getD (d.fld F.PHY_LANE_STATUS_PHYS i) []
    let raw := if d.flag F.PHY_LANE_STATUS_INVERTED i then raw.map (fun x => ~~~x) else raw
    let y := laneBlocks (68 / w) raw (Tbl.getD (acc.2.lnk p).scrRx l 0#58)
    let d := acc.2.modLnk p fun k => { k with scrRx := Tbl.set k.scrRx l y.2 }
    let h := y.1.foldl (fun h b => h.note b.1) ((Tbl.get (d.port p).hdrs l).getD { seen := 0, bad := [], failed := false })
    (acc.1 ++ [y.1], if d.phyState p = 4 ∨ d.phyState p = 5 then d.modPort p fun x => { x with hdrs := Tbl.set x.hdrs l h } else d))
    ([], d)
  ((List.range 68).map fun b => (r.1.getD (b % w) []).getD (b / w) (0#2, 0#64), r.2)

/-! Forming frames (R76 to R84). -/

/-- The 256 bytes of a cell; each transmitting port computes HCRC afresh (R115). -/
def Cell.bytes (c : Cell) : List Byte := (c.pkt.stamp.bytes.drop (256 * c.idx)).take 256

/-- The 64-bit payloads of bytes (R76). -/
def bytesToBlocks : Nat → List Byte → List (BitVec 64)
  | 0, _ => []
  | n + 1, bs => BitVec.ofNat 64 (leNat (bs.take 8)) :: bytesToBlocks n (bs.drop 8)

/-- Completes a frame: block 0 with its sync header, the two slots, CRC-64 and parity (Table 03-1). -/
def frameBlocks (sync : BitVec 2) (head : BitVec 64) (a b : List Byte) : List Block :=
  let body := head :: bytesToBlocks 32 (a ++ List.replicate (256 - a.length) 0#8) ++
    bytesToBlocks 32 (b ++ List.replicate (256 - b.length) 0#8)
  let all := body ++ [crc64 body]
  (all ++ rsBlocks all).zipIdx.map fun x => (if x.2 = 0 then sync else 1#2, x.1)

/-- TM (R83): the core cycle of a boundary that fell during the sending, else the low bits of the tick number. -/
def Dev.tickMark (d : Dev) (edge : Option (Fin 34)) : Nat :=
  match edge with
  | some c => 128 + c.val
  | none => d.clk.tick.toNat % 128

/-- The BC byte of a frame with number `seq` (R84): a new word begins with each even number. -/
def Dev.bcByte (d : Dev) (p seq : Nat) : Nat × Dev :=
  if seq % 2 = 0 then
    let r := d.bcNext p
    (r.1 / 256, r.2.modLnk p fun l => { l with bcTx := r.1 })
  else ((d.lnk p).bcTx % 256, d)

/-- The link header (Table 03-2). -/
def linkHeader (seq ack : Nat) (ret : List (Nat × Nat)) (tm bc : Nat) : BitVec 64 :=
  let a := ret.getD 0 (0, 0)
  let b := ret.getD 1 (0, 0)
  BitVec.ofNat 64 (seq * 2 ^ 48 + ack * 2 ^ 32 + a.1 * 2 ^ 28 + a.2 * 2 ^ 24 + b.1 * 2 ^ 20 + b.2 * 2 ^ 16 + tm * 2 ^ 8 + bc)

/-- Sends a sequenced frame: ACK, TM and BC are current (R88, R89). -/
def Dev.sendFrame (d : Dev) (p : Nat) (f : Frame) (edge : Option (Fin 34)) : Dev :=
  let bc := d.bcByte p f.seq
  let ack := (d.fld F.LNK_SEQ_RX_NEXT p + 65535) % 65536
  let slot := fun (c : Option Cell) => match c with
    | some c => c.bytes
    | none => []
  let d := bc.2.sendBlocks p
    (frameBlocks 1#2 (linkHeader f.seq ack f.ret (d.tickMark edge) bc.1) (slot f.slotA) (slot f.slotB))
  d.modLnk p fun l => { l with lastSent := some f }

/-- Spill space in frames (R91). -/
def Dev.spillSpace (d : Dev) (p : Nat) : Nat :=
  if d.flag F.LNK_CFG_SPILL_EN p ∧ d.part.hasSpill then 512 * min 16 (d.fld F.LNK_CFG_SPILL_MAX p) else 0

/-- Whether the on-die store and the spill space are both full (R92). -/
def Dev.storeFull (d : Dev) (p : Nat) : Bool :=
  decide (512 ≤ d.fld F.LNK_STORE_ON_DIE p) && decide (d.spillSpace p ≤ d.fld F.LNK_STORE_SPILLED p)

/-- `LNK_STORE` follows the stored frames: the oldest spill to HBM, through the arbiter, while the on-die store is over full (R91,
R201), and a full
store back-pressures and is raised once in each episode (R92). -/
def Dev.lnkStoreSync (d : Dev) (p freed : Nat) : Dev :=
  let n := (d.lnk p).store.length
  let sp := d.fld F.LNK_STORE_SPILLED p - freed
  let more := n - 512 - sp
  let sp := max sp (n - 512)
  let d := (List.range more).foldl (fun (d : Dev) _ => d.request 7 p true []) d
  let d := (d.setFld F.LNK_STORE_SPILLED p sp).setFld F.LNK_STORE_ON_DIE p (n - sp)
  if d.storeFull p then
    if d.flag F.LNK_STATUS_BP p then d else (d.setFld F.LNK_STATUS_BP p 1).raise 0x0705 [p]
  else d.setFld F.LNK_STATUS_BP p 0

/-- The cells of a packet that is to be placed in frames. -/
def packetCells (x : Pkt) (direct : Bool) : List Cell :=
  (List.range x.cells).map fun i => { pkt := x, idx := i, vc := x.vc, direct := direct, voided := false }

/-- Starts a packet: its credits are charged at this first transmission (R96). -/
def Dev.startPacket (d : Dev) (p : Nat) (x : Pkt) (direct : Bool) : Option Cell × Dev :=
  let d := d.setAvail p x.vc (d.avail p x.vc - x.cells)
  let cs := packetCells x direct
  (cs.head?, d.modLnk p fun l => { l with cur := cs.tail, placedAt := Tbl.set l.placedAt x.vc d.clk.edges })

/-- Notes that the link begins to send the first packet of a staging that it has not begun to send; one that has crossed leaves
the staging. -/
def markStarted : List StPkt → List StPkt
  | [] => []
  | x :: xs =>
    if x.started then x :: markStarted xs
    else if x.q.pkt.cells ≤ x.arrived then xs else { x with started := true } :: xs

/-- The next staged packet, which may start once its first cell is in staging (R130). -/
def Dev.stagedCell (d : Dev) (p : Nat) : Option Cell × Dev :=
  match d.waiting p with
  | [] => (none, d)
  | x :: _ =>
    if 1 ≤ x.arrived ∧ (x.q.pkt.cells : Int) ≤ d.avail p x.q.pkt.vc then
      ({ d with swc := { d.swc with stage := Tbl.set d.swc.stage p (markStarted (Tbl.getD d.swc.stage p [])) } }).startPacket p
        x.q.pkt false
    else (none, d)

/-- A digest goes into a frame: it is counted, and `RTE_DIGEST_OUT` shows it (Tables 05-22 and 05-23). -/
def Dev.digestSent (d : Dev) (x : Pkt) : Dev :=
  if x.subkind = 1 then
    let d := d.count 3 4
    (d.setReg .RTE_DIGEST_OUT_LO 0 (x.h2.setWidth 32)).setReg .RTE_DIGEST_OUT_HI 0 ((x.h2 >>> 32).setWidth 32)
  else d

/-- The next cell for a slot: the packet at hand goes on; at a packet boundary direct packets go ahead of all queued
packets (R79, R153). -/
def Dev.nextCell (d : Dev) (p : Nat) : Option Cell × Dev :=
  match (d.lnk p).cur with
  | c :: rest => (some c, d.modLnk p fun l => { l with cur := rest })
  | [] =>
    match (d.lnk p).direct with
    | x :: rest =>
      if (x.cells : Int) ≤ d.avail p x.vc then ((d.modLnk p fun l => { l with direct := rest }).digestSent x).startPacket p x true
      else d.stagedCell p
    | [] => d.stagedCell p

/-- One credit return of a new frame: the next virtual channel round-robin with pending returns, up to 15 (R97).
DESIGN CHOICE, unsafe (assumption 144). -/
def Dev.takeReturn (d : Dev) (p : Nat) : Option (Nat × Nat) × Dev :=
  let l := d.lnk p
  match ((List.range 12).map fun k => (l.rr + 1 + k) % 12).find? (fun v => Tbl.getD l.pend v 0 != 0) with
  | none => (none, d)
  | some v =>
    let n := min 15 (Tbl.getD l.pend v 0)
    let d := d.modLnk p fun l => { l with pend := Tbl.set l.pend v (Tbl.getD l.pend v 0 - n), rr := v }
    (some (v, n), d.setOcc p v (d.occ p v - n))

/-- Forms and sends a new frame, which takes a number and a place in the store. -/
def Dev.sendNew (d : Dev) (p : Nat) (edge : Option (Fin 34)) : Dev :=
  let a := d.nextCell p
  let b := a.2.nextCell p
  let r1 := b.2.takeReturn p
  let r2 := r1.2.takeReturn p
  let seq := d.fld F.LNK_SEQ_TX_NEXT p
  let f : Frame := { seq := seq, slotA := a.1, slotB := b.1, ret := r1.1.toList ++ r2.1.toList }
  let d := (r2.2.modLnk p fun l => { l with store := l.store ++ [f] }).setFld F.LNK_SEQ_TX_NEXT p ((seq + 1) % 65536)
  (d.lnkStoreSync p 0).sendFrame p f edge

/-- The frame sent where no new frame may be formed and no replay frame is ready: the last one again (R89). -/
def Dev.sendFill (d : Dev) (p : Nat) (edge : Option (Fin 34)) : Dev :=
  match (d.lnk p).lastSent with
  | some f => d.sendFrame p f edge
  | none => d

/-- Sends the next frame of a running replay; frames that an ack has freed are skipped (R88), and a spilled frame is first
read back (R89, R93). -/
def Dev.sendReplay (d : Dev) (p seq : Nat) (edge : Option (Fin 34)) : Dev :=
  let l := d.lnk p
  let oldest := (l.store.head?.map (·.seq)).getD (d.fld F.LNK_SEQ_TX_NEXT p)
  let dist := fun s => (s + 65536 - oldest) % 65536
  let at_ := if dist seq < 32768 then dist seq else 0
  match l.store[at_]? with
  | none => (d.modLnk p fun l => { l with replay := none }).setFld F.LNK_STATUS_REPLAYING p 0
  | some f =>
    if at_ < d.fld F.LNK_STORE_SPILLED p ∧ l.fetched = false then
      let d := if l.fetching then d else (d.arbDrop 1 p).request 1 p true []
      (d.modLnk p fun l => { l with fetching := true, replay := some f.seq }).sendFill p edge
    else
      let last := at_ + 1 == l.store.length
      let d := d.modLnk p fun l => { l with replay := if last then none else some ((f.seq + 1) % 65536), fetched := false }
      let d := if last then d.setFld F.LNK_STATUS_REPLAYING p 0 else d
      (d.count 1 (11 * p + 7)).sendFrame p f edge

/-- The init record (Table 03-4). -/
def Dev.initRecord (d : Dev) (p : Nat) : List Byte :=
  leBytes 1 1 ++ leBytes 1 p ++ leBytes 2 (d.fld F.LNK_EPOCH_OWN p) ++ leBytes 4 (d.fld F.RTE_ID_DEVICE 0) ++
    leBytes 2 (d.fld F.LNK_SEQ_RX_NEXT p) ++ List.replicate 6 0#8 ++
    ((List.range 12).flatMap fun v => leBytes 2 (Tbl.getD (d.lnk p).advert v 0) ++ leBytes 2 (d.occ p v)) ++
    List.replicate 192 0#8

/-- SLL initialisation fails: CREDIT in a full bring-up, QUICKSET_FAIL in a quickset or degrade (R101). -/
def Dev.initFail (d : Dev) (p : Nat) : Dev :=
  (d.phyDown p (if d.phyState p = 5 then 0x32 else 0x28)).raise 0x0707 [p]

/-- The end sends its first record: it claims its reserve for the allocations that this initialisation advertises, or the
initialisation fails (R95, R123). -/
def Dev.claimOnce (d : Dev) (p : Nat) : Dev × Bool :=
  if (d.lnk p).claimed then (d, true)
  else
    let r := d.claimReserve p
    let adv : Tbl Nat := (List.range 12).map fun v => (v, d.fld F.LNK_VC_ALLOC_ALLOC (12 * p + v))
    if r.2 then (r.1.modLnk p fun l => { l with claimed := true, advert := adv }, true) else (r.1.initFail p, false)

/-- Sends an init frame (R99, Table 03-3). -/
def Dev.sendInit (d : Dev) (p : Nat) (edge : Option (Fin 34)) : Dev :=
  let c := d.claimOnce p
  if !c.2 then c.1
  else
    let r := c.1.bcNext p
    let head := BitVec.ofNat 64 (0xB6 * 2 ^ 56 + (if (d.lnk p).havePeer then 2 ^ 55 else 0) + d.tickMark edge * 2 ^ 40 +
      r.1 * 2 ^ 24)
    r.2.sendBlocks p (frameBlocks 2#2 head (r.2.initRecord p) [])

/-- `n` bits of PRBS31, x^31 + x^28 + 1, and the generator afterwards. PRESUMED, unsafe (assumption 125). -/
def prbs31Bits (n : Nat) (r : BitVec 31) : List Bool × BitVec 31 :=
  (List.range n).foldl (fun (bs, r) _ =>
    let b := r.getLsbD 30 ^^ r.getLsbD 27
    (b :: bs, (r <<< 1) ||| (BitVec.ofBool b).setWidth 31)) ([], r) |> fun x => (x.1.reverse, x.2)

/-- `n` bits of PRBS13, x^13 + x^12 + x^2 + x + 1, and the generator afterwards. -/
def prbs13Bits (n : Nat) (r : BitVec 13) : List Bool × BitVec 13 :=
  (List.range n).foldl (fun (bs, r) _ =>
    let b := ((r.getLsbD 12 ^^ r.getLsbD 11) ^^ r.getLsbD 1) ^^ r.getLsbD 0
    (b :: bs, (r <<< 1) ||| (BitVec.ofBool b).setWidth 13)) ([], r) |> fun x => (x.1.reverse, x.2)

/-- `n` bits of a lane's PRBS31, which runs on (R61). -/
def Dev.nextPrbs31 (d : Dev) (p l n : Nat) : List Bool × Dev :=
  let y := prbs31Bits n (Tbl.getD (d.port p).prbs31 l (~~~0#31))
  (y.1, d.modPort p fun x => { x with prbs31 := Tbl.set x.prbs31 l y.2 })

/-- `n` bits of a lane's PRBS13, which runs on. -/
def Dev.nextPrbs13 (d : Dev) (p l n : Nat) : List Bool × Dev :=
  let y := prbs13Bits n (Tbl.getD (d.port p).prbs13 l (~~~0#13))
  (y.1, d.modPort p fun x => { x with prbs13 := Tbl.set x.prbs13 l y.2 })

/-- The bits of `n` data blocks that carry a stream of bits, each with its sync header 01 first (R44). -/
def dataBlockBits : Nat → List Bool → List Bool
  | 0, _ => []
  | n + 1, bs => [false, true] ++ bs.take 64 ++ dataBlockBits n (bs.drop 64)

/-- The lanes of a mask, ascending. -/
def maskLanes (m : Nat) : List Nat := (List.range 4).filter fun l => m.testBit l

/-- Sends on each lane of a mask the levels that `f` gives, a link frame's time of them. -/
def Dev.sendOn (d : Dev) (p mask : Nat) (f : Dev → Nat → List (BitVec 2) × Dev) : Dev :=
  let r := (maskLanes mask).foldl (fun (acc : List (List (BitVec 2)) × Dev) l =>
    let x := f acc.2 l
    (acc.1 ++ [x.1], x.2)) ([], d)
  r.2.emit (.training p r.1)

/-- A training frame (R61): block 0 is a training control block on every lane; blocks 1 to 67 carry PRBS31, which runs on across
frames. They are not scrambled. -/
def Dev.sendTraining (d : Dev) (p : Nat) : Dev :=
  d.sendOn p (d.sentLanes p) fun e l =>
    let x := e.bcNext p
    let w := d.trainingBlock p l x.1
    let y := x.2.nextPrbs31 p l (67 * 64)
    (toLevels ([true, false] ++ ((List.range 64).map fun i => w.getLsbD i) ++ dataBlockBits 67 y.1), y.2)

/-- The polarity pattern of stage 4 and the lane identity pattern of stage 5 (R60), repeated. -/
def fixedPattern (stage l : Nat) : List (BitVec 2) :=
  let n := BitVec.ofNat 2 l
  let m := ~~~n
  if stage = 4 then (List.replicate 561 [0#2, 0#2, 0#2, 1#2]).flatten
  else ((List.replicate 141 [3#2, 3#2, 3#2, 3#2, 0#2, 0#2, 0#2, 0#2, n, n, m, m, n, n, m, m]).flatten).take 2244

/-- The pattern of a bring-up stage from 3 to 5 (Table 02-7), or of test mode (R64): 0 none, 1 PRBS31, 2 PRBS13Q, 3 that of stage 4,
4 that of stage 5. -/
def Dev.patternOf (d : Dev) (p : Nat) : Nat :=
  match d.phyState p, d.phyStage p with
  | 3, 3 => 2
  | 3, 4 => 3
  | 3, 5 => 4
  | 6, 3 => 2
  | 6, 7 => if d.fld F.PHY_CTRL_TEST p = 2 then 2 else 1
  | _, _ => 0

/-- Sends a link frame's time of the pattern on each powered lane, unscrambled (R44, Table 02-7).
DESIGN CHOICE, unsafe (assumption 126). -/
def Dev.sendPattern (d : Dev) (p : Nat) : Dev :=
  match d.patternOf p with
  | 0 => d
  | 1 => d.sendOn p (d.port p).powered fun e l => let y := e.nextPrbs31 p l 4488; (toLevels y.1, y.2)
  | 2 => d.sendOn p (d.port p).powered fun e l => let y := e.nextPrbs13 p l 4488; (toLevels y.1, y.2)
  | k => d.sendOn p (d.port p).powered fun e l => (fixedPattern (k + 1) l, e)

/-- Whether the slots taken off the link have all been accepted, so that OCC is exact. -/
def Dev.rxSettled (d : Dev) (p : Nat) : Bool :=
  (d.lnk p).slots.isEmpty && ((d.lnk p).need == 0 || decide ((d.lnk p).cells.length < (d.lnk p).need))

/-- LINK_FRAME_SEND: the port sends its next frame: a pattern, training, init, replayed, fill or new (Table 02-7, R61, R64, R76,
R88, R89, R101). -/
def runLinkFrameSend (p : Port) (edge : Option (Fin 34)) (s : State) : Host.Outcome State Fault Refusal :=
  s.run fun d =>
    let p := p.val
    let training := (d.phyState p == 3 && (d.phyStage p == 6 || d.phyStage p == 7)) ||
      (d.phyState p == 5 && decide ((d.port p).qsStep ≤ 4))
    if d.halted then d
    else if training then d.sendTraining p
    else if d.patternOf p ≠ 0 then d.sendPattern p
    else match d.linkState p with
      | 1 => if d.rxSettled p then d.sendInit p edge else d
      | 2 =>
        if (d.lnk p).sendInit then d.sendInit p edge
        else match (d.lnk p).replay with
          | some seq => d.sendReplay p seq edge
          | none => if d.storeFull p then d.sendFill p edge else d.sendNew p edge
      | _ => d

/-! Receiving (R81 to R86). -/

/-- Bits 0 to 4343 of a frame in transmission order; the eight reserved bits of block 67 are left out. -/
def frameBits (ws : List (BitVec 64)) : List Bool :=
  (ws.flatMap fun w => (List.range 64).map fun i => w.getLsbD i).take 4344

/-- The numbers of the 10-bit symbols in which two frames differ: symbol `k` holds bits 10`k` − 6 to 10`k` + 3. -/
def symbolDiff (a b : List (BitVec 64)) : List Nat :=
  let ds := ((frameBits a).zip (frameBits b)).zipIdx.filterMap fun x =>
    if x.1.1 = x.1.2 then none else some ((x.2 + 6) / 10)
  ds.eraseDups

/-- Whether 68 payloads are a codeword of R81: the parity of blocks 66 and 67 is that of blocks 0 to 65. -/
def isCodeword (ws : List (BitVec 64)) : Bool :=
  ws.length == 68 && (symbolDiff ws (ws.take 66 ++ rsBlocks (ws.take 66))).isEmpty

/-- What the decoder makes of a frame: the corrected payloads and the corrected symbols; none when no codeword lies within six
symbols of it (R81, R82). -/
def rsDecode (ws : List (BitVec 64)) : Option (List (BitVec 64) × List Nat) :=
  if isCodeword ws then some (ws, [])
  else
    let c := symbolBlocks (rsCorrect (frameSymbols ws))
    let diff := symbolDiff ws c
    if isCodeword c && decide (diff.length ≤ 6) then some (c, diff) else none

/-- The logical lanes that carried a symbol: those of the blocks its bits lie in (R51). -/
def symbolLanes (ls : List Nat) (k : Nat) : List Nat :=
  let b1 := (10 * k - 6) / 64
  let b2 := (10 * k + 3) / 64
  ([b1, b2].eraseDups.map fun b => ls.getD (b % ls.length) 0).eraseDups

/-- A received frame: sync header of block 0 and the good payloads; none where the frame is discarded (R82). Corrected
symbols are charged to their lanes. -/
def Dev.receive (d : Dev) (p : Nat) (phys : List (List (BitVec 2))) :
    Option (BitVec 2 × List (BitVec 64)) × Dev :=
  let r := d.readBlocks p phys
  let sync := (r.1.headD (0#2, 0#64)).1
  match rsDecode (r.1.map (·.2)) with
  | none => (none, (r.2.count 1 (11 * p + 1)).fault1)
  | some (ws, diff) =>
    let ls := d.lanes p
    let d := diff.foldl (fun d k => (symbolLanes ls k).foldl (fun d l => d.count 0 (4 * p + l)) d) r.2
    if crc64 (ws.take 65) = ws.getD 65 0#64 then (some (sync, ws), d.count 1 (11 * p))
    else (none, (d.count 1 (11 * p + 2)).fault1)

/-- The delay that a port's markers are corrected by, in units of 10 ps: the measured one-way delay and ASYM (R24, Table 01-12). -/
def Dev.markDelay (d : Dev) (p : Nat) : Int :=
  d.fld F.TCK_PDLY_DELAY p + 2 * (BitVec.ofNat 8 (d.fld F.TCK_PDLY_ASYM p)).toInt

/-- By how much this device's boundary falls after that of the port's far end, in units of 5 ps, from a marker that puts that
boundary in core cycle `c` of a frame (R24, R83). The frame's first symbol arrived `at_` units of 5 ps into the tick.
DEDUCED, unsafe (assumption 120). -/
def Dev.markOffset (d : Dev) (p c at_ : Nat) : Int :=
  64000 - ((at_ : Int) + 125 * c - 2 * d.markDelay p + 64000) % 128000

/-- The tick that the far end's number ought to be, by this device's count, when it sent a frame whose first symbol arrived `at_`
units of 5 ps into the tick (R15, R24). -/
def Dev.markTick (d : Dev) (p at_ : Nat) : Int :=
  d.clk.tick.toNat + ((at_ : Int) - 2 * d.markDelay p + Tbl.getD d.clk.offs p 0) / 128000

/-- A tick marker is used (R15, R24, R83). One that gives a boundary measures the offset of the boundaries. Of one that gives a
number, a number of the active parent ahead of the local one by k skips k numbers at the next boundary, and a number behind
refuses the port as a source until a marker of it is no longer behind. -/
def Dev.marker (d : Dev) (p tm at_ : Nat) : Dev :=
  if 128 ≤ tm then { d with clk := { d.clk with offs := Tbl.set d.clk.offs p (d.markOffset p (tm - 128) at_) } }
  else
    let k := ((tm - d.markTick p at_) % 128).toNat
    let told := fun (d : Dev) => (d.setFld F.TCK_STATUS_SLIP 0 1).raise 0x1305 [p]
    if k < 64 then
      let d := { d with clk := { d.clk with refused := d.clk.refused.filter (· != p) } }
      if d.fld F.TCK_PARENT_ACTIVE 0 ≠ p ∨ !d.flag F.TCK_STATUS_FABRIC 0 ∨ k = 0 ∨ d.clk.skip = k then d
      else told { d with clk := { d.clk with skip := k } }
    else if !d.flag F.TCK_STATUS_FABRIC 0 ∨ d.clk.refused.contains p then d
    else told { d with clk := { d.clk with refused := d.clk.refused ++ [p] } }

/-- A half of a back-channel word (R84). -/
def Dev.bcHalfIn (d : Dev) (p seq : Nat) (b : Byte) : Dev :=
  let half := (d.lnk p).bcHalf
  if seq % 2 = 0 then d.modLnk p fun l => { l with bcHalf := some (seq, b) }
  else
    let d := d.modLnk p fun l => { l with bcHalf := none }
    match half with
    | some (s, hi) => if s + 1 = seq then d.backchannel p (hi ++ b) else d
    | none => d

/-- The number of the oldest stored frame, or the next to be sent (R86). -/
def Dev.oldestSeq (d : Dev) (p : Nat) : Nat := ((d.lnk p).store.head?.map (·.seq)).getD (d.fld F.LNK_SEQ_TX_NEXT p)

/-- Frees the `n` oldest stored frames. -/
def Dev.freeFrames (d : Dev) (p n : Nat) : Dev :=
  if n = 0 then d
  else
    let old := (d.lnk p).replay
    let gone := ((d.lnk p).store.take n).map (·.seq)
    let d := (d.modLnk p fun l => { l with store := l.store.drop n, replays := 0 }).lnkStoreSync p n
    if old.any gone.contains then d.modLnk p fun l => { l with fetched := false, fetching := false } else d

/-- An ACK (R86). -/
def Dev.ackIn (d : Dev) (p ack : Nat) : Dev :=
  let old := d.oldestSeq p
  let n := (d.lnk p).store.length
  let k := (ack + 65536 - old) % 65536
  if k < n then d.freeFrames p (k + 1) else if k = 65535 then d else d.count 1 (11 * p + 5)

/-- A cell slot of an accepted frame goes to the switch core (R85). DEDUCED, unsafe (assumption 46). -/
def Dev.slotIn (d : Dev) (p : Nat) (bs : List Byte) : Dev :=
  let l := d.lnk p
  let d := d.modLnk p fun l => { l with slots := l.slots ++ [bs] }
  if l.cells.isEmpty then d else d.gather p

/-- The bytes of blocks `a` to `a` + 31. -/
def slotBytes (ws : List (BitVec 64)) (a : Nat) : List Byte := ((ws.drop a).take 32).flatMap fun w => leBytes 8 w.toNat

/-- A credit return of an accepted frame (R97); channels 12 to 15 are ignored. -/
def Dev.creditIn (d : Dev) (p v n : Nat) : Dev := if v < 12 then d.setAvail p v (d.avail p v + n) else d

/-- A good sequenced frame (R85). -/
def Dev.frameIn (d : Dev) (p : Nat) (ws : List (BitVec 64)) (at_ : Nat) : Dev :=
  let h := ws.headD 0#64
  let seq := bits h 48 16
  let d := d.modLnk p fun l => { l with sendInit := false }
  let d := d.marker p (bits h 8 8) at_
  let d := d.bcHalfIn p seq (BitVec.ofNat 8 (bits h 0 8))
  let d := d.ackIn p (bits h 32 16)
  let next := d.fld F.LNK_SEQ_RX_NEXT p
  let k := (seq + 65536 - next) % 65536
  if k = 0 then
    let d := d.setFld F.LNK_SEQ_RX_NEXT p ((next + 1) % 65536)
    let d := (d.creditIn p (bits h 28 4) (bits h 24 4)).creditIn p (bits h 20 4) (bits h 16 4)
    (d.slotIn p (slotBytes ws 1)).slotIn p (slotBytes ws 33)
  else if k < 32768 then (d.count 1 (11 * p + 4)).fault1
  else d.count 1 (11 * p + 3)

/-- What kind of frame block 0 announces (R99): 0 init, 1 training, 2 as the receiver's state expects. -/
def frameKind (sync : BitVec 2) (h : BitVec 64) : Nat :=
  if sync = 2#2 ∧ bits h 56 8 = 0xB6 then 0
  else if sync = 2#2 ∧ bits h 56 8 = 0xB5 ∧ bits h 0 8 = crc8 h then 1
  else 2

/-- LINK_FRAME_RECEIVED: a frame other than an init frame arrives while the link is ACTIVE (R82, R85). -/
def runLinkFrameReceived (p : Port) (lanes : List (List (BitVec 2))) (cyc : Fin 1025)
    (frac : Fin 125) (s : State) : Host.Outcome State Fault Refusal :=
  s.run fun d =>
    if d.linkState p.val ≠ 2 then d
    else match d.receive p.val lanes with
      | (none, d) => d
      | (some (sync, ws), d') => if frameKind sync (ws.headD 0#64) = 2 then d'.frameIn p.val ws (125 * cyc.val + frac.val) else d

/-- REPLAY_TIMEOUT: `ns` since the oldest stored frame was last sent exceeds TIMEOUT (R87, R90). -/
def runReplayTimeout (p : Port) (ns : Nat) (s : State) : Host.Outcome State Fault Refusal :=
  s.run fun d =>
    let p := p.val
    if d.linkState p = 2 ∧ d.fld F.LNK_REPLAY_TO_TIMEOUT p < ns ∧ (d.lnk p).store ≠ [] then
      let n := (d.lnk p).replays + 1
      let most := max 1 (d.fld F.LNK_CFG_REPLAY_MAX p)
      let d := d.modLnk p fun l => { l with replay := some (d.oldestSeq p), fetched := false, fetching := false,
                                            replays := if n < most then n else 0 }
      let d := ((d.setFld F.LNK_STATUS_REPLAYING p 1).count 1 (11 * p + 6)).raise 0x0701 [p]
      let d := d.fault1
      if n < most then d else (d.raise 0x0702 [p]).quickset p none
    else d

/-- SPILL_FETCH_DONE: a spilled frame is read back; an uncorrectable error increments the own epoch and forces a full
retrain (R93). The arbiter must have issued the read, and the writes of the port's frames before it (R201, R202). -/
def runSpillFetchDone (p : Port) (ok : Bool) (s : State) : Host.Outcome State Fault Refusal :=
  s.run fun d =>
    let p := p.val
    if (d.lnk p).fetching && !d.arbWaits 1 p && !d.arbWaits 7 p then
      let d := d.modLnk p fun l => { l with fetching := false, fetched := ok }
      if ok then d
      else ((d.setFld F.LNK_EPOCH_OWN p (d.fld F.LNK_EPOCH_OWN p + 1)).retrain p).fault3 0x0602
    else d

/-! Initialisation (R99 to R103). -/

/-- A little-endian field of the init record. -/
def recField (r : List Byte) (o n : Nat) : Nat := leNat ((r.drop o).take n)

/-- Checks 1 and 2 of Table 03-5. -/
def initRecordOk (r : List Byte) : Bool :=
  recField r 0 1 == 1 && (List.range 12).all fun v =>
    let a := recField r (16 + 4 * v) 2
    decide (9 ≤ a) || (a == 0 && decide (v < 9))

/-- Whether the session continues (R102). -/
def Dev.continues (d : Dev) (p : Nat) (r : List Byte) : Bool :=
  (d.lnk p).session ==
    some (recField r 4 4 % 2 ^ 17, recField r 1 1, recField r 2 2, d.fld F.LNK_EPOCH_OWN p)

/-- A packet of which only a part arrived in a session that has ended leaves the buffer. -/
def Dev.dropPartial (d : Dev) (p : Nat) : Dev :=
  let l := d.lnk p
  if l.cells.isEmpty then d
  else
    let x := parsePkt (l.cells.headD [])
    let w := d.swc
    let used := Tbl.getD w.resUsed p 0 - l.need
    let d := ({ d with swc := { w with resUsed := Tbl.set w.resUsed p used } }).setFld F.SWC_OCC_CELLS p
      (d.fld F.SWC_OCC_CELLS p - l.need)
    let d := (d.bufSync p).shrinkReserve p
    (d.returnCredit p x.vc l.cells.length).modLnk p fun l => { l with cells := [], need := 0, bad := 0 }

/-- The cells of a virtual channel in stored frames (Table 03-6). -/
def LinkPort.outstanding (l : LinkPort) (v : Nat) : Nat :=
  ((l.store.flatMap fun f => f.slotA.toList ++ f.slotB.toList).filter fun c => c.vc == v).length

/-- Completion of SLL initialisation (Table 03-6). DEDUCED, unsafe (assumption 47). -/
def Dev.initDone (d : Dev) (p : Nat) (r : List Byte) (cont peerHas : Bool) : Dev :=
  let d := (List.range 12).foldl (fun d v => d.setOcc p v (d.occ p v - Tbl.getD (d.lnk p).pend v 0)) d
  let d := d.modLnk p fun l => { l with pend := [] }
  let d :=
    if cont then
      let k := (recField r 8 2 + 65536 - d.oldestSeq p) % 65536
      let d := d.freeFrames p k
      let again := (d.lnk p).store ≠ []
      let d := (d.modLnk p fun l => { l with replay := if again then some (d.oldestSeq p) else none, replays := 0 }).setFld
        F.LNK_STATUS_REPLAYING p (if again then 1 else 0)
      if again then d.raise 0x0701 [p] else d
    else
      let d := (d.discardHeld p (d.flag F.LNK_STATUS_HELD p)).dropPartial p
      let d := ((d.setFld F.LNK_SEQ_TX_NEXT p 0).setFld F.LNK_SEQ_RX_NEXT p 0).setFld F.LNK_STATUS_PEER_CHANGED p 1
      d.raise 0x0706 [p]
  let d := (List.range 12).foldl (fun d v =>
    let alloc := recField r (16 + 4 * v) 2
    let occ := recField r (18 + 4 * v) 2
    (d.setFld F.LNK_VC_PEER_ALLOC (12 * p + v) alloc).setAvail p v
      ((alloc : Int) - occ - ((d.lnk p).outstanding v : Int))) d
  let dev := recField r 4 4 % 2 ^ 17
  let d := ((d.setFld F.LNK_PEER_VALID p 1).setFld F.LNK_PEER_PORT p (recField r 1 1)).setFld F.LNK_PEER_DEVICE p dev
  let d := d.setFld F.LNK_EPOCH_PEER p (recField r 2 2)
  let own := d.fld F.LNK_EPOCH_OWN p
  let d := d.modLnk p fun l =>
    { l with session := some (dev, recField r 1 1, recField r 2 2, own), havePeer := true, sendInit := !peerHas,
             activeAt := d.clk.edges, episodes := [], bcHalf := none, resync := false }
  let d := (d.setFld F.LNK_STATUS_STATE p 2).setFld F.LNK_STATUS_HELD p 0
  (d.lnkStoreSync p 0).phyActive p

/-- A good init frame (R101). -/
def Dev.initIn (d : Dev) (p : Nat) (ws : List (BitVec 64)) (at_ : Nat) : Dev :=
  let h := ws.headD 0#64
  let peerHas := h.getLsbD 55
  let d := (d.marker p (bits h 40 8) at_).backchannel p (BitVec.ofNat 16 (bits h 24 16))
  if d.linkState p = 2 then if peerHas then d.modLnk p fun l => { l with sendInit := false } else d
  else
    let r := slotBytes ws 1
    if !initRecordOk r then d.initFail p
    else
      let cont := d.continues p r
      let old := d.oldestSeq p
      if cont ∧ (d.lnk p).store.length < (recField r 8 2 + 65536 - old) % 65536 then
        (d.setFld F.LNK_EPOCH_OWN p (d.fld F.LNK_EPOCH_OWN p + 1)).initFail p
      else
        let c := d.claimOnce p
        if c.2 then c.1.initDone p r cont peerHas else c.1

/-- INIT_FRAME_RECEIVED: an init frame arrives in INIT, or in ACTIVE while the peer may still lack this end's record
(R99, R101). -/
def runInitFrameReceived (p : Port) (lanes : List (List (BitVec 2))) (cyc : Fin 1025)
    (frac : Fin 125) (s : State) : Host.Outcome State Fault Refusal :=
  s.run fun d =>
    let st := d.linkState p.val
    if !(st == 2 || (st == 1 && d.rxSettled p.val)) then d
    else match d.receive p.val lanes with
      | (none, d) => d
      | (some (sync, ws), d') =>
        let k := frameKind sync (ws.headD 0#64)
        if k = 0 ∨ (k = 2 ∧ st = 1) then d'.initIn p.val ws (125 * cyc.val + frac.val) else if st = 1 then d' else d

/-! The credit audit (R105, R537, R538). -/

/-- Whether the last boundary reached or passed a multiple of 1,024 (R537). -/
def Dev.windowEdge (d : Dev) : Bool := d.clk.tick.toNat / 1024 != d.clk.prev.toNat / 1024

/-- Whether a virtual channel is quiet at an edge (R105): throughout the 64 ticks before it the link was ACTIVE and the channel
placed no packet. -/
def Dev.quiet (d : Dev) (p v : Nat) : Bool :=
  d.linkState p == 2 && decide ((d.lnk p).activeAt + 65 ≤ d.clk.edges) && match Tbl.get (d.lnk p).placedAt v with
    | none => true
    | some e => decide (e + 65 ≤ d.clk.edges)

/-- Takes a latched outstanding count, by 12 × port + virtual channel, into the estimate of the window at hand. -/
def Dev.takeLatch (d : Dev) (x : Nat × Nat) : Dev :=
  d.modLnk (x.1 / 12) fun l => { l with auditMin := Tbl.set l.auditMin (x.1 % 12) (min (Tbl.getD l.auditMin (x.1 % 12) x.2) x.2) }

/-- The credit audit of an edge (R105, R537): latches that the tick before left over come first, an edge that ends a window begins
the next, and the outstanding count of each quiet channel is latched and taken into the estimate; those in `late` are left over
(R30). DEDUCED, unsafe (assumption 48). -/
def Dev.auditLatch (d : Dev) (late : List Nat) : Dev :=
  let d := d.clk.late.audit.foldl Dev.takeLatch d
  let d := if d.windowEdge then
      (List.range 128).foldl (fun (d : Dev) p => d.modLnk p fun l => { l with auditEnd := l.auditMin, auditMin := [] }) d
    else d
  let now := ((List.range 1536).filter fun i => d.quiet (i / 12) (i % 12)).map fun i =>
    (i, ((d.fld F.LNK_VC_PEER_ALLOC i : Int) - d.avail (i / 12) (i % 12)).toNat)
  let d := { d with clk := { d.clk with late := { d.clk.late with audit := now.filter fun x => late.contains x.1 } } }
  (now.filter fun x => !late.contains x.1).foldl Dev.takeLatch d

/-- The end of an audit window for one virtual channel (R537, R538). -/
def Dev.auditVc (d : Dev) (p v : Nat) : Dev :=
  match Tbl.get (d.lnk p).auditEnd v with
  | none => d
  | some est =>
    let d := d.setFld F.LNK_VC_PEER_DEFICIT (12 * p + v) (min est 65535)
    let most := d.fld F.LNK_CFG_DEFICIT_MAX p
    if most ≠ 0 ∧ most < est then
      if (d.lnk p).episodes.contains v then d
      else
        let d := (d.modLnk p fun l => { l with episodes := l.episodes ++ [v] }).raise 0x0704 [p, v]
        if d.flag F.LNK_CFG_AUTO_QS p ∧ d.linkState p = 2 then (d.raise 0x0702 [p]).quickset p none else d
    else if est ≤ most then d.modLnk p fun l => { l with episodes := l.episodes.filter (· != v) }
    else d

/-- AUDIT_WINDOW_END: a window ends at an edge that reaches or passes a multiple of 1,024 (R537). -/
def runAuditWindowEnd (p : Port) (s : State) : Host.Outcome State Fault Refusal :=
  s.run fun d =>
    let p := p.val
    if d.windowEdge && (d.lnk p).auditAt != some d.clk.edges then
      let d := (List.range 12).foldl (fun d v => d.auditVc p v) d
      d.modLnk p fun l => { l with auditEnd := [], auditAt := some d.clk.edges }
    else d

/-- A write of FLUSH at L0 (R109). -/
def Dev.flush (d : Dev) (src : Src) (p : Nat) : Dev :=
  if d.level src ≠ 0 then d
  else if d.linkState p ≠ 0 then d.stateWrite src.fn (0x900000 + 0x200 * p)
  else
    let d := (d.discardHeld p true).setFld F.LNK_STATUS_BP p 0
    (d.setFld F.LNK_EPOCH_OWN p (d.fld F.LNK_EPOCH_OWN p + 1)).raise 0x0708 [p]

/-- LNK_FLUSH: a write of FLUSH (R109). -/
def execLnkFlush (src : Src) (p : Port) (s : State) : Host.Outcome State Fault Refusal := s.run (·.flush src p.val)

end Sys2Proof.Machine
end

