-- ==== Sys2Proof/Machine/PortRows.lean ====
section
/-!
DEFINITION. The port commands that can take a port DOWN: their effect on the lanes and the link stands in `Phy` and `Link`,
and groups whose tree port went DOWN fail in the same command (R315).
-/

namespace Sys2Proof.Machine

/-- AUDIT_WINDOW_END, with its effect on collective groups. -/
def execAuditWindowEnd (p : Port) (s : State) : Host.Outcome State Fault Refusal :=
  afterDown (runAuditWindowEnd p s)

/-- LINK_FRAME_SEND, with its effect on collective groups. -/
def execLinkFrameSend (p : Port) (edge : Option (Fin 34)) (s : State) : Host.Outcome State Fault Refusal :=
  afterDown (runLinkFrameSend p edge s)

/-- REPLAY_TIMEOUT, with its effect on collective groups. -/
def execReplayTimeout (p : Port) (ns : Nat) (s : State) : Host.Outcome State Fault Refusal :=
  afterDown (runReplayTimeout p ns s)

/-- SPILL_FETCH_DONE, with its effect on collective groups. -/
def execSpillFetchDone (p : Port) (ok : Bool) (s : State) : Host.Outcome State Fault Refusal :=
  afterDown (runSpillFetchDone p ok s)

/-- LINK_FRAME_RECEIVED, with its effect on collective groups. DEDUCED, unsafe (assumption 49). -/
def execLinkFrameReceived (p : Port) (lanes : List (List (BitVec 2))) (cyc : Fin 1025)
    (frac : Fin 125) (s : State) : Host.Outcome State Fault Refusal :=
  afterDown (runLinkFrameReceived p lanes cyc frac s)

/-- INIT_FRAME_RECEIVED, with its effect on collective groups. -/
def execInitFrameReceived (p : Port) (lanes : List (List (BitVec 2))) (cyc : Fin 1025)
    (frac : Fin 125) (s : State) : Host.Outcome State Fault Refusal :=
  afterDown (runInitFrameReceived p lanes cyc frac s)

/-- ALL_BLOCK_LOCK_LOST, with its effect on collective groups. -/
def execAllBlockLockLost (p : Port) (s : State) : Host.Outcome State Fault Refusal :=
  afterDown (runAllBlockLockLost p s)

/-- BLOCK_LOCK_DESKEW, with its effect on collective groups. -/
def execBlockLockDeskew (p : Port) (lock : List Bool) (skew : List Nat)
    (s : State) : Host.Outcome State Fault Refusal :=
  afterDown (runBlockLockDeskew p lock skew s)

/-- BRINGUP_STAGE_TIMEOUT, with its effect on collective groups. -/
def execBringupStageTimeout (p : Port) (s : State) : Host.Outcome State Fault Refusal :=
  afterDown (runBringupStageTimeout p s)

/-- CLOCK_LANE_LOCK, with its effect on collective groups. -/
def execClockLaneLock (p : Port) (ppb : Nat) (s : State) : Host.Outcome State Fault Refusal :=
  afterDown (runClockLaneLock p ppb s)

/-- CLOCK_LANE_LOST, with its effect on collective groups. -/
def execClockLaneLost (p : Port) (s : State) : Host.Outcome State Fault Refusal :=
  afterDown (runClockLaneLost p s)

/-- LANE_ORDER_DETECT, with its effect on collective groups. -/
def execLaneOrderDetect (p : Port) (order : List Nat) (s : State) : Host.Outcome State Fault Refusal :=
  afterDown (runLaneOrderDetect p order s)

/-- MODULE_IDENTITY_READ, with its effect on collective groups. -/
def execModuleIdentityRead (p : Port) (id : ModuleId) (s : State) : Host.Outcome State Fault Refusal :=
  afterDown (runModuleIdentityRead p id s)

/-- MODULE_REMOVED, with its effect on collective groups. -/
def execModuleRemoved (p : Port) (s : State) : Host.Outcome State Fault Refusal :=
  afterDown (runModuleRemoved p s)

/-- MODULE_TIMEOUT, with its effect on collective groups. -/
def execModuleTimeout (p : Port) (s : State) : Host.Outcome State Fault Refusal :=
  afterDown (runModuleTimeout p s)

/-- PHASE_LOCK, with its effect on collective groups. -/
def execPhaseLock (p : Port) (lanes : List LanePhase) (s : State) : Host.Outcome State Fault Refusal :=
  afterDown (runPhaseLock p lanes s)

/-- PHY_DISABLE, with its effect on collective groups. -/
def execPhyDisable (src : Src) (p : Port) (s : State) : Host.Outcome State Fault Refusal :=
  afterDown (runPhyDisable src p s)

/-- PHY_ENABLE, with its effect on collective groups. -/
def execPhyEnable (src : Src) (p : Port) (s : State) : Host.Outcome State Fault Refusal :=
  afterDown (runPhyEnable src p s)

/-- PHY_FORGET, with its effect on collective groups. -/
def execPhyForget (src : Src) (p : Port) (s : State) : Host.Outcome State Fault Refusal :=
  afterDown (runPhyForget src p s)

/-- PHY_QUICKSET, with its effect on collective groups. -/
def execPhyQuickset (src : Src) (p : Port) (s : State) : Host.Outcome State Fault Refusal :=
  afterDown (runPhyQuickset src p s)

/-- PHY_RETRAIN, with its effect on collective groups. -/
def execPhyRetrain (src : Src) (p : Port) (s : State) : Host.Outcome State Fault Refusal :=
  afterDown (runPhyRetrain src p s)

/-- POLARITY_DETECT, with its effect on collective groups. -/
def execPolarityDetect (p : Port) (means : List Nat) (s : State) : Host.Outcome State Fault Refusal :=
  afterDown (runPolarityDetect p means s)

/-- PRESET_NEGOTIATION, with its effect on collective groups. -/
def execPresetNegotiation (p : Port) (errors : List Nat) (s : State) : Host.Outcome State Fault Refusal :=
  afterDown (runPresetNegotiation p errors s)

/-- QUICKSET_FAIL, with its effect on collective groups. -/
def execQuicksetFail (p : Port) (s : State) : Host.Outcome State Fault Refusal :=
  afterDown (runQuicksetFail p s)

/-- QUICKSET_STEP_COMPLETE, with its effect on collective groups. -/
def execQuicksetStepComplete (p : Port) (res : QsRes) (s : State) : Host.Outcome State Fault Refusal :=
  afterDown (runQuicksetStepComplete p res s)

/-- BACKCHANNEL_WORD, with its effect on collective groups. -/
def execBackchannelWord (p : Port) (w : BitVec 16) (s : State) : Host.Outcome State Fault Refusal :=
  afterDown (runBackchannelWord p w s)

/-- TRAINING_CONTROL_BLOCK, with its effect on collective groups. -/
def execTrainingControlBlock (p : Port) (w : BitVec 64) (s : State) : Host.Outcome State Fault Refusal :=
  afterDown (runTrainingControlBlock p w s)

/-- DATA_LANE_FAILED, with its effect on collective groups. -/
def execDataLaneFailed (p : Port) (x : LanePi) (s : State) : Host.Outcome State Fault Refusal :=
  afterDown (runDataLaneFailed p x.lane x.code s)

end Sys2Proof.Machine
end

