-- ==== Sys2Proof/Machine/Eng.lean ====
section
/-!
DEFINITION. The commands that report engine faults and resets (R405 to R411), and those that move hedgerows between their states
(R420 to R422).
-/

namespace Sys2Proof.Machine

/-! Faults and resets (R405, R408, R409). -/

/-- Cycles of a hedgerow's clock in a tick: 1,024 at 1.6 GHz, 768 at 1.2 GHz (R421). -/
def Dev.hrCycles (d : Dev) (h : Nat) : Nat := if d.fld F.PWR_HR_STATE h = 2 then 1024 else 768

/-- At an edge, the cycles of the tick that ended count for every dispatch that runs, and ENG_CNT_BUSY counts it (R405). -/
def Dev.engEdge (d : Dev) : Dev :=
  let run := d.eng.running.map fun (y : Nat × Item × Nat) => (y.1, y.2.1, y.2.2 + d.hrCycles (y.1 / 16))
  ({ d with eng := { d.eng with running := run } }).count 12 4 d.eng.running.length

/-- DISPATCH_WATCHDOG: a dispatch has run for CYCLE_MAX × 1,024 cycles of its hedgerow's clock (R405). It may have begun with its
first tick, and the tick at hand may be over. -/
def execDispatchWatchdog (e : Fin 1024) (s : State) : Host.Outcome State Fault Refusal :=
  s.run fun d =>
    match Tbl.get d.eng.running e.val with
    | none => d
    | some (_, n) =>
      if 1024 * max 1 (d.fld F.ENG_CFG_CYCLE_MAX 0) < n + d.hrCycles (e.val / 16) then d.engFault e.val 1 else d

/-- ENG_FAULT: an engine faults with a cause of Table 14-1; 0 is a corrected error of its local memory, which does not stop it
(R406). -/
def execEngFault (e : Fin 1024) (cause : Fin 7) (s : State) : Host.Outcome State Fault Refusal :=
  s.run fun d => if cause.val = 0 then d.fault1 else d.engFault e.val cause.val

/-- ENGINE_RESET_DONE: local memory is clear, and the engine takes work again (R409). -/
def execEngineResetDone (e : Fin 1024) (s : State) : Host.Outcome State Fault Refusal :=
  s.run fun d =>
    if d.eng.resets.contains e.val then
      (({ d with eng := { d.eng with resets := d.eng.resets.filter (· != e.val) } }).lmClear e.val).count 12 3
    else d

/-- HANDLER_TIMER: a timer that a handler of an enabled package has set expires, and a work item is queued (R403).
DEDUCED, unsafe (assumption 96). -/
def execHandlerTimer (k : Fin 6) (s : State) : Host.Outcome State Fault Refusal :=
  s.run fun d =>
    if d.pkgState k.val ≠ 2 then d
    else (d.addItem { slot := k.val, src := 2, a := 0, b := 0, ready := true, waited := false }).getD d

/-! Hedgerow states (R421, R422). -/

/-- Whether a hedgerow serves an ACTIVE matching context or stands in the mask of an enabled package (R422). -/
def Dev.hrNeeded (d : Dev) (h : Nat) : Bool :=
  d.mte.ctxs.any (fun c => c.1 % 64 == h && d.mctxState c.1 == 1) ||
    (List.range 6).any fun k => decide (2 ≤ d.pkgState k) && d.pkgHas k h

/-- RAMP_DONE: after 8 ticks in RAMP the hedgerow enters F16 (R421). -/
def execRampDone (h : Hedge) (s : State) : Host.Outcome State Fault Refusal :=
  s.run fun d =>
    let h := h.val
    if d.fld F.PWR_HR_STATE h = 3 ∧ Tbl.getD d.pwr.ramp h 0 + 8 ≤ d.clk.edges then
      ({ d with pwr := { d.pwr with ramp := Tbl.erase d.pwr.ramp h } }).setFld F.PWR_HR_STATE h 2
    else d

/-- HEDGEROW_WAKE: a parked hedgerow that is wanted runs at F12 (R422). -/
def execHedgerowWake (h : Hedge) (s : State) : Host.Outcome State Fault Refusal :=
  s.run fun d =>
    let h := h.val
    if (Tbl.get d.pwr.wake h).isSome then
      let d := { d with pwr := { d.pwr with wake := Tbl.erase d.pwr.wake h, idle := Tbl.erase d.pwr.idle h } }
      if d.fld F.PWR_HR_STATE h = 0 then d.setFld F.PWR_HR_STATE h 1 else d
    else d

/-- A write of `PWR_HR[h]` at L0: MAX_STATE is stored; FORCE_PARK is refused where the hedgerow is needed, parks it at the next
edge, or, cleared, wakes it. -/
def Dev.pwrHrWrite (d : Dev) (src : Src) (h : Nat) (v : Word) : Dev :=
  if d.level src ≠ 0 then d
  else
    let d := d.setFld F.PWR_HR_MAX_STATE h (F.PWR_HR_MAX_STATE.ofWord v)
    if F.PWR_HR_FORCE_PARK.ofWord v = 1 then
      if d.hrNeeded h then d.stateWrite src.fn (Reg.addr .PWR_HR h)
      else
        let d := d.setFld F.PWR_HR_FORCE_PARK h 1
        { d with pwr := { d.pwr with force := h :: d.pwr.force.filter (· != h) } }
    else
      let was := d.flag F.PWR_HR_FORCE_PARK h
      let d := d.setFld F.PWR_HR_FORCE_PARK h 0
      let d := { d with pwr := { d.pwr with force := d.pwr.force.filter (· != h) } }
      if was then d.wake h else d

/-- FORCE_PARK: a write that sets FORCE_PARK (R422). -/
def execForcePark (src : Src) (h : Hedge) (s : State) : Host.Outcome State Fault Refusal :=
  s.run fun d => d.pwrHrWrite src h.val (d.rd .PWR_HR h.val ||| F.PWR_HR_FORCE_PARK.mask)

/-- Topiary admits one lane power-up of a port, on its port die (R59, R72). -/
def runLanePowerAdmitted (p : Port) (s : State) : Host.Outcome State Fault Refusal :=
  s.run fun d =>
    if d.wantsPower p.val then
      match d.spendOn (1 + p.val / 16) 2 (d.fld F.PWR_COST_COST 2) with
      | some d => d.laneAdmitted p.val
      | none => d
    else d

/-- LANE_POWER_ADMITTED. -/
def execLanePowerAdmitted (p : Port) (s : State) : Host.Outcome State Fault Refusal := afterDown (runLanePowerAdmitted p s)

/-- REGION_FLOOR_RELEASE: the supply difference has stayed below 120 mV for 1,024 ticks (R37). -/
def execRegionFloorRelease (h : Hedge) (s : State) : Host.Outcome State Fault Refusal :=
  s.run fun d =>
    match Tbl.get d.clk.floor h.val with
    | some (_, some t) => if t + 1024 ≤ d.clk.edges then { d with clk := { d.clk with floor := Tbl.erase d.clk.floor h.val } } else d
    | _ => d

end Sys2Proof.Machine
end

