-- ==== Sys2Proof/Machine/Mbx.lean ====
section
/-!
DEFINITION. Mailbox channels and their states (R427 to R432), bulk ownership (R434, R435), the BMC, peer messages (R438 to R440)
and the manager roles (R160 to R163).
-/

namespace Sys2Proof.Machine

/-- STATE of a channel: 0 IDLE, 1 PENDING, 2 RUNNING, 3 RESULT (Table 15-15). -/
def Dev.mbxState (d : Dev) (ch : Nat) : Nat := d.fld F.MBX_RESULT_STATE ch

/-- SEQ of a channel's last doorbell. -/
def Dev.mbxSeq (d : Dev) (ch : Nat) : Nat := Tbl.getD d.mbx.seq ch 0

/-- Request word A`n` of the snapshot; words beyond it read 0 (R429). -/
def Dev.arg (d : Dev) (ch n : Nat) : Nat := ((Tbl.getD d.mbx.req ch []).getD n 0#32).toNat

/-- Bits `lo` to `lo + w - 1` of request word A`n`. -/
def Dev.argBits (d : Dev) (ch n lo w : Nat) : Nat := d.arg ch n / 2 ^ lo % 2 ^ w

/-- A 64-bit value in words A`n` and A`n + 1`, low word first (R436). -/
def Dev.arg64 (d : Dev) (ch n : Nat) : Nat := d.arg ch n + d.arg ch (n + 1) * 2 ^ 32

/-- Takes a request: its words are the snapshot, and the channel is PENDING (Table 15-3). NWORDS of 0 or above 16 acts as 16. -/
def Dev.ring (d : Dev) (ch word : Nat) (ws : List Word) : Dev :=
  let n := word % 32
  let n := if n = 0 ∨ 16 < n then 16 else n
  let d := { d with mbx := { d.mbx with req := Tbl.set d.mbx.req ch (ws.take n)
                                        seq := Tbl.set d.mbx.seq ch (word / 2 ^ 16 % 2 ^ 16)
                                        outcome := Tbl.erase d.mbx.outcome ch } }
  (d.setFld F.MBX_ACK_VALID ch 0).setReg .MBX_RESULT ch 0x20000000#32

/-! Peer messages. -/

/-- The level of this device's manager role: 1 for TOP_MGR (R438). -/
def Dev.ownLevel (d : Dev) : Nat := if d.fld F.RTE_ROLE_ROLE 0 = 3 then 1 else 0

/-- Firmware keeps a manager's term and ID of a level in the role record as they change (Table 18-8); a record at its endurance is
no longer written (R504). DEDUCED, unsafe (assumption 149). -/
def Dev.putRole (d : Dev) (level term manager : Nat) : Dev :=
  if Tbl.get d.nvs.role level = some (term, manager) then d
  else if 100000 ≤ d.nvs.roleWear then (d.setFld F.NVS_STATUS_WORN 0 1).raise 0x0102 []
  else { d with nvs := { d.nvs with role := Tbl.set d.nvs.role level (term, manager), roleWear := d.nvs.roleWear + 1 } }

/-- The term rule (R161): whether a manager message is accepted. A manager that sees a higher term of its level is standby at
once, and its wait for that manager's heartbeats begins (R162). DEDUCED, unsafe (assumption 53). -/
def Dev.acceptTerm (d : Dev) (term sender level : Nat) : Bool × Dev :=
  let cur := d.fld F.RTE_TERM_TERM 0
  let d := if cur < term ∧ d.ownLevel = level then d.setFld F.RTE_ROLE_ACTIVE 0 0 else d
  if cur < term ∨ (term = cur ∧ (!d.rte.accepted ∨ sender = d.fld F.RTE_ROLE_MANAGER 0)) then
    let seen := if cur < term ∨ !d.rte.accepted then d.clk.edges else d.rte.hbSeen
    let d := { d with rte := { d.rte with accepted := true, hbSeen := seen } }
    (true, ((d.setFld F.RTE_TERM_TERM 0 term).setFld F.RTE_ROLE_MANAGER 0 sender).putRole level term sender)
  else (false, (d.count 3 8).raise 0x0A05 [sender])

/-- Words as bytes, little-endian. -/
def wordBytes (ws : List Word) : List Byte := ws.flatMap fun w => leBytes 4 w.toNat

/-- Bytes as words. -/
def bytesWords (bs : List Byte) : List Word :=
  (List.range (bs.length / 4)).map fun i => BitVec.ofNat 32 (field bs (4 * i) 4 0 32)

/-- The `MBX_RESULT` word of a channel and its B0 to B15. -/
def Dev.resultWords (d : Dev) (ch : Nat) : List Word :=
  d.rd .MBX_RESULT ch :: (List.range 16).map fun i => d.rd .MBX_B (16 * ch + i)

/-- Sends a ROUTED message on a port; without an ACTIVE link or a credit of VC 9 it is dropped (R439). -/
def Dev.sendRouted (d : Dev) (port term level : Nat) (payload : List Byte) : Dev :=
  if port < 128 ∧ d.linkState port = 2 ∧ 1 ≤ d.avail port 9 - ((d.lnk port).direct.map Pkt.cells).sum then
    d.sendDirect port (Pkt.make 0x11 3 (d.ep 31) 0 0 0 (BitVec.ofNat 64 (term * 2 ^ 32 + level)) (5 * 2 ^ 40 + 2 ^ 39) payload
      d.tickAux false false false)
  else d

/-- Returns the result that a peer channel holds: as a PEER_RESULT, or as a ROUTED message along the path it came (R439). -/
def Dev.sendResult (d : Dev) (ch : Nat) : Dev :=
  let term := d.fld F.RTE_TERM_TERM 0
  match Tbl.get d.mbx.route ch with
  | none => d.sendMgmt 3 (Tbl.getD d.mbx.bound ch 0) term d.ownLevel (wordBytes (d.resultWords ch))
  | some r =>
    let hops := field r 0 1 0 8
    let ret := fun (k : Nat) => if k = hops then r.getD 44 0#8 else r.getD (24 + k) 0#8
    let fwd := (List.range 16).map fun i => if i < hops then ret (hops - i) else 0#8
    d.sendRouted (r.getD 44 0#8).toNat term d.ownLevel
      ([BitVec.ofNat 8 hops, 1#8, 1#8, 0#8] ++ (r.drop 4).take 4 ++ fwd ++ List.replicate 16 0#8 ++ wordBytes (d.resultWords ch))

/-- A result is written: RESULT_VALID with the code and its words; a peer and the BMC are sent theirs (Table 15-3). -/
def Dev.putResult (d : Dev) (ch rc : Nat) (ws : List Word) : Dev :=
  let d := (List.range 16).foldl (fun (d : Dev) i => d.setReg .MBX_B (16 * ch + i) (ws.getD i 0#32)) d
  let d := d.setReg .MBX_RESULT ch (BitVec.ofNat 32 (7 * 2 ^ 29 + ws.length % 32 * 2 ^ 24 + rc * 2 ^ 16 + d.mbxSeq ch))
  let d := { d with mbx := { d.mbx with outcome := Tbl.erase d.mbx.outcome ch } }
  if 4192 ≤ ch then d.sendResult ch
  else if 4160 ≤ ch ∧ ch < 4176 then d.emit (.bmcResult ch (d.resultWords ch))
  else d

/-- Firmware's acknowledgement. -/
def Dev.putAck (d : Dev) (ch rc : Nat) : Dev := d.setReg .MBX_ACK ch (BitVec.ofNat 32 (d.mbxSeq ch * 2 ^ 16 + 2 ^ 15 + rc))

/-- A request is answered at once (R430). DEDUCED, unsafe (assumption 101). -/
def Dev.reply (d : Dev) (ch rc : Nat) (ws : List Word) : Dev := (d.putAck ch rc).putResult ch rc ws

/-- A request is ACCEPTED and runs. -/
def Dev.accept (d : Dev) (ch : Nat) : Dev := (d.putAck ch 1).setReg .MBX_RESULT ch 0x40000000#32

/-- A held result is consumed. -/
def Dev.consume (d : Dev) (ch : Nat) : Dev := d.setReg .MBX_RESULT ch 0#32

/-- The channel of a range of `n` from `lo` for a source: the one it is bound to, else one that is not bound, else the least
recently used that is IDLE (R428). -/
def Dev.bindChan (d : Dev) (lo n src : Nat) : Option (Nat × Dev) :=
  let chs := (List.range n).map (lo + ·)
  let use := fun (ch : Nat) =>
    (ch, { d with mbx := { d.mbx with bound := Tbl.set d.mbx.bound ch src, used := Tbl.set d.mbx.used ch d.mbx.useNext
                                      useNext := d.mbx.useNext + 1 } })
  match chs.find? fun ch => Tbl.get d.mbx.bound ch == some src with
  | some ch => some (use ch)
  | none =>
    match chs.find? fun ch => (Tbl.get d.mbx.bound ch).isNone with
    | some ch => some (use ch)
    | none =>
      let old := (chs.filter fun ch => d.mbxState ch == 0).foldl (fun (m : Option Nat) ch => match m with
        | none => some ch
        | some b => if Tbl.getD d.mbx.used ch 0 < Tbl.getD d.mbx.used b 0 then some ch else some b) none
      old.map use

/-- A message found no channel. -/
def Dev.bindFull (d : Dev) (src : Nat) : Dev := (d.setFld F.MBX_STATUS_BIND_FULL 0 1).raise 0x0201 [src]

/-- A peer request (R440): a repeat whose result is held is answered again, one that is pending or running is ignored, and a new
one consumes the held result first. It runs at L0 when its term passes R161. -/
def Dev.peerReqIn (d : Dev) (dev term level : Nat) (ws : List Word) (route : Option (List Byte)) : Dev :=
  let word := (ws.getD 0 0#32).toNat
  match d.bindChan 4192 32 dev with
  | none => d.bindFull dev
  | some (ch, d) =>
    let st := d.mbxState ch
    if st = 1 ∨ st = 2 then d
    else
      let d := { d with mbx := { d.mbx with route := match route with
        | some r => Tbl.set d.mbx.route ch r
        | none => Tbl.erase d.mbx.route ch } }
      if st = 3 ∧ d.mbxSeq ch = word / 2 ^ 16 then d.sendResult ch
      else
        let (ok, d) := d.acceptTerm term dev level
        let bad := d.mbx.termBad.filter (· != ch)
        let d := { d with mbx := { d.mbx with termBad := if ok then bad else ch :: bad } }
        (d.consume ch).ring ch word (ws.drop 1)

/-- A result for request `k` (R440). -/
def Dev.peerResultIn (d : Dev) (k : Nat) (ws : List Word) : Dev :=
  match Tbl.get d.mbx.peerOut k with
  | none => d
  | some r =>
    if r.answer.isSome ∨ r.seq ≠ (ws.getD 0 0#32).toNat % 2 ^ 16 then d
    else { d with mbx := { d.mbx with peerOut := Tbl.set d.mbx.peerOut k { r with answer := some ws } } }

/-- A heartbeat (R162). -/
def Dev.heartbeatIn (d : Dev) (dev term level : Nat) : Dev :=
  let (ok, d) := d.acceptTerm term dev level
  if ok then { d with rte := { d.rte with hbSeen := d.clk.edges } } else d

/-- A MGMT packet for endpoint 31 (R438), or a link notice for MGMT traffic (R192, R440). -/
def Dev.mgmtIn (d : Dev) (p : Pkt) : Dev :=
  let dev := devOf p.src
  let term := p.ta 32 32
  let level := p.ta 0 2
  if p.kind = 0x10 then d.peersNow
  else match p.subkind with
    | 2 => d.peerReqIn dev term level (bytesWords p.data) none
    | 3 => d.peerResultIn dev (bytesWords p.data)
    | 4 => d.heartbeatIn dev term level
    | _ => d

/-- A ROUTED message that came in on a port (R439). DEDUCED, unsafe (assumption 55). -/
def Dev.routedIn (d : Dev) (p : Pkt) (port : Nat) : Dev :=
  let b := p.data
  let hops := field b 0 1 0 8
  let k := field b 1 1 0 8
  if b.length ≠ 108 ∨ k = 0 ∨ hops < k ∨ 16 < hops then d
  else
    let b := if k < 16 then b.set (24 + k) (BitVec.ofNat 8 port) else b
    if k < hops then
      d.sendRouted (field b (8 + k) 1 0 8) (p.ta 32 32) (p.ta 0 2) (b.set 1 (BitVec.ofNat 8 (k + 1)))
    else
      let ws := bytesWords (b.drop 40)
      if field b 2 1 0 8 = 0 then
        d.peerReqIn (field b 4 4 0 17) (p.ta 32 32) (p.ta 0 2) ws (some (b.take 44 ++ [BitVec.ofNat 8 port]))
      else
        match d.mbx.peerOut.find? fun r => !r.2.route.isEmpty && r.2.seq == (ws.getD 0 0#32).toNat % 2 ^ 16 with
        | some r => d.peerResultIn r.1 ws
        | none => d

/-- Takes a MGMT packet of the subkinds named at an internal port; during a restart it is held (R455). -/
def Dev.takeMgmt (d : Dev) (q : Fin 32) (ok : Pkt → Bool) : Dev :=
  d.withPkt q (fun p => p.kind == 0x11 && !p.isDirect && ok p) fun x d =>
    if d.ccRuns then d.mgmtIn x.pkt else d.holdMail (.packet x.pkt)

/-- Whether a PEER_REQ is a table load or a commit. -/
def isLoad (p : Pkt) : Bool := p.subkind == 2 && (field p.data 4 4 0 32 == 0x30 || field p.data 4 4 0 32 == 0x31)

/-- MANAGER_MESSAGE: a heartbeat, table load or commit (R161, R164). -/
def execManagerMessage (q : Fin 32) (s : State) : Host.Outcome State Fault Refusal :=
  s.run fun d => d.takeMgmt q fun p => p.subkind == 4 || isLoad p

/-- Sends a request of this device's own: the first time, or again. -/
def Dev.sendPeer (d : Dev) (k : Nat) (r : PeerReq) : Dev :=
  let term := d.fld F.RTE_TERM_TERM 0
  let r' : PeerReq := { r with sends := r.sends + 1, at_ := d.clk.edges, now := false }
  let d := { d with mbx := { d.mbx with peerOut := Tbl.set d.mbx.peerOut k r' } }
  if r.route.isEmpty then d.sendMgmt 2 k term d.ownLevel (wordBytes r.words)
  else d.sendRouted (field r.route 8 1 0 8) term d.ownLevel r.route

/-- Whether request `k` waits for its answer. -/
def Dev.peerWaits (d : Dev) (k : Nat) : Bool := (Tbl.get d.mbx.peerOut k).any (·.answer.isNone)

/-- The doorbell word and A0 to A15 of a request. -/
def peerWords (seq : BitVec 16) (ws : List Word) : List Word :=
  BitVec.ofNat 32 (seq.toNat * 2 ^ 16 + min 16 ws.length) :: (ws ++ List.replicate 16 0#32).take 16

/-- PEER_REQ: a request arrives from a peer, or firmware sends one of its own (R438, R440). -/
def execPeerReq (m : PeerMail) (s : State) : Host.Outcome State Fault Refusal :=
  s.run fun d =>
    match m with
    | .arrive q => d.takeMgmt q fun p => p.subkind == 2
    | .issue dev seq ws =>
      if !d.ccRuns || d.peerWaits dev.toNat then d
      else d.sendPeer dev.toNat ⟨seq.toNat, peerWords seq ws, 0, 0, false, [], none⟩

/-- PEER_RESULT. -/
def execPeerResult (q : Fin 32) (s : State) : Host.Outcome State Fault Refusal :=
  s.run fun d => d.takeMgmt q fun p => p.subkind == 3

/-- PEER_REQ_RESEND: 1,562 ticks have passed since the last send, or a link notice named the request; after 8 sends it fails with
BUSY (R440). -/
def execPeerReqResend (k : BitVec 18) (s : State) : Host.Outcome State Fault Refusal :=
  s.run fun d =>
    let k := k.toNat
    match Tbl.get d.mbx.peerOut k with
    | none => d
    | some r =>
      if !d.ccRuns ∨ r.answer.isSome ∨ (!r.now ∧ d.clk.edges < r.at_ + 1562) then d
      else if r.sends < 8 then d.sendPeer k r
      else
        let w := BitVec.ofNat 32 (7 * 2 ^ 29 + 2 * 2 ^ 16 + r.seq)
        { d with mbx := { d.mbx with peerOut := Tbl.set d.mbx.peerOut k { r with answer := some [w] } } }

/-- ROUTED: a direct message is taken off a port, or firmware sends one along a path (R439). -/
def execRouted (m : RoutedMail) (s : State) : Host.Outcome State Fault Refusal :=
  s.run fun d =>
    match m with
    | .arrive p =>
      match d.takeInbox p.val fun x => x.subkind == 5 with
      | none => d
      | some (x, d) => if d.ccRuns then d.routedIn x p.val else d.holdMail (.routed x p.val)
    | .issue k fwd seq ws =>
      let hops := fwd.length
      if !d.ccRuns || d.peerWaits (2 ^ 17 + k.val) || hops == 0 || decide (16 < hops) then d
      else
        let words := peerWords seq ws
        let own := if d.flag F.RTE_ID_VALID 0 then d.fld F.RTE_ID_DEVICE 0 else 0
        let path := (fwd.map fun (p : Port) => BitVec.ofNat 8 p.val) ++ List.replicate (16 - hops) 0#8
        let body := [BitVec.ofNat 8 hops, 1#8, 0#8, 0#8] ++ leBytes 4 own ++ path ++ List.replicate 16 0#8 ++ wordBytes words
        d.sendPeer (2 ^ 17 + k.val) ⟨seq.toNat, words, 0, 0, false, body, none⟩

/-! Manager roles (R160 to R163). -/

/-- HEARTBEAT_SEND: an active manager sends a heartbeat to its standby and the devices it manages, which firmware knows, every
15,625 ticks; a restart does not stop it (R162, R454). -/
def execHeartbeatSend (devs : List (BitVec 17)) (s : State) : Host.Outcome State Fault Refusal :=
  s.run fun d =>
    if !d.flag F.RTE_ROLE_ACTIVE 0 ∨ (d.rte.hbSent ≠ 0 ∧ d.clk.edges < d.rte.hbSent + 15625) then d
    else
      let d := { d with rte := { d.rte with hbSent := d.clk.edges } }
      devs.foldl (fun (d : Dev) x => d.sendMgmt 4 x.toNat (d.fld F.RTE_TERM_TERM 0) d.ownLevel []) d

/-- RTE_TAKEOVER: a manager that is standby has missed 20 heartbeats; it raises the term and is active (R161, R162). The loss of
the manager is F3 (Table 16-1). -/
def execRteTakeover (s : State) : Host.Outcome State Fault Refusal :=
  s.run fun d =>
    if d.fld F.RTE_ROLE_ROLE 0 = 0 ∨ d.flag F.RTE_ROLE_ACTIVE 0 ∨ !d.ccRuns ∨ d.clk.edges < d.rte.hbSeen + 312500 then d
    else
      let d := (d.setFld F.RTE_TERM_TERM 0 (d.fld F.RTE_TERM_TERM 0 + 1)).setFld F.RTE_ROLE_ACTIVE 0 1
      let d := if d.flag F.RTE_ID_VALID 0 then d.setFld F.RTE_ROLE_MANAGER 0 (d.fld F.RTE_ID_DEVICE 0) else d
      let d := d.putRole d.ownLevel (d.fld F.RTE_TERM_TERM 0) (d.fld F.RTE_ROLE_MANAGER 0)
      (({ d with rte := { d.rte with hbSent := 0, accepted := true } }).raise 0x0A06 [d.fld F.RTE_TERM_TERM 0]).fault3 0x0A06

/-! The channel window. -/

/-- The offset of `MBX_DOORBELL` and of `MBX_CONSUME`. -/
def doorbellOff : Nat := 0x200040
def consumeOff : Nat := 0x20004C

/-- Whether a channel has a window that a write reaches (Table 15-1): a function's, while the device has not stopped, or a debug
channel's. -/
def Dev.hasWindow (d : Dev) (ch : Nat) : Bool := (decide (ch < 4120) && !d.halted) || decide (4176 ≤ ch ∧ ch < 4192)

/-- A write of `MBX_DOORBELL`: an IDLE channel takes the request; while the control complex does not run, the mailbox unit answers
BUSY itself (R429, R432). -/
def Dev.mbxDoorbell (d : Dev) (ch : Nat) (v : Word) : Dev :=
  if !d.hasWindow ch then d
  else if d.mbxState ch ≠ 0 then d.stateWrite ch doorbellOff
  else
    let d := d.ring ch v.toNat ((List.range 16).map fun i => d.rd .MBX_A (16 * ch + i))
    if d.ccRuns then d else d.reply ch 2 []

/-- MBX_DOORBELL. -/
def execMbxDoorbell (ch : Chan) (v : Word) (s : State) : Host.Outcome State Fault Refusal := s.run (·.mbxDoorbell ch.val v)

/-- A write of `MBX_CONSUME`: the result's SEQ releases it (R429, R431). -/
def Dev.mbxConsume (d : Dev) (ch : Nat) (v : Word) : Dev :=
  if !d.hasWindow ch then d
  else if d.mbxState ch = 3 ∧ v.toNat / 2 ^ 16 = d.mbxSeq ch then d.consume ch
  else d.stateWrite ch consumeOff

/-- MBX_CONSUME. -/
def execMbxConsume (ch : Chan) (v : Word) (s : State) : Host.Outcome State Fault Refusal := s.run (·.mbxConsume ch.val v)

/-- A write of request word A`i` (Table 15-3). -/
def Dev.argWrite (d : Dev) (ch i : Nat) (v : Word) : Dev :=
  if !d.hasWindow ch then d
  else if d.mbxState ch = 0 ∨ d.mbxState ch = 3 then d.setReg .MBX_A (16 * ch + i) v
  else d.stateWrite ch (0x200000 + 4 * i)

/-- The opcodes assigned (Tables 15-5 to 15-10 and 18-11). -/
def opcodes : List Nat :=
  [1, 2, 3, 4, 5, 6, 7, 0x10, 0x11, 0x20, 0x21, 0x22, 0x30, 0x31, 0x32, 0x40, 0x41, 0x42, 0x43, 0x44, 0x45, 0x50, 0x51, 0x60,
   0x61, 0x70, 0x71, 0x80, 0x81, 0x82, 0x83, 0x84, 0x85, 0x86, 0x90, 0x91, 0x92, 0x93, 0x94, 0x95, 0x96, 0x97, 0xA0, 0xA1, 0xA2,
   0xB0, 0xB1, 0xB2]

/-- COMMAND_FINISH: a running command that has ended writes its final result; a pending one whose opcode is not assigned gets
BAD_COMMAND (R429, R433). -/
def execCommandFinish (ch : Chan) (s : State) : Host.Outcome State Fault Refusal :=
  s.run fun d =>
    let ch := ch.val
    if !d.ccRuns then d
    else if d.mbxState ch = 2 then
      match Tbl.get d.mbx.outcome ch with
      | some (rc, ws) =>
        -- The end of FW_STAGE releases the flash pins.
        let d := if d.arg ch 0 = 2 then { d with pins := { d.pins with spi := false } } else d
        d.putResult ch rc ws
      | none => d
    else if d.mbxState ch = 1 ∧ !opcodes.contains (d.arg ch 0) then d.reply ch 3 []
    else d

/-! Bulk pages (R434, R435). -/

/-- MBX_BULK_OWN: the host hands pages to firmware. -/
def execMbxBulkOwn (src : Src) (i : Fin 8) (v : Word) (s : State) : Host.Outcome State Fault Refusal :=
  s.run fun d =>
    match src with
    | .pf _ => if d.level src = 3 then d else d.setReg .MBX_BULK_OWN (8 * src.fn + i.val) (d.rd .MBX_BULK_OWN (8 * src.fn + i.val) ||| v)
    | _ => d

/-- Whether firmware owns a page of a function's bulk window. -/
def Dev.bulkOwned (d : Dev) (fn page : Nat) : Bool := (d.rd .MBX_BULK_OWN (8 * fn + page / 32)).getLsbD (page % 32)

/-- Whether a command's channel has a bulk window whose pages `first` to `first + n - 1` are handed over. -/
def Dev.bulkOk (d : Dev) (ch first n : Nat) : Bool :=
  decide (4096 ≤ ch ∧ ch < 4120 ∧ first + n ≤ 256 ∧ 0 < n) && (List.range n).all fun i => d.bulkOwned ch (first + i)

/-- Firmware hands pages back. -/
def Dev.bulkBack (d : Dev) (ch first n : Nat) : Dev :=
  (List.range n).foldl (fun (d : Dev) i =>
    let p := first + i
    let w := d.rd .MBX_BULK_OWN (8 * ch + p / 32)
    d.setReg .MBX_BULK_OWN (8 * ch + p / 32) (w &&& ~~~(BitVec.ofNat 32 (2 ^ (p % 32))))) d

/-- A host access to a page that firmware owns. -/
def Dev.bulkBlocked (d : Dev) (fn page : Nat) : Dev := (d.setFld F.MBX_STATUS_BULK_BLOCKED 0 1).raise 0x0202 [fn, page]

/-- The space of a function's bulk window. -/
def bulkSpace (fn : Nat) : Space := .bulk (fn - 4096)

/-- A host write of the bulk window: bytes of pages that firmware owns are discarded. -/
def Dev.bulkWrite (d : Dev) (src : Src) (off : Nat) (bs : List Byte) : Dev :=
  match src with
  | .pf _ =>
    if d.level src = 3 then d
    else
      let fn := src.fn
      let pages := (List.range 256).filter fun p => decide (4096 * p < off + bs.length ∧ off < 4096 * (p + 1))
      pages.foldl (fun (d : Dev) p =>
        if d.bulkOwned fn p then d.bulkBlocked fn p
        else
          let lo := max off (4096 * p)
          let hi := min (off + bs.length) (4096 * (p + 1))
          d.store (bulkSpace fn) lo ((bs.drop (lo - off)).take (hi - lo))) d
  | _ => d

/-! The BMC. -/

/-- A message from the BMC: the doorbell word and the request words, on the channel bound to its endpoint (R427, R428). -/
def Dev.bmcIn (d : Dev) (eid : Nat) (ws : List Word) : Dev :=
  match d.bindChan 4160 16 eid with
  | none => d.bindFull eid
  | some (ch, d) => if d.mbxState ch = 0 then d.ring ch (ws.getD 0 0#32).toNat (ws.drop 1) else d

/-- BMC_MESSAGE: a request, the consumption of a result, or a question for the vendor ID. DEDUCED, unsafe (assumption 102). -/
def execBmcMessage (eid : Byte) (m : BmcMail) (s : State) : Host.Outcome State Fault Refusal :=
  s.run fun d =>
    match m with
    | .request ws => if d.ccRuns then d.bmcIn eid.toNat ws else d.holdMail (.bmc eid.toNat ws)
    | .consume v =>
      match (List.range 16).find? fun i => Tbl.get d.mbx.bound (4160 + i) == some eid.toNat with
      | some i => if d.mbxState (4160 + i) = 3 ∧ v.toNat / 2 ^ 16 = d.mbxSeq (4160 + i) then d.consume (4160 + i) else d
      | none => d
    | .vendor => d.emit (.bmcVendor Config.vendorId)

/-- Handles the mail that was held during a restart, in order of arrival (R455). -/
def Dev.releaseMail (d : Dev) : Dev :=
  let ms := d.mbx.held
  ms.foldl (fun (d : Dev) m => match m with
    | .packet p => if p.kind = 3 then d.openIn p else d.mgmtIn p
    | .routed p port => d.routedIn p port
    | .bmc eid ws => d.bmcIn eid ws) { d with mbx := { d.mbx with held := [] } }

/-- The latest valid coppice point (R451). -/
def Cc.latest (c : Cc) : Option Coppice :=
  c.slots.foldl (fun (m : Option Coppice) e =>
    if !e.2.valid then m
    else match m with
      | none => some e.2
      | some x => if x.tick.toNat ≤ e.2.tick.toNat then some e.2 else m) none

/-! Serving commands. -/

/-- The level of a channel's commands (Table 15-1): 3 where every command is denied. -/
def Dev.chLevel (d : Dev) (ch : Nat) : Nat :=
  if ch < 4096 then 2
  else if ch < 4120 then (if (d.rd .MBX_ROOT_MASK 0).getLsbD (ch - 4096) then 0 else 1)
  else if ch < 4176 then 1
  else if ch < 4192 then (if d.flag F.SEC_STATUS_DEBUG 0 then 0 else 3)
  else if d.mbx.termBad.contains ch then 3 else 0

/-- Whether a channel is a BMC's; the levels a command names hold 4 where the BMC may send it although it runs at L1. -/
def isBmc (ch : Nat) : Bool := decide (4160 ≤ ch ∧ ch < 4176)

/-- The function on whose behalf a channel's commands act. -/
def chanFn (ch : Nat) : Nat := if ch < 4120 then ch else 4224

/-- Whether a command may name an object of function `owner` (R436). -/
def Dev.chOwns (d : Dev) (ch : Nat) (owner : Option Nat) : Bool :=
  match d.chLevel ch, owner with
  | 0, _ => true
  | 1, some o => d.pfOf o == ch
  | 2, some o => o == ch
  | _, _ => false

/-- The first code whose condition holds; 0 where none does. -/
def firstCode : List (Bool × Nat) → Nat
  | [] => 0
  | (b, c) :: cs => if b then c else firstCode cs

/-- What a command answers: its code, its result words, and the device after it. -/
abbrev Reply := Nat × List Word × Dev

/-- Firmware records the action of a channel's command (R452); it has completed when the command that models it ends.
DEDUCED, unsafe (assumption 100). -/
def Dev.journal (d : Dev) (ch : Nat) : Dev :=
  let j : Journal := { ch := ch, seq := d.mbxSeq ch, at_ := d.clk.edges, done := true }
  { d with cc := { d.cc with journal := d.cc.journal ++ [j] } }

/-- Serves the pending request of a channel when it has this opcode: UNSUPPORTED where the unit is absent, DENIED where the
level is too low, else what the command answers (R433). -/
def Dev.serve (d : Dev) (ch : Chan) (opc : Nat) (absent : Bool) (ok : List Nat) (body : Dev → Reply) : Dev :=
  let ch := ch.val
  if !d.ccRuns || d.mbxState ch != 1 || d.arg ch 0 != opc then d
  else if absent then d.reply ch 7 []
  else if !ok.contains (d.chLevel ch) && !(isBmc ch && ok.contains 4) then d.reply ch 6 []
  else
    let r := body d
    if 2 ≤ r.1 then r.2.2.reply ch r.1 []
    else
      let d := r.2.2.journal ch
      if r.1 = 1 then d.accept ch else d.reply ch 0 r.2.1

/-- A refusal. -/
def Dev.refuse (d : Dev) (rc : Nat) : Reply := (rc, [], d)

/-- A word of a result. -/
def word (n : Nat) : Word := BitVec.ofNat 32 n

/-- The two words of a tick number. -/
def tickWords (t : Tick) : List Word := [t.setWidth 32, (t >>> 32).setWidth 32]

end Sys2Proof.Machine
end

