-- ==== Sys2Proof/Machine/Nvs.lean ====
section
/-!
DEFINITION. The persistent store (R500 to R503): accepting a write, and programming it.
-/

namespace Sys2Proof.Machine

/-- The bits a persistent word has: the layouts of Tables 18-7 and 18-14; reserved bits read 0. -/
def nvsMask (i : Nat) : Word :=
  if i = 0 then 0xC0000003#32
  else if i = 1 then 1#32
  else if i = 2 then F.HSW_CFG_FW_HIER.mask
  else if i ≤ 14 then Reg.accMask .HSW_GRP_CFG [.rwp]
  else if i ≤ 62 then Reg.accMask .HSW_PORT_CFG [.rwp]
  else if i = 63 then Reg.accMask .MBX_ROOT_MASK [.rwp]
  else ~~~0#32

/-- Whether a word is worn (R503). -/
def Dev.worn (d : Dev) (i : Nat) : Bool := decide (100000 ≤ d.fld F.NVS_WEAR_COUNT i)

/-- `NVS_STATUS.QUEUE` and BUSY follow the write queue. -/
def Dev.nvsStatus (d : Dev) : Dev :=
  (d.setFld F.NVS_STATUS_QUEUE 0 d.nvs.queue.length).setFld F.NVS_STATUS_BUSY 0 (if d.nvs.queue.isEmpty then 0 else 1)

/-- A write of persistent word `i` (R501). The first write of the queue is being programmed, so a second write of its word takes
an entry of its own while one is free; any other queued write of the word is replaced. A worn word keeps its value (R503). -/
def Dev.nvsPut (d : Dev) (i : Nat) (v : Word) : Dev :=
  let v := v &&& nvsMask i
  if d.worn i then d
  else
    let tail := d.nvs.queue.tail
    let full := decide (16 ≤ d.nvs.queue.length)
    if tail.any (fun e => e.1 == i) || (full && (d.nvs.queue.head?.any fun e => e.1 == i)) then
      let put := fun (es : List (Nat × Word)) => es.map fun e => if e.1 = i then (i, v) else e
      let q := if tail.any (fun e => e.1 == i) then d.nvs.queue.take 1 ++ put tail else put d.nvs.queue
      ({ d with nvs := { d.nvs with queue := q } }).setReg .NVS_WORD i v
    else if 16 ≤ d.nvs.queue.length then (d.setFld F.NVS_STATUS_OVERFLOW 0 1).raise 0x0101 [i]
    else (({ d with nvs := { d.nvs with queue := d.nvs.queue ++ [(i, v)] } }).setReg .NVS_WORD i v).nvsStatus

/-- The programming of the first queued write completes and its wear count rises; at 100,000 the word becomes read-only
(R503). -/
def Dev.nvsProgrammed (d : Dev) : Dev :=
  match d.nvs.queue with
  | [] => d
  | (i, v) :: q =>
    let d := { d with nvs := { d.nvs with queue := q, stored := Tbl.set d.nvs.stored i v } }
    let d := d.bump F.NVS_WEAR_COUNT i 1
    if d.fld F.NVS_WEAR_COUNT i < 100000 then d.nvsStatus
    else
      let d := { d with nvs := { d.nvs with queue := q.filter fun e => e.1 != i } }
      let d := (d.setReg .NVS_WORD i v).nvsStatus
      let low := if d.flag F.NVS_WORN_IDX_VALID 0 then min i (d.fld F.NVS_WORN_IDX_WORD 0) else i
      let d := ((d.setFld F.NVS_STATUS_WORN 0 1).setFld F.NVS_WORN_IDX_VALID 0 1).setFld F.NVS_WORN_IDX_WORD 0 low
      d.raise 0x0102 [i]

/-- NVS_PROGRAM_DONE: a queued persistent write is programmed (R501). -/
def execNvsProgramDone (s : State) : Host.Outcome State Fault Refusal := s.run Dev.nvsProgrammed

end Sys2Proof.Machine
end

