-- ==== Sys2Proof/Machine/Fault.lean ====
section
/-!
DEFINITION. Faults of class F4, coppice points, restarts of the control complex and hitless activation (R446 to R465).
-/

namespace Sys2Proof.Machine

/-! F4. -/

/-- Containment of every virtual downstream port that shows a device (R450). -/
def Dev.containAll (d : Dev) : Dev :=
  let bridges := ((List.range 24).filter fun h => d.brState h == 1).map fun h => 32 * h + 1
  (bridges ++ d.hsw.vdsp.map (·.1)).foldl (fun (d : Dev) k => d.containV (k / 32) (k % 32)) d

/-- The device enters F4 for a cause of Table 16-2 that an event declared (R450). What has stopped reads `Dev.halted`.
DEDUCED, unsafe (assumption 98). -/
def Dev.enterF4 (d : Dev) (cause event : Nat) : Dev :=
  if d.f4 then d
  else
    let d := ((d.setFld F.GLB_FAULT_F4 0 1).setFld F.GLB_FAULT_F4_CAUSE 0 cause).setFld F.GLB_FAULT_EVENT 0 event
    let d := (d.setReg .GLB_FAULT_TICK_LO 0 (d.clk.tick.setWidth 32)).setReg .GLB_FAULT_TICK_HI 0 ((d.clk.tick >>> 32).setWidth 32)
    let d := ({ d with pins := { d.pins with fault := true } }).containAll
    d.raise 0x0002 [event]

/-- GLB_F4: a cause of Table 16-2 arises; a lost PLL counts outside HOLDOVER, and a stack where the part has HBM. -/
def execGlbF4 (cause : Fin 10) (s : State) : Host.Outcome State Fault Refusal :=
  s.run fun d =>
    if cause.val = 0 ∨ (cause.val = 7 ∧ d.fld F.TCK_STATUS_CLK_STATE 0 = 4) ∨ (cause.val = 4 ∧ !d.part.hasHbm) then d
    else d.enterF4 cause.val 0x0002

/-- Whether a rail is monitored (R518): 0 to 3 are `VDD_CORE`, `VDD_SRAM`, `VDD_SER` and `VDD_SERH`, and 4 + `k` is the `VDD_HBM` of
stack `k`, where that stack is present. -/
def railMonitored (p : Part) (rail : Nat) : Bool := decide (rail < 4) || p.hbmMask.testBit (rail - 4)

/-- RAIL_FAULT: a rail has been out of range for a number of ticks; on a monitored rail more than 16 are F4 (R518). -/
def execRailFault (x : RailLoss) (s : State) : Host.Outcome State Fault Refusal :=
  s.run fun d => if railMonitored d.part x.rail.val ∧ 16 < x.ticks ∧ d.pins.pwrgood then d.enterF4 5 0x0002 else d

/-- THERMAL_TRIP: a die sensor reads a temperature in °C; 115 and more trip (R513). -/
def execThermalTrip (temp : Nat) (s : State) : Host.Outcome State Fault Refusal :=
  s.run fun d =>
    if 115 ≤ temp ∧ d.pins.pwrgood then ({ d with pins := { d.pins with thermtrip := true } }).enterF4 6 0x0002 else d

/-- Whether a path may write `GLB_FAULT_INJECT`: L0, while debug is enabled (R464). -/
def Dev.mayInject (d : Dev) (src : Src) : Bool := d.level src == 0 && d.flag F.SEC_STATUS_DEBUG 0

/-- GLB_FAULT_INJECT_FATAL. -/
def execGlbFaultInjectFatal (src : Src) (s : State) : Host.Outcome State Fault Refusal :=
  s.run fun d => if d.mayInject src then d.enterF4 9 0x0002 else d

/-! Restarts. -/

/-- The coppice-point format that the running image writes (R456). -/
def Dev.fwFormat (d : Dev) : Nat := (d.sec.fw.map (·.cpWrite.toNat)).getD 0

/-- A restart begins (R453): a point being captured is discarded, the restart is F3, and the third within 1 s is F4. STATE says
what kind it is: 1 a restart, 2 an activation, 3 a fallback. DEDUCED, unsafe (assumption 99). -/
def Dev.ccRestart (d : Dev) (kind : Nat) : Dev :=
  let recent := d.cc.restarts.filter fun t => decide (d.clk.edges ≤ t + 1562500)
  let d := { d with cc := { d.cc with capturing := none, restarts := d.clk.edges :: recent } }
  let d := ((d.setFld F.GLB_CC_STATUS_STATE 0 kind).setFld F.GLB_CC_STATUS_STEP 0 1).bump F.GLB_CC_STATUS_RESTARTS 0 1
  let d := (d.raise 0x0003 []).fault3 0x0003
  if 2 ≤ recent.length then d.enterF4 2 0x0003 else d

/-- Whether the control complex has been started and the device has not stopped. -/
def Dev.ccUp (d : Dev) : Bool := d.sec.step == 6 && !d.halted

/-- GLB_CC_RESTART: a lockstep mismatch, or an uncorrectable error in its memory. During a restart a new one of the same kind
begins. -/
def execGlbCcRestart (s : State) : Host.Outcome State Fault Refusal :=
  s.run fun d => if d.ccUp then d.ccRestart (max 1 (d.fld F.GLB_CC_STATUS_STATE 0)) else d

/-- FW_WATCHDOG_EXPIRED: firmware has not checked in for 15,625 ticks. -/
def execFwWatchdogExpired (s : State) : Host.Outcome State Fault Refusal :=
  s.run fun d => if d.ccUp ∧ d.ccRuns ∧ d.cc.checkin + 15625 ≤ d.clk.edges then d.ccRestart 1 else d

/-- GLB_FAULT_INJECT_RESTART. -/
def execGlbFaultInjectRestart (src : Src) (s : State) : Host.Outcome State Fault Refusal :=
  s.run fun d => if d.mayInject src && d.ccUp then d.ccRestart (max 1 (d.fld F.GLB_CC_STATUS_STATE 0)) else d

/-- COPPICE_POINT: at a tick that is a multiple of 1,024 the capture of a point begins in the other slot (R451). -/
def execCoppicePoint (s : State) : Host.Outcome State Fault Refusal :=
  s.run fun d =>
    let t := d.clk.tick
    if d.ccUp ∧ d.ccRuns ∧ t.toNat % 1024 = 0 ∧ d.cc.capturing = none ∧ d.cc.latest.map (·.tick) ≠ some t then
      { d with cc := { d.cc with capturing := some (d.cc.nextSlot, t, d.clk.edges),
                                 slots := Tbl.set d.cc.slots d.cc.nextSlot { format := d.fwFormat, tick := t, valid := false } } }
    else d

/-- COPPICE_POINT_DONE: its sequence word is written, and the point is valid. Journal entries from before it are not needed any
more. -/
def execCoppicePointDone (s : State) : Host.Outcome State Fault Refusal :=
  s.run fun d =>
    match d.cc.capturing with
    | none => d
    | some (k, t, e) =>
      let cc := { d.cc with capturing := none, nextSlot := (k + 1) % 2,
                            slots := Tbl.modify d.cc.slots k { format := d.fwFormat, tick := t, valid := false } fun c =>
                              { c with valid := true },
                            journal := d.cc.journal.filter fun j => decide (e ≤ j.at_) }
      ({ d with cc := cc }).setFld F.GLB_CC_STATUS_SLOT_SEQ 0 (t.toNat / 1024)

/-- The staged image runs: the end of a successful activation (R456, R489). -/
def Dev.activated (d : Dev) : Dev :=
  let v := (d.sec.staged.map (·.version)).getD 0#32
  let d := { d with sec := { d.sec with fw := d.sec.staged, prev := none, staged := none } }
  let d := (d.setReg .GLB_FW_VERSION 0 v).nvsPut 1 (BitVec.ofNat 32 d.sec.stagedBank)
  let d := (d.raise 0x0005 []).outcome d.cc.activating 0 []
  { d with cc := { d.cc with activating := none } }

/-- Whether the running or the staged image passes the anti-rollback check now. -/
def Dev.svnOk (d : Dev) (img : Option Image) (kind : Nat) : Bool :=
  img.all fun i => decide (d.fld F.SEC_SVN_COUNT kind ≤ i.svn.toNat)

/-- GLB_CC_READY: step 5 ends. Commands and held mail go on (R454, R455). With no valid coppice point the device is in F4 since
step 3. -/
def execGlbCcReady (s : State) : Host.Outcome State Fault Refusal :=
  s.run fun d =>
    let kind := d.fld F.GLB_CC_STATUS_STATE 0
    if kind = 0 ∨ !d.ccUp then d
    else if d.cc.latest = none then d.enterF4 3 0x0003
    else if kind = 2 ∧ !d.svnOk d.sec.staged 1 then d
    else
      let d := if kind = 2 then d.activated else d
      let d := (d.setFld F.GLB_CC_STATUS_STATE 0 0).setFld F.GLB_CC_STATUS_STEP 0 0
      let js := d.cc.journal.map fun (j : Journal) => { j with done := true }
      let d := { d with cc := { d.cc with checkin := d.clk.edges, journal := js } }
      (d.raise 0x0004 []).releaseMail

/-- GLB_FW_FALLBACK: the new image fails, and the control complex restarts with the previous one (R457). -/
def execGlbFwFallback (s : State) : Host.Outcome State Fault Refusal :=
  s.run fun d =>
    if d.fld F.GLB_CC_STATUS_STATE 0 = 2 ∧ d.ccUp then
      let d := (d.ccRestart 3).outcome d.cc.activating 6 []
      ({ d with cc := { d.cc with activating := none } }).raise 0x0006 []
    else d

/-! SPDM (R498, R499). -/

/-- The header bytes that a measurement covers: the fields of Table 18-4 that the model holds. -/
def imageHeader (i : Image) : List Byte :=
  [0x53#8, 0x43#8, 0x4E#8, 0x49#8, i.format, i.kind, i.svn, i.flags] ++ leBytes 4 i.version.toNat ++ leBytes 4 i.length.toNat ++
    leBytes 2 i.cpWrite.toNat ++ leBytes 2 i.cpReadMin.toNat ++ i.custPk

/-- What each measurement block measures (Table 18-6); of block 1 only the customer key can change. -/
def Dev.measured (d : Dev) : List (Nat × List Byte) :=
  let img := fun (i : Option Image) => (i.map imageHeader).getD []
  let words := fun (ws : List Word) => ws.flatMap fun w => leBytes 4 w.toNat
  [(1, d.sec.custKey), (2, img d.sec.first), (3, img d.sec.fw), (4, img d.sec.staged)] ++
    ((List.range 6).map fun k => (5 + k, img (Tbl.get d.eng.image k))) ++
    [(11, words (d.rd .SEC_STATUS 0 :: (List.range 3).map (d.rd .SEC_SVN))), (12, words [d.rd .NVS_WORD 0, d.rd .NVS_WORD 1])]

/-- SPDM_REQUEST: a request is answered, over MCTP or over DOE of a management function; the answer to GET_MEASUREMENTS carries
the blocks asked for. DEDUCED, unsafe (assumption 108). -/
def execSpdmRequest (req : SpdmReq) (s : State) : Host.Outcome State Fault Refusal :=
  s.run fun d =>
    if !d.ccRuns then d
    else
      match req with
      | .getMeasurements bs => d.emit (.spdm req (d.measured.filter fun m => bs.any fun b => b.val == m.1))
      | _ => d.emit (.spdm req [])

end Sys2Proof.Machine
end

