-- ==== Sys2Proof/Machine/Boot.lean ====
section
/-!
DEFINITION. The kinds of reset, the straps and their override, secure boot and recovery (R483 to R497, R517).
-/

namespace Sys2Proof.Machine

/-! What a reset leaves (Table 18-1). -/

/-- Registers that stand in fuses or in the persistent store. -/
def keptRegs : List Reg := [.NVS_WORD, .NVS_WEAR, .NVS_WORN_IDX, .SEC_SVN, .SEC_UID]

/-- A new debug nonce (R497). DESIGN CHOICE, safe (assumption 109). -/
def Dev.newNonce (d : Dev) : Dev :=
  let (v, d) := d.fresh
  (d.setReg .SEC_NONCE_LO 0 (v.setWidth 32)).setReg .SEC_NONCE_HI 0 ((v >>> 32).setWidth 32)

/-- The effective role and clock-root choice, and whether the override applies (R487). -/
def Dev.effective (d : Dev) : Nat × Bool × Bool :=
  let o := d.rd .NVS_WORD 0
  let boot := d.pins.strapBoot.toNat
  if o.getLsbD 31 && boot != 2 then (o.toNat % 4, o.getLsbD 30, true) else (d.pins.strapRole.toNat, boot == 1, false)

/-- The straps and their override take effect (R486 to R488). -/
def Dev.applyStraps (d : Dev) : Dev :=
  let (role, root, ovr) := d.effective
  let bit := fun (b : Bool) => if b then 1 else 0
  let d := (d.setFld F.SEC_STATUS_STRAP_ROLE 0 d.pins.strapRole.toNat).setFld F.SEC_STATUS_STRAP_BOOT 0 d.pins.strapBoot.toNat
  let d := ((d.setFld F.SEC_STATUS_ROLE 0 role).setFld F.SEC_STATUS_ROOT 0 (bit root)).setFld F.SEC_STATUS_OVR 0 (bit ovr)
  (d.setFld F.RTE_ROLE_ROLE 0 role).setFld F.TCK_PARENT_ROOT 0 (bit (role == 3 && root))

/-- Recovery is entered (R492, R494). DEDUCED, unsafe (assumption 114). -/
def Dev.enterRecovery (d : Dev) : Dev :=
  ({ d with sec := { d.sec with recovery := true, step := 2, first := none, fw := none } }).raise 0x1502 []

/-- Boot begins at step 2, with the active bank, or in recovery where the straps say so. -/
def Dev.startBoot (d : Dev) : Dev :=
  let d := d.applyStraps.newNonce
  let d := { d with sec := { d.sec with step := 2, bank := d.fld (Fld.mk .NVS_WORD 0 1) 1, second := false, recovery := false },
                    pins := { d.pins with spi := true } }
  if d.pins.strapBoot = 2#2 then d.enterRecovery else d

/-- What every cold and warm reset clears and keeps: fuses, the persistent store, the permanent records, the own epoch of each
link, raised by one, and, in a warm reset, the circulating records, the staged image, and pins that hold. -/
def Dev.clear (d : Dev) (warm : Bool) : Dev :=
  let r := Dev.reset d.part
  let evr := { r.evr with perm := d.evr.perm, permNext := d.evr.permNext, permUsed := d.evr.permUsed, f4Count := d.evr.f4Count,
                          fullRaised := d.evr.fullRaised, wear := d.evr.wear, circ := if warm then d.evr.circ else [],
                          circNext := if warm then d.evr.circNext else 0 }
  let sec := { r.sec with step := 0, debugOpen := d.sec.debugOpen, custKey := d.sec.custKey, staged := d.sec.staged,
                          stagedBank := d.sec.stagedBank }
  let pins := { r.pins with strapRole := d.pins.strapRole, strapBoot := d.pins.strapBoot, thermtrip := warm && d.pins.thermtrip,
                            modrst := if warm then d.pins.modrst else [] }
  let x : Dev := { r with regs := d.regs.filter fun e => keptRegs.any fun k => k.code == e.1 }
  let x : Dev := { x with evr := evr, sec := sec, pins := pins, nvs := d.nvs, free := d.free, out := d.out, wipe := true }
  let x := (x.setFld F.SEC_STATUS_CUST_KEY 0 (d.fld F.SEC_STATUS_CUST_KEY 0)).nvsStatus
  let x := (x.setFld F.EVR_STATUS_PERM_USED 0 x.evr.permUsed).setFld F.EVR_STATUS_CIRC_COUNT 0 x.evr.circNext
  (List.range 128).foldl (fun (x : Dev) p => x.setFld F.LNK_EPOCH_OWN p (d.fld F.LNK_EPOCH_OWN p + 1)) x

/-- COLD_RESET: PWRGOOD rises; the straps are sampled. DEDUCED, unsafe (assumption 110). -/
def execColdReset (role boot : BitVec 2) (s : State) : Host.Outcome State Fault Refusal :=
  s.run fun d =>
    if d.pins.pwrgood then d
    else
      let d := d.clear false
      ({ d with pins := { d.pins with strapRole := role, strapBoot := boot } }).startBoot

/-- Programmes every queued persistent write. -/
def Dev.nvsDrain : Nat → Dev → Dev
  | 0, d => d
  | n + 1, d => Dev.nvsDrain n d.nvsProgrammed

/-- A queued write that power may have cut short: the word holds its old value or the new one (R502).
DESIGN CHOICE, safe (assumption 111). -/
def Dev.nvsTorn (d : Dev) : Dev :=
  d.nvs.queue.foldl (fun (d : Dev) (e : Nat × Word) =>
    let (v, d) := d.fresh
    if v.getLsbD 0 then { d with nvs := { d.nvs with stored := Tbl.set d.nvs.stored e.1 e.2 } }
    else d) d

/-- Words read as they are stored. -/
def Dev.nvsReload (d : Dev) : Dev :=
  let d := d.nvs.queue.foldl (fun (d : Dev) (e : Nat × Word) => d.setReg .NVS_WORD e.1 (Tbl.getD d.nvs.stored e.1 0#32)) d
  ({ d with nvs := { d.nvs with queue := [] } }).nvsStatus

/-- POWER_DOWN: PWRGOOD falls. While `VDD_NVS` is held up, the queued persistent writes complete (R502, R517). Every pin is
released. -/
def execPowerDown (held : Bool) (s : State) : Host.Outcome State Fault Refusal :=
  s.run fun d =>
    if !d.pins.pwrgood then d
    else
      let d := if held then Dev.nvsDrain 17 d else d.nvsTorn.nvsReload
      let pins := { Pins.reset with pwrgood := false, spi := false, strapRole := d.pins.strapRole, strapBoot := d.pins.strapBoot }
      { d with pins := pins, sec := { d.sec with step := 0 } }

/-- Host-lane ports whose `PERST_N` the device drives: DOWNSTREAM and POOL (R373). -/
def Dev.perstPorts (d : Dev) : List Nat := (List.range 48).filter fun n => decide (2 ≤ d.hlRole n)

/-- WARM_RESET: `SYS_RST_N` is low. Nothing is sent, and `PERST_N` of every DOWNSTREAM and POOL port is asserted (R485). -/
def execWarmReset (s : State) : Host.Outcome State Fault Refusal :=
  s.run fun d =>
    if d.inReset then d
    else
      let ports := d.perstPorts
      let d := d.clear true
      let d := { d with pins := { d.pins with sysRst := true, spi := false, perst := ports } }
      ports.foldl (fun (d : Dev) n => d.setFld F.HSW_PORT_STATUS_PERST n 1) d

/-- WARM_RESET_RELEASE: `SYS_RST_N` rises, and boot begins. -/
def execWarmResetRelease (s : State) : Host.Outcome State Fault Refusal :=
  s.run fun d =>
    if d.pins.pwrgood && d.pins.sysRst then ({ d with pins := { d.pins with sysRst := false } }).startBoot else d

/-! Images (R490, R491). -/

/-- Bytes of the area an image of a KIND may fill, less its header (Table 18-3). -/
def bodyLimit (kind : Nat) : Nat := (if kind = 1 then 15 * 2 ^ 20 else if kind = 0 then 2 ^ 20 else 16 * 2 ^ 20) - 16384

/-- The failure code of the first check that an image fails; 0 when it passes (Table 18-5). What was read and verified is given
with the image. -/
def Dev.imageCode (d : Dev) (i : Image) (kind : Nat) : Nat :=
  let cust := d.flag F.SEC_STATUS_CUST_KEY 0
  firstCode
    [(!i.readOk, 1), (!i.magicOk, 2),
     (i.format != 1#8 || i.kind.toNat != kind || decide (64 < i.svn.toNat) || decide (bodyLimit kind < i.length.toNat), 3),
     (!i.keyUnnasOk, 4), (!i.sigUnnasOk, 5), (cust && (!i.flags.getLsbD 0 || i.custPk != d.sec.custKey), 6), (cust &&
         !i.sigCustOk, 7),
     (!i.digestOk, 8), (decide (i.svn.toNat < d.fld F.SEC_SVN_COUNT kind), 9)]

/-- An image failed: the event carries KIND and the code (Table 18-17). -/
def Dev.imageFail (d : Dev) (kind code : Nat) : Dev := d.raise 0x1503 [kind, code]

/-! Boot (R492, R494). -/

/-- The stored host-switch settings of group `g` take effect (R372): its ports that have a role leave DISABLED, and `PERST_N`
follows. -/
def Dev.applyGroup (d : Dev) (g : Nat) : Dev :=
  let ps := (List.range 4).map (4 * g + ·)
  let d := { d with hsw := { d.hsw with grp := Tbl.set d.hsw.grp g (d.rd .HSW_GRP_CFG g),
                                        port := ps.foldl (fun t n => Tbl.set t n (d.rd .HSW_PORT_CFG n)) d.hsw.port },
                    pins := { d.pins with perst := d.pins.perst.filter fun n => n / 4 != g } }
  ps.foldl (fun (d : Dev) n =>
    let on := d.hlRole n != 0 && F.HSW_GRP_CFG_ENABLE.ofWord (d.grpCfg g) == 1
    (d.setFld F.HSW_PORT_STATUS_STATE n (if on then 1 else 0)).setFld F.HSW_PORT_STATUS_PERST n 0) d

/-- A package is refused (R413). -/
def Dev.pkgRefused (d : Dev) (k : Nat) : Dev := (d.setFld F.ENG_STATUS_PKG_REFUSED 0 1).raise 0x1204 [k]

/-- A verified package is LOADED in slot `k` (R413). -/
def Dev.pkgLoad (d : Dev) (k : Nat) (pkg : Pkg) : Dev :=
  let d := d.setReg .ENG_PKG_STATUS k (F.ENG_PKG_STATUS_HANDLERS.put (F.ENG_PKG_STATUS_STATE.put 0#32 1) pkg.handlers.toNat)
  let d := d.setReg .ENG_PKG_ID k (pkg.id ++ pkg.version)
  let d := (List.range 16).foldl (fun (d : Dev) i => d.setReg .ENG_PKG_COST (16 * k + i) ((pkg.costs.getD i 0#16).setWidth 32)) d
  { d with eng := { d.eng with image := Tbl.set d.eng.image k pkg.image, minHr := Tbl.set d.eng.minHr k pkg.minHr,
                               retain := Tbl.set d.eng.retain k pkg.retain } }

/-- Hedgerows that a mask names. -/
def hrList (m : BitVec 64) : List Nat := (List.range 64).filter fun h => m.getLsbD h

/-- The lowest SERVICE endpoint that no package has. -/
def Dev.freeService (d : Dev) : Option Nat :=
  ((List.range 6).map (25 + ·)).find? fun e => (List.range 6).all fun j => d.fld F.ENG_PKG_STATUS_ENDPOINT j != e

/-- A LOADED package is ENABLED with endpoint `e` (R413, R414): packets for it enter at the engine port of its lowest hedgerow. -/
def Dev.pkgEnable (d : Dev) (k e : Nat) (hrs : BitVec 64) (queues : List (BitVec 16)) (ctx : BitVec 16) : Dev :=
  let d := (d.setFld F.ENG_PKG_STATUS_STATE k 2).setFld F.ENG_PKG_STATUS_ENDPOINT k e
  let d := (d.setReg .ENG_PKG_HR_LO k (hrs.setWidth 32)).setReg .ENG_PKG_HR_HI k ((hrs >>> 32).setWidth 32)
  let d := d.setReg .RTE_EP e (BitVec.ofNat 32 (144 + (hrList hrs).headD 0 / 8))
  let qs := (queues.map (·.toNat)).filter fun q => (Tbl.get d.own.queue q).isNone && d.part.code != .tn
  ({ d with eng := { d.eng with queuesOf := Tbl.set d.eng.queuesOf k qs, ctx := Tbl.set d.eng.ctx k ctx.toNat } }).raise 0x1203 [k]

/-- Whether a package may be enabled on the hedgerows of a mask (R412). -/
def hrsOk (m : BitVec 64) (least : Nat) : Bool := !(hrList m).isEmpty && decide (least ≤ (hrList m).length)

/-- Step 5 loads an enabled package (R492): one that fails the checks of R491 is refused. -/
def Dev.bootPkg (d : Dev) (x : BootPkg) : Dev :=
  let k := x.slot.val
  let code := d.imageCode x.pkg.image 2
  if d.fld F.ENG_PKG_STATUS_STATE k ≠ 0 ∨ !hrsOk x.hrs x.pkg.minHr ∨ (x.pkg.queues ∧ d.part.code = .tn) then d
  else if code ≠ 0 then (d.imageFail 2 code).pkgRefused k
  else
    let d := d.pkgLoad k x.pkg
    match d.freeService with
    | some e => d.pkgEnable k e x.hrs x.queues x.ctx
    | none => d.pkgRefused k

/-- Step 5: firmware starts the control complex, assigns the endpoints of R170 and answers for the hierarchies that are ACTIVE
(R376, R396), and the packages `pkgs` are loaded. DESIGN CHOICE, unsafe (assumption 112). -/
def Dev.bootDone (d : Dev) (pkgs : List BootPkg) : Dev :=
  let d := { d with sec := { d.sec with step := 6 }, pins := { d.pins with spi := false },
                    cc := { d.cc with checkin := d.clk.edges } }
  let d := d.setReg .GLB_FW_VERSION 0 ((d.sec.fw.map (·.version)).getD 0#32)
  let d := d.setFld F.SEC_STATUS_SOURCE 0 (if d.sec.recovery then 2 else d.sec.bank)
  let d := (List.range 24).foldl (fun (d : Dev) h =>
    let d := if d.hierActive h then d.setFld F.HSW_HIER_READY h 1 else d
    if 128 ≤ d.fld F.HSW_HIER_IPORT h then d.setReg .RTE_EP h (BitVec.ofNat 32 (d.fld F.HSW_HIER_IPORT h)) else d) d
  let d := if d.part.hasMbr then d.setReg .RTE_EP 24 128#32 else d
  let d := pkgs.foldl Dev.bootPkg d
  let d := if d.sec.debugOpen then (d.setFld F.SEC_STATUS_DEBUG 0 1).raise 0x1504 [] else d
  let active := d.fld (Fld.mk .NVS_WORD 0 1) 1
  if !d.sec.recovery ∧ d.sec.bank ≠ active then d.raise 0x1501 [] else d

/-- A bank's failure code is kept. -/
def Dev.bankFail (d : Dev) (code : Nat) : Dev :=
  d.setFld (if d.sec.bank = 0 then F.SEC_STATUS_FAIL_A else F.SEC_STATUS_FAIL_B) 0 code

/-- An image of the bank at hand failed: boot goes on at step 2 with the other bank, or enters recovery. -/
def Dev.nextBank (d : Dev) : Dev :=
  if d.sec.second then d.enterRecovery
  else { d with sec := { d.sec with bank := 1 - d.sec.bank, second := true, step := 2, first := none } }

/-- BOOT_IMAGE_LOADED: the first-stage image at step 2, or the firmware image at step 4, has been read and is checked. -/
def execBootImageLoaded (x : BootLoad) (s : State) : Host.Outcome State Fault Refusal :=
  s.run fun d =>
    let step := d.sec.step
    if d.halted ∨ d.sec.recovery ∨ (step ≠ 2 ∧ step ≠ 4) then d
    else
      let kind := if step = 2 then 0 else 1
      let code := d.imageCode x.image kind
      if code ≠ 0 then ((d.bankFail code).imageFail kind code).nextBank
      else if kind = 0 then { d with sec := { d.sec with first := some x.image, step := 3 } }
      else (({ d with sec := { d.sec with fw := some x.image } }).bankFail 0).bootDone x.pkgs

/-- HBM_TRAINING_DONE: step 3. A stack that fails its training is F4 (Table 16-2); else the persistent host-switch settings are
applied, so that upstream links may train. -/
def execHbmTrainingDone (x : Training) (s : State) : Host.Outcome State Fault Refusal :=
  s.run fun d =>
    if d.halted ∨ d.sec.step ≠ 3 then d
    else if !x.ok && d.part.hasHbm then d.enterF4 4 0x0002
    else
      let d := (List.range 12).foldl (fun (d : Dev) g => d.applyGroup g) d
      if d.sec.recovery then d.bootDone x.pkgs else { d with sec := { d.sec with step := 4 } }

/-- SEC_RECOVERY: an image received over MCTP is checked: a first-stage image, then a firmware image; when both have passed, boot
goes on at step 3. -/
def execSecRecovery (img : Image) (s : State) : Host.Outcome State Fault Refusal :=
  s.run fun d =>
    if d.halted ∨ !d.sec.recovery ∨ d.sec.step ≠ 2 then d
    else
      let kind := if d.sec.first.isNone then 0 else 1
      let code := d.imageCode img kind
      if code ≠ 0 then d.imageFail kind code
      else if kind = 0 then { d with sec := { d.sec with first := some img } }
      else { d with sec := { d.sec with fw := some img, step := 3 } }

end Sys2Proof.Machine
end

