-- ==== Sys2Proof/Machine/Clock.lean ====
section
/-!
DEFINITION. The clock state machine (R14 to R26, Tables 01-1 and 01-2) and the holding of tick-aligned writes (R35).
-/

namespace Sys2Proof.Machine

/-- `TCK_STATUS.CLK_STATE` (Table 01-1): 0 UNLOCKED, 1 ROOT, 2 PARENT, 3 STANDBY, 4 HOLDOVER, 5 ISLAND, 6 REF_STEER. -/
def Dev.clkState (d : Dev) : Nat := d.fld F.TCK_STATUS_CLK_STATE 0

/-- Whether port `p` sends a forwarded clock: in every clock state but UNLOCKED, from stage 2 of a bring-up on; none in F4 or
in reset (R17, R60, R450). -/
def Dev.sendsClock (d : Dev) (p : Nat) : Bool :=
  d.clkState != 0 && !d.halted && ((d.phyState p == 3 && decide (2 ≤ d.phyStage p)) || decide (4 ≤ d.phyState p))

/-- Whether a port has a live forwarded clock that R15 does not refuse. -/
def Dev.clockUsable (d : Dev) (p : Nat) : Bool := d.clk.live.contains p && !d.clk.refused.contains p

/-- Enters a clock state, locked to `port`; 0xFF where it is locked to none (Table 01-9). -/
def Dev.enterClk (d : Dev) (st port : Nat) : Dev :=
  (d.setFld F.TCK_STATUS_CLK_STATE 0 st).setFld F.TCK_PARENT_ACTIVE 0 port

/-- FABRIC becomes 1 and EPOCH counts one more; the boundary steps to the aligned position, so that offsets measured before it
are void (R14, R26). -/
def Dev.gainFabric (d : Dev) : Dev :=
  let d := { d with clk := { d.clk with offs := [] } }
  let d := (d.setFld F.TCK_STATUS_FABRIC 0 1).setFld F.TCK_STATUS_EPOCH 0 (d.fld F.TCK_STATUS_EPOCH 0 + 1)
  (d.setFld F.TCK_STATUS_ALIGNED 0 1).setFld F.TCK_STATUS_ALIGN_ERR 0 0

/-- Locks to a named port: PARENT when it is the named parent, otherwise STANDBY (Table 01-2). -/
def Dev.lockNamed (d : Dev) (p : Nat) : Dev := d.enterClk (if d.parentPort = p then 2 else 3) p

/-- The named port HOLDOVER takes: the parent when both are usable. DEDUCED, unsafe (assumption 138). -/
def Dev.namedSource (d : Dev) : Option Nat :=
  [d.parentPort, d.fld F.TCK_PARENT_STANDBY 0].find? d.clockUsable

/-- In HOLDOVER with neither named port live and REF_OK set, the device steers to its reference (Table 01-2).
DEDUCED, unsafe (assumption 27). -/
def Dev.refSteer (d : Dev) : Dev :=
  if d.clkState = 4 ∧ d.namedSource = none ∧ d.flag F.TCK_PARENT_REF_OK 0 = true then
    (d.enterClk 6 0xFF).raise 0x130A []
  else d

/-- The active source is lost: HOLDOVER, and REF_STEER where it applies. -/
def Dev.loseSource (d : Dev) : Dev :=
  let p := d.fld F.TCK_PARENT_ACTIVE 0
  let d := { d.enterClk 4 0xFF with clk := { d.clk with holdoverAt := d.clk.edges, planned := none } }
  ((d.raise 0x1302 [p]).fault3 0x1302).refSteer

/-- The entry into ROOT from UNLOCKED at a boundary (R14). -/
def Dev.enterRoot (d : Dev) : Dev :=
  if d.clkState = 0 ∧ d.flag F.TCK_PARENT_ROOT 0 = true then (d.enterClk 1 0xFF).gainFabric else d

/-- FWD_CLOCK_DETECTED: clock-lane detect finds a forwarded clock. An unlocked device that is not the root locks to the
lowest-numbered such port as its provisional parent and loads the tick number (R14, R18). DEDUCED, unsafe (assumption 24). -/
def execFwdClockDetected (p : Port) (tick : Tick) (s : State) : Host.Outcome State Fault Refusal :=
  s.run fun d =>
    if d.inReset ∨ !(d.inStage p.val 2 || (d.phyState p.val == 6 && d.phyStage p.val == 2)) then d
    else
      let d := (d.clockLive p.val true).refSteer
      if d.clkState ≠ 0 ∨ d.flag F.TCK_PARENT_ROOT 0 = true then d
      else
        let q := d.clk.live.foldl min p.val
        let d := { d with clk := { d.clk with tick := tick, prev := tick, provisional := some q } }
        (d.enterClk 2 q).gainFabric

/-- What a write of `TCK_PARENT` does (R41): the fields are stored, and in a state whose rows take it up a planned switchover
begins, in place of one that an earlier write began. The entry into ROOT comes at the next boundary; the ISLAND rows come with
ISLAND_RESTEER. DEDUCED, unsafe (assumption 26). -/
def Dev.parentWrite (d : Dev) (v m : Word) : Dev :=
  let d := d.setReg .TCK_PARENT 0 (Reg.merge .TCK_PARENT (d.rd .TCK_PARENT 0) v m)
  let p := d.fld F.TCK_PARENT_PARENT 0
  let st := d.clkState
  let takes := st == 1 || st == 2 || st == 3 || st == 4 || st == 6
  let here := st == 2 && d.fld F.TCK_PARENT_ACTIVE 0 == p
  let plan := if takes && !d.flag F.TCK_PARENT_ROOT 0 && d.clockUsable p && !here then some p else none
  { d with clk := { d.clk with planned := plan } }.refSteer

/-- TCK_PARENT_WRITE: accepted at L0 only (R41). -/
def execTckParentWrite (src : Src) (v : Word) (s : State) : Host.Outcome State Fault Refusal :=
  s.run fun d => if d.level src = 0 ∧ !d.inReset then d.parentWrite v (~~~0#32) else d

/-- PLANNED_SWITCHOVER: the switchover completes on the named port; it is dropped when that port can be no source any more. -/
def execPlannedSwitchover (s : State) : Host.Outcome State Fault Refusal :=
  s.run fun d =>
    match d.clk.planned with
    | none => d
    | some p =>
      let d := { d with clk := { d.clk with planned := none } }
      if d.clockUsable p ∧ d.clkState ≠ 0 ∧ d.clkState ≠ 5 then d.enterClk 2 p else d.refSteer

/-- TCK_PARENT_LOSS: the active source is lost 1 tick after its last edge, or R15 has refused it (Table 01-2). -/
def execTckParentLoss (refused : Bool) (s : State) : Host.Outcome State Fault Refusal :=
  s.run fun d =>
    let p := d.fld F.TCK_PARENT_ACTIVE 0
    if !(d.clkState == 2 || d.clkState == 3) || (refused && !d.clk.refused.contains p) then d
    else (if refused then d else d.clockLive p false).loseSource

/-- TCK_SWITCHOVER: in HOLDOVER a named port has a live forwarded clock, and the device locks to it (Table 01-2). -/
def execTckSwitchover (p : Port) (s : State) : Host.Outcome State Fault Refusal :=
  s.run fun d =>
    if d.clkState = 4 ∧ d.namedSource = some p.val then (d.lockNamed p.val).raise 0x1303 [p.val] else d.refSteer

/-- Takes down with CLOCK every port that does not lead into the device's own clock subtree (R23).
DEDUCED, unsafe (assumption 28). -/
def Dev.islandPorts (d : Dev) (subtree : List Port) : Dev :=
  (List.range 128).foldl (fun d p => if subtree.any (fun q => q.val == p) then d else d.phyDown p 0x13) d

/-- TCK_HOLDOVER_EXPIRED: neither named port was live for 78,125 ticks, so the device enters ISLAND (R21, R23).
DEDUCED, unsafe (assumption 139). -/
def execTckHoldoverExpired (subtree : List Port) (s : State) : Host.Outcome State Fault Refusal :=
  afterDown (s.run fun d =>
    let d := d.refSteer
    if d.clkState = 4 ∧ d.namedSource = none ∧ d.clk.holdoverAt + 78125 ≤ d.clk.edges then
      ((d.enterClk 5 0xFF).raise 0x1304 []).islandPorts subtree
    else d)

/-- REF_STEER_COMPLETE: the held frequency has reached the reference, and the device becomes ROOT (Table 01-2, R14). While a
planned switchover is under way the device leaves REF_STEER for PARENT instead. -/
def execRefSteerComplete (s : State) : Host.Outcome State Fault Refusal :=
  s.run fun d => if d.clkState = 6 ∧ d.clk.planned = none then (d.enterClk 1 0xFF).setFld F.TCK_PARENT_ROOT 0 1 else d

/-- ISLAND_RESTEER: a named port completed bring-up to a locked neighbour and the device has steered to it; ports that are
down with CLOCK begin a new bring-up (R22, R63). -/
def execIslandResteer (p : Port) (s : State) : Host.Outcome State Fault Refusal :=
  s.run fun d =>
    if d.clkState = 5 ∧ d.namedParent p.val = true ∧ d.phyState p.val = 4 ∧ d.clockUsable p.val = true then
      (List.range 128).foldl (fun (d : Dev) q =>
        if d.phyState q = 1 ∧ d.fld F.PHY_STATUS_REASON q = 0x13 ∧ d.flag F.PHY_CTRL_ENABLE q = true then d.wantBringup q else d)
        (d.lockNamed p.val)
    else d

/-- PATH_DELAY_MEASURE: every 1,024 ticks a port measures its one-way delay (R24); `delay` is in units of 10 ps.
DEDUCED, unsafe (assumption 29). -/
def execPathDelayMeasure (p : Port) (delay : BitVec 24) (s : State) : Host.Outcome State Fault Refusal :=
  s.run fun d => if d.phyState p.val = 4 ∧ !d.inReset then d.pathDelay p.val delay else d

/-- A write of `TCK_HOLD` by the function that holds it: setting HOLD makes its tick-aligned writes accumulate, and clearing it
applies them all at one boundary (R35). -/
def Dev.holdWrite (d : Dev) (fn : Nat) (late on : Bool) : Dev :=
  let was := d.flag F.TCK_HOLD_HOLD fn
  let d := d.setFld F.TCK_HOLD_HOLD fn (if on then 1 else 0)
  if on && !was then { d with clk := { d.clk with holdAt := Tbl.set d.clk.holdAt fn d.clk.edges } }
  else if was && !on then d.releaseHold fn late
  else d

/-- TCK_HOLD_WRITE: accepted at L0 and L1 from the physical function itself (R39). DEDUCED, unsafe (assumption 30). -/
def execTckHoldWrite (src : Src) (v : Word) (late : Bool) (s : State) : Host.Outcome State Fault Refusal :=
  s.run fun d =>
    match src with
    | .pf _ => if d.level src ≤ 1 ∧ !d.inReset then d.holdWrite src.fn late (v.getLsbD 0) else d
    | _ => d

/-- TCK_HOLD_TIMEOUT: a hold has lasted 65,536 ticks: its writes are applied at the next boundary, HOLD is cleared, and the
event is raised (R35). -/
def execTckHoldTimeout (src : Src) (s : State) : Host.Outcome State Fault Refusal :=
  s.run fun d =>
    match Tbl.get d.clk.holdAt src.fn with
    | some e =>
      if e + 65536 ≤ d.clk.edges then ((d.releaseHold src.fn false).setFld F.TCK_HOLD_HOLD src.fn 0).raise 0x1307 [src.fn] else d
    | none => d

end Sys2Proof.Machine
end

