-- ==== Sys2Proof/Machine/CmdGen.lean ====
section
/-!
DEFINITION. Mailbox commands: general, resource, port and routing commands (Tables 15-5 and 15-6), and the security commands
(Table 18-11).
-/

namespace Sys2Proof.Machine

/-! Table 15-5. -/

/-- DESCRIBE: an identity, endpoint, package or pool-source page (R3, R436). DEDUCED, unsafe (assumption 137). -/
def execDescribe (ch : Chan) (s : State) : Host.Outcome State Fault Refusal :=
  s.run fun d => d.serve ch 1 false [0, 1, 2] fun d =>
    let i := d.arg ch.val 2
    match d.arg ch.val 1 with
    | 0 => (0, [word d.part.codeNum, d.part.glbCaps0, d.part.glbCaps1, d.rd .GLB_FW_VERSION 0, d.rd .RTE_ID 0,
                Config.vendorId.setWidth 32], d)
    | 1 => (0, bytesWords ((List.range 32).map fun e => BitVec.ofNat 8 (d.fld F.RTE_EP_PORT e)), d)
    | 2 =>
      if 6 ≤ i then d.refuse 4
      else (0, [d.rd .ENG_PKG_ID i, word (d.fld F.ENG_PKG_STATUS_ENDPOINT i), d.rd .ENG_PKG_HR_LO i, d.rd .ENG_PKG_HR_HI i], d)
    | 3 =>
      match d.mbr.sources[i]? with
      | none => d.refuse 4
      | some (e, kind, gib, _) =>
        let v := d.protAt d.tickNow e
        (0, [word kind, word (e + v.tag * 2 ^ 17), word v.gen, word gib], d)
    | _ => d.refuse 4

/-- Whether an activation is running. -/
def Dev.activating (d : Dev) : Bool := d.cc.activating.isSome

/-- FW_STAGE: the image in the named pages is written to the inactive bank and checked (R489, R491); one that fails is not staged
and ends the command with DENIED. DEDUCED, unsafe (assumption 107). -/
def execFwStage (ch : Chan) (img : Image) (s : State) : Host.Outcome State Fault Refusal :=
  s.run fun d => d.serve ch 2 false [0] fun d =>
    let first := d.arg ch.val 1
    let n := d.arg ch.val 2
    match firstCode [(!d.bulkOk ch.val first n, 4), (d.activating, 5)] with
    | 0 =>
      let d := d.bulkBack ch.val first n
      match d.imageCode img 1 with
      | 0 =>
        let bank := 1 - d.fld (Fld.mk .NVS_WORD 0 1) 1
        -- The flash pins are driven while the bank is written (Table 19-3).
        (1, [], ({ d with sec := { d.sec with staged := some img, stagedBank := bank },
                          pins := { d.pins with spi := true } }).outcome (some ch.val) 0 [])
      | c => (1, [], (d.imageFail 1 c).outcome (some ch.val) 6 [])
    | c => d.refuse c

/-- FW_ACTIVATE: a restart into the staged image, which must read the format of the latest coppice point (R456). It finishes when
step 5 of the new image is complete. -/
def execFwActivate (ch : Chan) (s : State) : Host.Outcome State Fault Refusal :=
  s.run fun d => d.serve ch 3 false [0] fun d =>
    let reads := fun (i : Image) => d.cc.latest.all fun c => decide (i.cpReadMin.toNat ≤ c.format ∧ c.format ≤ i.cpWrite.toNat)
    let moved := decide (d.fld (Fld.mk .NVS_WORD 0 1) 1 ≠ d.sec.stagedBank)
    match firstCode [(!d.sec.staged.any reads || d.activating, 5), (moved && d.worn 1, 9)] with
    | 0 =>
      let d := { d with sec := { d.sec with prev := d.sec.fw }, cc := { d.cc with activating := some ch.val } }
      (1, [], d.ccRestart 2)
    | c => d.refuse c

/-- REG_READ. DEDUCED, unsafe (assumption 136). -/
def execRegRead (ch : Chan) (s : State) : Host.Outcome State Fault Refusal :=
  s.run fun d => d.serve ch 4 false [0] fun d =>
    let off := d.arg ch.val 1
    if 0x2000000 ≤ off ∨ off % 4 ≠ 0 then d.refuse 4
    else
      let r := d.readWord 4224 off
      (0, [r.1], r.2)

/-- POWER_LIMIT: stages `PWR_LIMIT` for the boundary that opens tick T + 2 (R32, R417). -/
def execPowerLimit (ch : Chan) (s : State) : Host.Outcome State Fault Refusal :=
  s.run fun d => d.serve ch 6 false [0, 4] fun d =>
    let w := d.arg ch.val 1
    let d := d.stage 4224 true (.reg .PWR_LIMIT 0 (word (min w 1023)) F.PWR_LIMIT_WATTS.mask)
    (0, word (min 560 (max 150 w)) :: tickWords d.clk.tick, d)

/-- POWER_QUERY. -/
def execPowerQuery (ch : Chan) (s : State) : Host.Outcome State Fault Refusal :=
  s.run fun d => d.serve ch 7 false [0, 1] fun d =>
    (0, [d.rd .PWR_STATUS 0, d.rd .PWR_BUDGET 0] ++ (List.range 11).map fun i => if Reg.absent d.part .PWR_DIE i then 0#32 else d.rd .PWR_DIE i, d)

/-! Resources (R436, R540, R541). -/

/-- How many resources of a TYPE there are; protection entries count in blocks of 1,024. -/
def resCount : Nat → Nat
  | 4 => 4096
  | 5 => 128
  | _ => 65536

/-- Which function holds resource `i` of a TYPE below 5. -/
def Dev.resOwner (d : Dev) (ty i : Nat) : Option Nat :=
  match ty with
  | 0 => Tbl.get d.own.queue i
  | 1 => Tbl.get d.own.domain i
  | 2 => Tbl.get d.own.mctx i
  | 3 => Tbl.get d.own.xctx i
  | _ => Tbl.get d.own.lock i

/-- Gives such a resource to a function, or to none. -/
def Dev.setOwner (d : Dev) (ty : Nat) (o : Option Nat) (i : Nat) : Dev :=
  let put := fun (t : Tbl Nat) => match o with
    | some f => Tbl.set t i f
    | none => Tbl.erase t i
  match ty with
  | 0 => { d with own := { d.own with queue := put d.own.queue } }
  | 1 => { d with own := { d.own with domain := put d.own.domain } }
  | 2 => { d with own := { d.own with mctx := put d.own.mctx } }
  | 3 => { d with own := { d.own with xctx := put d.own.xctx } }
  | _ => { d with own := { d.own with lock := put d.own.lock } }

/-- Whether protection entry `i` is free: EN = 0 in the version in force, nothing staged for it, and no version retained
(R541). -/
def Dev.entryFree (d : Dev) (i : Nat) : Bool :=
  !(d.protAt d.tickNow i).en && decide ((keptVersions d.settled (Tbl.getD d.prot.ents i [])).length ≤ 1) &&
    d.clk.staged.all fun x => match x.act with
      | .prot j _ => j != i
      | _ => true

/-- Whether a block of 1,024 entries is free; entries that were never used need no look. -/
def Dev.blockFree (d : Dev) (b : Nat) : Bool :=
  (d.prot.ents.all fun e => e.1 / 1024 != b || d.entryFree e.1) &&
    d.clk.staged.all fun x => match x.act with
      | .prot j _ => j / 1024 != b
      | _ => true

/-- Whether a resource is DISABLED or FREE. -/
def Dev.resIdle (d : Dev) (ty i : Nat) : Bool :=
  match ty with
  | 0 => d.qState i == 0
  | 1 => true
  | 2 => d.mctxState i == 0
  | 3 => d.xctxState i == 0
  | 4 => (d.lockOf i).holder.isNone
  | _ => d.blockFree i

/-- Blocks of a physical function's `XLT_RGN_RANGE`. -/
def Dev.rangeHas (d : Dev) (pf b : Nat) : Bool :=
  decide (d.fld F.XLT_RGN_RANGE_FIRST pf ≤ b ∧ b < d.fld F.XLT_RGN_RANGE_FIRST pf + d.fld F.XLT_RGN_RANGE_COUNT pf)

/-- The physical function whose range holds a block. -/
def Dev.rangeOf (d : Dev) (b : Nat) : Option Nat := ((List.range 24).map (4096 + ·)).find? fun f => d.rangeHas f b

/-- Whether a function exists on this part: a virtual function once it is assigned. -/
def Dev.fnExists (d : Dev) (f : Nat) : Bool :=
  if f < 4096 then (Tbl.get d.own.vfHier f).isSome else decide (f < 4096 + d.part.hiers)

/-- RES_ASSIGN for TYPE 5. -/
def Dev.assignRange (d : Dev) (level ch first n dst : Nat) : Reply :=
  let bs := (List.range n).map (first + ·)
  if 4096 ≤ dst then
    match firstCode [(level != 0, 6), (d.fld F.XLT_RGN_RANGE_COUNT dst != 0 || bs.any (fun b => (d.rangeOf b).isSome) ||
        !bs.all d.blockFree, 5)] with
    | 0 => (0, [], (d.setFld F.XLT_RGN_RANGE_FIRST dst first).setFld F.XLT_RGN_RANGE_COUNT dst n)
    | c => d.refuse c
  else
    let pf := d.pfOf dst
    match firstCode [(level != 0 && (pf != ch || !bs.all (d.rangeHas ch)), 6),
        (!bs.all (fun b => d.rangeHas pf b && (Tbl.get d.own.prot b).isNone && d.blockFree b), 5)] with
    | 0 => (0, [], { d with own := { d.own with prot := bs.foldl (fun t b => Tbl.set t b dst) d.own.prot } })
    | c => d.refuse c

/-- RES_ASSIGN. -/
def execResAssign (ch : Chan) (s : State) : Host.Outcome State Fault Refusal :=
  s.run fun d => d.serve ch 0x10 false [0, 1] fun d =>
    let c := ch.val
    let ty := d.argBits c 1 0 4
    let first := d.arg c 2
    let n := d.arg c 3
    let dst := d.argBits c 4 0 13
    let level := d.chLevel c
    let is := (List.range (min n 65536)).map (first + ·)
    let bad := decide (5 < ty ∨ n = 0 ∨ resCount ty < first + n ∨ 4120 ≤ dst) || !d.fnExists dst
    if ty = 5 ∧ !bad then d.assignRange level c first n dst
    else
      let ours := fun (i : Nat) => match d.resOwner ty i with
        | some o => d.pfOf o == c
        | none => false
      let free := fun (i : Nat) => d.resIdle ty i && d.resOwner ty i == (if level = 0 then none else some c)
      match firstCode [(level == 1 && (decide (4096 ≤ dst) || d.pfOf dst != c || (!bad && !is.all ours)), 6), (bad, 4),
          (!is.all free, 5)] with
      | 0 => (0, [], is.foldl (fun (d : Dev) i => d.setOwner ty (some dst) i) d)
      | e => d.refuse e

/-- RES_RELEASE for TYPE 5: blocks that virtual functions hold go back to their physical function; a whole range ends. -/
def Dev.releaseRange (d : Dev) (level ch first n : Nat) : Reply :=
  let bs := (List.range n).map (first + ·)
  let given := bs.all fun b => (Tbl.get d.own.prot b).isSome
  let whole := (List.range 24).find? fun h => d.fld F.XLT_RGN_RANGE_FIRST (4096 + h) == first &&
    d.fld F.XLT_RGN_RANGE_COUNT (4096 + h) == n && bs.all fun b => (Tbl.get d.own.prot b).isNone
  let ours := level == 0 || bs.all (d.rangeHas ch)
  match firstCode [(!ours, 6), (!bs.all d.blockFree || (!given && whole.isNone), 5)] with
  | 0 =>
    if given then (0, [], { d with own := { d.own with prot := bs.foldl Tbl.erase d.own.prot } })
    else (0, [], d.setReg .XLT_RGN_RANGE (4096 + whole.getD 0) 0#32)
  | c => d.refuse c

/-- RES_RELEASE: at L0 the resources become unassigned; at L1 those of a virtual function go back to their physical function, and
that function's own become unassigned. DEDUCED, unsafe (assumption 104). -/
def execResRelease (ch : Chan) (s : State) : Host.Outcome State Fault Refusal :=
  s.run fun d => d.serve ch 0x11 false [0, 1] fun d =>
    let c := ch.val
    let ty := d.argBits c 1 0 4
    let first := d.arg c 2
    let n := d.arg c 3
    let level := d.chLevel c
    let is := (List.range (min n 65536)).map (first + ·)
    let bad := decide (5 < ty ∨ n = 0 ∨ resCount ty < first + n)
    if ty = 5 ∧ !bad then d.releaseRange level c first n
    else
      match firstCode [(!bad && !is.all (fun i => d.chOwns c (d.resOwner ty i)), 6), (bad, 4), (!is.all (d.resIdle ty), 5)] with
      | 0 => (0, [], is.foldl (fun (d : Dev) i =>
          d.setOwner ty (if level = 0 ∨ d.resOwner ty i = some c then none else some c) i) d)
      | e => d.refuse e

/-! Table 15-6. -/

/-- PORT_SET: firmware writes `PHY_CFG` and `PHY_CTRL` of the port. -/
def runPortSet (ch : Chan) (s : State) : Host.Outcome State Fault Refusal :=
  s.run fun d => d.serve ch 0x20 false [0] fun d =>
    let p := d.arg ch.val 1
    let b := fun (lo w : Nat) => d.argBits ch.val 2 lo w
    let fixed := b 5 1
    match firstCode [(decide (128 ≤ p), 4), (fixed != d.fld F.PHY_CFG_FIXED p && decide (1 < d.phyState p), 5)] with
    | 0 =>
      let cfg := F.PHY_CFG_MIN_WIDTH.put (F.PHY_CFG_FIXED.put (d.rd .PHY_CFG p) fixed) (b 3 2)
      let d := d.phyCfgWrite .fw p (F.PHY_CFG_AUTO_RESTART.put cfg (b 6 1))
      let ctrl := F.PHY_CTRL_ENABLE.put (F.PHY_CTRL_WIDTH.put (d.rd .PHY_CTRL p) (b 1 2)) (b 0 1)
      (0, [], d.phyCtrlWrite .fw p (F.PHY_CTRL_RETRAIN.put ctrl (b 7 1)))
    | c => d.refuse c

/-- PORT_SET, with its effect on collective groups. -/
def execPortSet (ch : Chan) (s : State) : Host.Outcome State Fault Refusal := afterDown (runPortSet ch s)

/-- PORT_QUERY. -/
def execPortQuery (ch : Chan) (s : State) : Host.Outcome State Fault Refusal :=
  s.run fun d => d.serve ch 0x21 false [0, 1] fun d =>
    let p := d.arg ch.val 1
    if 128 ≤ p then d.refuse 4
    else (0, [d.rd .PHY_STATUS p, d.rd .PHY_MODULE p, d.rd .LNK_STATUS p, d.rd .TCK_PDLY p, d.rd .PHY_BRINGUP_TIME p], d)

/-- PORT_FLUSH (R109). -/
def execPortFlush (ch : Chan) (s : State) : Host.Outcome State Fault Refusal :=
  s.run fun d => d.serve ch 0x22 false [0] fun d =>
    let p := d.arg ch.val 1
    match firstCode [(decide (128 ≤ p), 4), (d.linkState p != 0, 5)] with
    | 0 => (0, [], d.flush .fw p)
    | c => d.refuse c

/-- Entries of a route table and the words of one: candidate sets, group table, device table (Table 05-4). -/
def tableSize : Nat → Nat × Nat × Nat
  | 0 => (2048, 4, 0x10000)
  | 1 => (8192, 1, 0x20000)
  | _ => (131072, 1, 0x80000)

/-- RTE_LOAD: words of the request, or of bulk pages, go into the staged bank (R164). -/
def execRteLoad (ch : Chan) (s : State) : Host.Outcome State Fault Refusal :=
  s.run fun d => d.serve ch 0x30 false [0] fun d =>
    let c := ch.val
    let ty := d.argBits c 1 0 2
    let bulk := d.argBits c 1 31 1 == 1
    let first := d.arg c 2
    let n := d.arg c 3
    let (size, per, base) := tableSize ty
    let page := d.arg c 4
    let pages := d.arg c 5
    let bad := decide (ty = 3 ∨ size < first + n) ||
      (if bulk then !d.bulkOk c page pages || decide (pages * 1024 < n * per) else decide (12 < n * per))
    match firstCode [(bad, 4), (d.bankBusy, 5)] with
    | 0 =>
      let src := if bulk then
          let r := d.load (bulkSpace c) (4096 * page) (4 * per * n)
          (bytesWords r.1, r.2.bulkBack c page pages)
        else ((List.range (n * per)).map fun i => word (d.arg c (4 + i)), d)
      let d := (src.1.zip (List.range (n * per))).foldl (fun (d : Dev) x => d.writeBank .fw (base + 4 * (per * first + x.2)) x.1) src.2
      (0, [], d)
    | e => d.refuse e

/-- RTE_COMMIT (R164). -/
def execRteCommit (ch : Chan) (s : State) : Host.Outcome State Fault Refusal :=
  s.run fun d => d.serve ch 0x31 false [0] fun d =>
    if d.flag F.RTE_TBL_STATUS_PENDING 0 then d.refuse 5
    else (0, [], d.commitBank (d.argBits ch.val 1 0 16) (BitVec.ofNat 64 (d.arg64 ch.val 2)))

/-- RTE_ABORT (R165). -/
def execRteAbort (ch : Chan) (s : State) : Host.Outcome State Fault Refusal :=
  s.run fun d => d.serve ch 0x32 false [0] fun d =>
    if d.flag F.RTE_TBL_STATUS_PENDING 0 then (0, [], d.abortCommit) else d.refuse 5

/-! Table 18-11. -/

/-- SVNs of the images of a KIND that run or are enabled. -/
def Dev.svnsOf (d : Dev) (kind : Nat) : List Nat :=
  let imgs := match kind with
    | 0 => d.sec.first.toList
    | 1 => d.sec.fw.toList
    | _ => (List.range 6).filterMap fun k => if 2 ≤ d.pkgState k then Tbl.get d.eng.image k else none
  imgs.map fun i => i.svn.toNat

/-- SEC_SVN_COMMIT: a fuse counter rises (R495, R496). -/
def execSecSvnCommit (ch : Chan) (s : State) : Host.Outcome State Fault Refusal :=
  s.run fun d => d.serve ch 0xB0 false [0] fun d =>
    let kind := d.argBits ch.val 1 0 2
    let svn := d.argBits ch.val 2 0 7
    let now := d.fld F.SEC_SVN_COUNT kind
    let low := decide (svn ≤ now) || (d.svnsOf kind).any fun v => decide (v < svn)
    match firstCode [(kind == 3 || decide (64 < svn), 4), (decide (now < 64) && low, 5), (decide (64 ≤ now), 8)] with
    | 0 => (0, [word svn], (d.setFld F.SEC_SVN_COUNT kind svn).raise 0x1505 [kind, svn])
    | c => d.refuse c

/-- SEC_KEY_PROGRAM: the customer slot is fused with the key in the named page, when the active bank's images carry its
signatures (R495). DESIGN CHOICE, unsafe (assumption 147). -/
def execSecKeyProgram (ch : Chan) (signed : Bool) (s : State) : Host.Outcome State Fault Refusal :=
  s.run fun d => d.serve ch 0xB1 false [0] fun d =>
    let page := d.arg ch.val 1
    match firstCode [(!d.bulkOk ch.val page 1, 4), (d.flag F.SEC_STATUS_CUST_KEY 0 || !signed, 5)] with
    | 0 =>
      let (key, d) := d.load (bulkSpace ch.val) (4096 * page) 2592
      let d := { (d.bulkBack ch.val page 1) with sec := { d.sec with custKey := key } }
      (1, [], (d.setFld F.SEC_STATUS_CUST_KEY 0 1).outcome (some ch.val) 0 [])
    | c => d.refuse c

/-- SEC_DEBUG_UNLOCK: a token that verifies enables debug; the nonce changes after every attempt (R497). -/
def execSecDebugUnlock (ch : Chan) (valid : Bool) (s : State) : Host.Outcome State Fault Refusal :=
  s.run fun d => d.serve ch 0xB2 false [0] fun d =>
    let first := d.arg ch.val 1
    let n := d.arg ch.val 2
    match firstCode [(!d.bulkOk ch.val first n, 4), (d.flag F.SEC_STATUS_DEBUG 0, 5)] with
    | 0 =>
      let d := (d.bulkBack ch.val first n).newNonce
      if valid then (0, [], (d.setFld F.SEC_STATUS_DEBUG 0 1).raise 0x1504 []) else (6, [], d)
    | c => d.refuse c

end Sys2Proof.Machine
end

