-- ==== Sys2Proof/Machine/CmdConn.lean ====
section
/-!
DEFINITION. Mailbox commands: connections, windows, collective groups and locks (Table 15-7).
-/

namespace Sys2Proof.Machine

/-! Connections. -/

/-- Whether a command may name an endpoint: those of its own hierarchy; at L0 any (R436). -/
def Dev.chEndpoint (d : Dev) (ch ep : Nat) : Bool :=
  d.chLevel ch == 0 || (decide (ch < 4120) && decide (d.hierOf ch < 24) && d.hierOf ch == ep)

/-- Whether a command may name a connection: those whose send queue its function holds; at L0 any. -/
def Dev.chConn (d : Dev) (ch n : Nat) : Bool := d.chLevel ch == 0 || (!(d.conn n).free && d.chOwns ch (d.connFn n))

/-- CONN_OPEN: a context is taken and OPEN is sent; the command ends with the connection's first state after OPENING. -/
def execConnOpen (ch : Chan) (s : State) : Host.Outcome State Fault Refusal :=
  s.run fun d => d.serve ch 0x40 false [0, 1, 2] fun d =>
    let c := ch.val
    let ep := d.argBits c 2 0 5
    let noevict := d.argBits c 2 8 1 == 1
    let sq := d.argBits c 3 0 16
    let rq := d.argBits c 3 16 16
    let denied := !d.chEndpoint c ep || !d.chOwns c (d.resOwner 0 sq) || !d.chOwns c (d.resOwner 0 rq) ||
      (noevict && d.chLevel c != 0)
    match firstCode [(denied, 6), (d.fld F.WQ_Q_CFG_PD sq != d.fld F.WQ_Q_CFG_PD rq, 4)] with
    | 0 =>
      let r := d.openConn
        { peerEp := d.argBits c 1 0 22, localEp := ep, tc := d.argBits c 2 5 2, pinned := d.argBits c 2 7 1 == 1,
          noevict := noevict, pd := d.fld F.WQ_Q_CFG_PD sq, sq := sq, rq := rq, rto := d.argBits c 4 0 14,
          retryMax := d.argBits c 4 14 4, arg := BitVec.ofNat 64 (d.arg64 c 5), chan := some c }
      match r.1 with
      | .ok _ => (1, [], r.2)
      | .error e => (e, [], r.2)
    | e => d.refuse e

/-- CONN_CLOSE: a READY connection drains; one in ERROR is FREE at once, and one CLOSE is sent (Table 06-2). -/
def execConnClose (ch : Chan) (s : State) : Host.Outcome State Fault Refusal :=
  s.run fun d => d.serve ch 0x41 false [0, 1, 2] fun d =>
    let n := d.argBits ch.val 1 0 24
    let c := d.conn n
    match firstCode [(!d.chConn ch.val n, 6), (!d.usable n, 4), (!c.ready && !c.failed, 5)] with
    | 0 =>
      let d := d.modConn n fun c => { c with chan := some ch.val }
      (1, [], if c.ready then d.connClose n else (d.sendClose n).connFree n 0)
    | e => d.refuse e

/-- CONN_RESET: the context is FREE, and what was in flight is ABORTED; a pending CONN_OPEN ends with WRONG_STATE (R536). -/
def execConnReset (ch : Chan) (s : State) : Host.Outcome State Fault Refusal :=
  s.run fun d => d.serve ch 0x42 false [0, 1, 2] fun d =>
    let n := d.argBits ch.val 1 0 24
    let c := d.conn n
    match firstCode [(!d.chConn ch.val n, 6), (!d.usable n, 4), (c.free, 5)] with
    | 0 => (0, [], d.connReset n)
    | e => d.refuse e

/-- CONN_QUERY: a quarter of the record of Table 06-8. -/
def execConnQuery (ch : Chan) (s : State) : Host.Outcome State Fault Refusal :=
  s.run fun d => d.serve ch 0x43 false [0, 1, 2] fun d =>
    let n := d.argBits ch.val 1 0 24
    let q := d.argBits ch.val 2 0 2
    match firstCode [(!d.chConn ch.val n, 6), (!d.usable n, 4)] with
    | 0 =>
      let c := d.conn n
      (0, bytesWords (((c.body n ++ Conn.commit c n).drop (64 * q)).take 64), d)
    | e => d.refuse e

/-- CONN_LISTEN: adds a listen entry (R437). DEDUCED, unsafe (assumption 105). -/
def execConnListen (ch : Chan) (s : State) : Host.Outcome State Fault Refusal :=
  s.run fun d => d.serve ch 0x44 false [0, 1, 2] fun d =>
    let c := ch.val
    let ep := d.argBits c 1 0 5
    let sq := d.argBits c 2 0 16
    let rq := d.argBits c 2 16 16
    let denied := !d.chEndpoint c ep || !d.chOwns c (d.resOwner 0 sq) || !d.chOwns c (d.resOwner 0 rq)
    match firstCode [(denied, 6), (d.fld F.WQ_Q_CFG_PD sq != d.fld F.WQ_Q_CFG_PD rq, 4),
        (decide (64 ≤ (d.trn.listen.filter fun l => l.ep == ep).length), 8)] with
    | 0 =>
      let arg := BitVec.ofNat 64 (d.arg64 c 3)
      let l : Listen := { handle := d.trn.nextListen, ep := ep, sq := sq, rq := rq, arg := arg, fn := chanFn c }
      (0, [word l.handle], { d with trn := { d.trn with listen := d.trn.listen ++ [l], nextListen := d.trn.nextListen + 1 } })
    | e => d.refuse e

/-- CONN_UNLISTEN. -/
def execConnUnlisten (ch : Chan) (s : State) : Host.Outcome State Fault Refusal :=
  s.run fun d => d.serve ch 0x45 false [0, 1, 2] fun d =>
    let h := d.arg ch.val 1
    match d.trn.listen.find? fun l => l.handle == h with
    | none => d.refuse 5
    | some l =>
      if !d.chOwns ch.val (some l.fn) then d.refuse 6
      else (0, [], { d with trn := { d.trn with listen := d.trn.listen.filter fun l => l.handle != h } })

/-! Windows (R253, R541). -/

/-- The blocks of entries that a function's windows may take. -/
def Dev.windowBlocks (d : Dev) (fn : Nat) : List Nat :=
  (List.range 128).filter fun b =>
    if fn < 4096 then Tbl.get d.own.prot b == some fn else d.rangeHas fn b && (Tbl.get d.own.prot b).isNone

/-- The lowest-numbered free entry of a function's range; entry 0 is never enabled (R252). -/
def Dev.freeEntry (d : Dev) (fn : Nat) : Option Nat :=
  (d.windowBlocks fn).findSome? fun b =>
    ((List.range 1024).map (1024 * b + ·)).find? fun i => i != 0 && d.entryFree i

/-- The version of an entry that its next use replaces: the one staged last, or the one in force. -/
def Dev.protLast (d : Dev) (i : Nat) : ProtVer :=
  d.clk.staged.foldl (fun v x => match x.act with
    | .prot j w => if j = i then w else v
    | _ => v) (d.protAt d.tickNow i)

/-- WINDOW_BIND: a window is staged on the lowest free entry, and its key and generation are returned; it is in force from T + 2. -/
def execWindowBind (ch : Chan) (s : State) : Host.Outcome State Fault Refusal :=
  s.run fun d => d.serve ch 0x50 false [1, 2] fun d =>
    let c := ch.val
    let key := d.arg c 1
    let rights := d.argBits c 2 0 6
    let off := d.arg64 c 3
    let len := d.arg64 c 5
    let p := d.protAt d.tickNow (key % 2 ^ 17)
    let known := p.en && p.tag == key / 2 ^ 17
    let denied := known && !d.chOwns c (d.resOwner 1 p.pd)
    let bad := !known || p.window || (rights &&& p.rights) != rights || decide (p.len < off + len)
    match firstCode [(denied, 6), (bad, 4)], d.freeEntry (chanFn c) with
    | 0, some i =>
      if 4096 ≤ d.protSlots then d.refuse 8
      else
        let was := d.protAt d.tickNow i
        let tag := (was.tag + 1) % 2 ^ 15
        let gen := (was.gen + 1) % 256
        let attr := F.XLT_RGN_ATTR_EN.put (F.XLT_RGN_ATTR_KIND.put 0#32 1) 1
        let attr := F.XLT_RGN_ATTR_RIGHTS.put (F.XLT_RGN_ATTR_GEN.put (F.XLT_RGN_ATTR_TAG.put attr tag) gen) rights
        let v : ProtVer :=
          { from_ := 0, attr := attr, owner := F.XLT_RGN_OWNER_PD.put 0#32 p.pd, base := off, len := len,
            parent := F.XLT_RGN_PARENT_PARENT_GEN.put (F.XLT_RGN_PARENT_PARENT.put 0#32 (key % 2 ^ 17)) p.gen }
        (0, [word (i + tag * 2 ^ 17), word gen] ++ tickWords d.clk.tick, (d.stageProt 4224 i true v).2)
    | 0, none => d.refuse 8
    | e, _ => d.refuse e

/-- WINDOW_UNBIND: a window in the function's own entries is retired. -/
def execWindowUnbind (ch : Chan) (s : State) : Host.Outcome State Fault Refusal :=
  s.run fun d => d.serve ch 0x51 false [1, 2] fun d =>
    let c := ch.val
    let key := d.arg c 1
    let i := key % 2 ^ 17
    let v := d.protLast i
    let ours := (d.windowBlocks (chanFn c)).contains (i / 1024)
    match firstCode [(!ours, 6), (!(v.en && v.window && v.tag == key / 2 ^ 17), 5), (decide (4096 ≤ d.protSlots), 8)] with
    | 0 => (0, tickWords d.clk.tick, (d.stageProt 4224 i true { v with attr := F.XLT_RGN_ATTR_EN.put v.attr 0 }).2)
    | e => d.refuse e

/-! Collective groups (R294, R320). -/

/-- Whether the part lacks what a COL_FORM asks for: exact mode without exact accumulators (R436). -/
def Dev.formAbsent (d : Dev) (ch : Nat) : Bool := !d.part.hasXac &&
    F.COL_GRP_CFG_EXACT_OK.ofWord (BitVec.ofNat 32 (d.arg ch 2)) == 1

/-- COL_FORM: writes the group entry and forms it. DEDUCED, unsafe (assumption 106). -/
def execColForm (ch : Chan) (s : State) : Host.Outcome State Fault Refusal :=
  s.run fun d => d.serve ch 0x60 (d.formAbsent ch.val) [0] fun d =>
    let c := ch.val
    let g := d.argBits c 1 0 12
    let idle := d.colState g == 0 || d.colState g == 3
    let put := fun (d : Dev) (r : Reg) (i n : Nat) => d.setReg r i (Reg.merge r (d.rd r i) (word (d.arg c n)) (~~~0#32))
    let x := put (put d .COL_GRP_CFG g 2) .COL_GRP_MEMBERS g 3
    let x := (List.range 4).foldl (fun (x : Dev) i => put x .COL_GRP_CHILD (4 * g + i) (4 + i)) x
    let x := (x.setFld F.COL_GRP_CTRL_ROOT_EP g (d.argBits c 8 16 5)).setFld F.COL_GRP_CTRL_OPSEQ g (d.argBits c 8 0 16)
    let r := x.colForm g
    match firstCode [(r.1 == 4, 4), (!idle, 5), (r.1 == 8, 8)] with
    | 0 => (0, [], r.2)
    | e => if idle then (d.colFormRefused g).refuse e else d.refuse e

/-- COL_DISSOLVE. -/
def execColDissolve (ch : Chan) (s : State) : Host.Outcome State Fault Refusal :=
  s.run fun d => d.serve ch 0x61 false [0] fun d =>
    let g := d.argBits ch.val 1 0 12
    if d.colState g = 0 then d.refuse 5 else (0, [], d.colDissolve g)

/-! Locks (R441). -/

/-- OP of a word written to `LCK_OP`. -/
def lockOpOf (v : Word) : Nat := v.toNat / 2 ^ 30

/-- Applies a word written to `LCK_OP` (Table 15-17) for requester `q`. -/
def Dev.lockWord (d : Dev) (l q : Nat) (v : Word) : Dev :=
  match lockOpOf v with
  | 0 => d.lockAcquire l q (v.toNat / 2 ^ 27 % 8)
  | 1 => d.lockRelease l q
  | 2 => d.lockForce l q (v.toNat % 2 ^ 13)
  | _ => d.lockClear l q

/-- LOCK_OP: an operation of a virtual function; FORCE_RELEASE and CLEAR_POISON need L1. -/
def execLockOp (ch : Chan) (s : State) : Host.Outcome State Fault Refusal :=
  s.run fun d => d.serve ch 0x70 false [2] fun d =>
    let c := ch.val
    let l := d.argBits c 1 0 12
    let v := word (d.arg c 2)
    let o := Tbl.get d.own.lock l
    match firstCode [(decide (2 ≤ lockOpOf v) || (o.isSome && o != some c), 6), (o.isNone, 5)] with
    | 0 =>
      let d := d.lockWord l c v
      (0, [(d.lockOf l).view c], d)
    | e => d.refuse e

/-- LOCK_QUERY. -/
def execLockQuery (ch : Chan) (s : State) : Host.Outcome State Fault Refusal :=
  s.run fun d => d.serve ch 0x71 false [2] fun d =>
    let l := d.argBits ch.val 1 0 12
    let o := Tbl.get d.own.lock l
    match firstCode [(o.isSome && o != some ch.val, 6), (o.isNone, 5)] with
    | 0 => (0, [(d.lockOf l).view ch.val], d)
    | e => d.refuse e

end Sys2Proof.Machine
end

