-- ==== Sys2Proof/Machine/CmdUnit.lean ====
section
/-!
DEFINITION. Mailbox commands: the memory bridge and the pool, the host switch, and handler packages (Tables 15-8 to 15-10).
-/

namespace Sys2Proof.Machine

/-! The bridge and the pool (R367). -/

/-- BRIDGE_WINDOW: window size, context and ENABLE of a hierarchy whose bridge is OFF (R343). -/
def execBridgeWindow (ch : Chan) (s : State) : Host.Outcome State Fault Refusal :=
  s.run fun d => d.serve ch 0x80 (!d.part.hasMbr) [0] fun d =>
    let c := ch.val
    let h := d.argBits c 1 0 5
    match firstCode [(decide (24 ≤ h) || decide (2 ^ F.MBR_HIER_WIN_GIB.w ≤ d.arg c 2), 4), (d.brState h != 0, 5)] with
    | 0 =>
      let w := F.MBR_HIER_WIN_ENABLE.put (F.MBR_HIER_WIN_GIB.put 0#32 (d.arg c 2)) (d.argBits c 1 31 1)
      (0, [], (d.setReg .MBR_HIER_WIN h w).setFld F.MBR_HIER_CTX_XCTX h (d.argBits c 3 0 16))
    | e => d.refuse e

/-- A pool region that firmware stages on entry `i`: it grants REMOTE_READ and REMOTE_WRITE in the pool domain; TAG and GEN differ
from those of the entry's last use (R347). DEDUCED, unsafe (assumption 82). -/
def Dev.poolRegion (d : Dev) (i ctx base len : Nat) : ProtVer :=
  let was := d.protLast i
  let attr := F.XLT_RGN_ATTR_GEN.put (F.XLT_RGN_ATTR_TAG.put (F.XLT_RGN_ATTR_EN.put 0#32 1) ((was.tag + 1) % 2 ^ 15))
    ((was.gen + 1) % 256)
  { from_ := 0, attr := F.XLT_RGN_ATTR_RIGHTS.put attr 12,
    owner := F.XLT_RGN_OWNER_XCTX.put (F.XLT_RGN_OWNER_PD.put 0#32 (d.fld F.MBR_CFG_POOL_PD 0)) ctx, base := base, len := len,
    parent := 0#32 }

/-- Whether firmware can stage entry `i`. -/
def Dev.canStage (d : Dev) (i : Nat) : Bool := i != 0 && d.entryFree i && decide (d.protSlots < 4096)

/-- Key of an entry and version. -/
def ProtVer.key (v : ProtVer) (i : Nat) : Nat := i + v.tag * 2 ^ 17

/-- POOL_EXPORT: a pool region over a range of a host's own memory. Entry and translation context are firmware's choice. -/
def execPoolExport (ch : Chan) (entry : BitVec 17) (ctx : BitVec 16) (s : State) : Host.Outcome State Fault Refusal :=
  s.run fun d => d.serve ch 0x81 (!d.part.hasMbr) [0, 1] fun d =>
    let c := ch.val
    let h := d.argBits c 1 0 5
    let len := d.arg64 c 4
    let i := entry.toNat
    match firstCode [(!d.chEndpoint c h, 6), (decide (24 ≤ h) || len % 2 ^ 30 != 0 || len == 0, 4), (!d.flag F.MBR_CFG_EN 0, 5),
        (!d.canStage i, 8)] with
    | 0 =>
      let v := d.poolRegion i ctx.toNat (d.arg64 c 2) len
      let d := (d.stageProt 4224 i true v).2
      (0, [word (v.key i), word v.gen], { d with mbr := { d.mbr with sources := d.mbr.sources ++ [(i, 0, len / 2 ^ 30, h)] } })
    | e => d.refuse e

/-- The exported range a key names: its entry and hierarchy. -/
def Dev.exported (d : Dev) (key : Nat) : Option (Nat × Nat) :=
  (d.mbr.sources.find? fun x => x.2.1 == 0 && (d.protLast x.1).key x.1 == key).map fun x => (x.1, x.2.2.2)

/-- POOL_UNEXPORT: once no directory names the range its region is retired, and once nothing can use it any more the command
ends (R262, Table 12-7). DEDUCED, unsafe (assumption 84). -/
def execPoolUnexport (ch : Chan) (step : Unexport) (s : State) : Host.Outcome State Fault Refusal :=
  s.run fun d =>
    let c := ch.val
    let mine := (d.mbr.unexport.find? fun x => x.1 == c).map (·.2)
    match step, mine.bind fun k => (d.exported k).map fun x => (k, x.1) with
    | .request, _ => d.serve ch 0x82 (!d.part.hasMbr) [0, 1] fun d =>
      let key := d.arg c 1
      match d.exported key with
      | none => d.refuse 5
      | some (_, h) =>
        if !d.chEndpoint c h then d.refuse 6
        else (1, [], { d with mbr := { d.mbr with unexport := d.mbr.unexport ++ [(c, key)] } })
    | .unused, some (_, i) =>
      let v := d.protLast i
      if !d.ccRuns ∨ !v.en ∨ 4096 ≤ d.protSlots then d
      else (d.stageProt 4224 i false { v with attr := F.XLT_RGN_ATTR_EN.put v.attr 0 }).2
    | .settled, some (k, i) =>
      let v := d.protAt d.tickNow i
      if !d.ccRuns ∨ v.en ∨ (d.protLast i).en ∨ d.settled < v.from_ then d
      else
        let m := { d.mbr with sources := d.mbr.sources.filter fun x => x.1 != i,
                              unexport := d.mbr.unexport.filter fun x => x != (c, k) }
        ({ d with mbr := m }).outcome (some c) 0 []
    | _, none => d

/-- Whether a host-lane port's device has been given to a hierarchy or a tunnel. -/
def Dev.portGiven (d : Dev) (n : Nat) : Bool :=
  d.hsw.vdsp.any (fun x => decide (x.2.kind < 4) && x.2.a == n) || d.fld F.HSW_PORT_STATUS_TUNNEL n != 0x7F

/-- POOL_CLAIM_EXPANDER: a DOWNSTREAM port becomes a POOL port, and a region over its expander is staged (R347). `x` is what
firmware found and chose; none where the port carries no Type 3 expander. -/
def execPoolClaimExpander (ch : Chan) (x : Option Expander) (s : State) : Host.Outcome State Fault Refusal :=
  s.run fun d => d.serve ch 0x83 (!d.part.hasMbr || decide (d.part.hostPorts ≤ d.argBits ch.val 1 0 6)) [0] fun d =>
    let n := d.argBits ch.val 1 0 6
    let ok := d.hlRole n == 2 && (d.fld F.HSW_PORT_STATUS_STATE n == 1 || !d.portGiven n)
    match firstCode [(!ok || !d.flag F.MBR_CFG_EN 0, 5), (x.any fun x => !d.canStage x.entry.toNat, 8), (d.worn (15 + n),
        9)], x with
    | 0, none => (1, [], d.outcome (some ch.val) 5 [])
    | 0, some x =>
      let i := x.entry.toNat
      let cfg := F.HSW_PORT_CFG_ROLE.put (d.rd .HSW_PORT_CFG n) 3
      let d := d.nvsPut (15 + n) cfg
      let d := { d with hsw := { d.hsw with port := Tbl.set d.hsw.port n cfg } }
      let v := d.poolRegion i x.ctx.toNat 0 (x.gib.toNat * 2 ^ 30)
      let d := (d.stageProt 4224 i true v).2
      let d := { d with mbr := { d.mbr with sources := d.mbr.sources ++ [(i, 1, x.gib.toNat, n)] } }
      (1, [], d.outcome (some ch.val) 0 [word (v.key i), word v.gen, word x.gib.toNat])
    | e, _ => d.refuse e

/-- The connections a path set names. -/
def Dev.psetConns (d : Dev) (p : Nat) : List Nat :=
  (List.range 4).filterMap fun i =>
    if d.flag F.MBR_PSET_CONN_VALID (4 * p + i) then some (d.fld F.MBR_PSET_CONN_CONN (4 * p + i)) else none

/-- Opens one bridge connection into a free slot of a path set; false when none can be opened. -/
def Dev.psetOpen (d : Dev) (p home : Nat) : Bool × Dev :=
  let slot := (List.range 4).find? fun i => !d.flag F.MBR_PSET_CONN_VALID (4 * p + i)
  let r := d.openConn
    { peerEp := home, localEp := 24, tc := 2, pinned := false, noevict := true, pd := d.fld F.MBR_CFG_POOL_PD 0, sq := 0, rq := 0,
      rto := 0, retryMax := 0, arg := 0#64, chan := none }
  match slot, r.1 with
  | some i, .ok n => (true, r.2.setReg .MBR_PSET_CONN (4 * p + i) (BitVec.ofNat 32 (2 ^ 31 + n)))
  | _, .error _ => (false, r.2)
  | none, _ => (false, d)

/-- Closes connection `n` of a path set, from whatever state it is in. -/
def Dev.psetClose (d : Dev) (n : Nat) : Dev :=
  let c := d.conn n
  if c.ready then d.connClose n
  else if c.failed then (d.sendClose n).connFree n 0
  else if c.opening then d.connFree n 5
  else d

/-- POOL_PATH_SET (R349): opens connections to a home, into the free slots of the set, or closes them all. The command ends when
they have left OPENING, or are FREE. DEDUCED, unsafe (assumption 83). -/
def execPoolPathSet (ch : Chan) (s : State) : Host.Outcome State Fault Refusal :=
  s.run fun d => d.serve ch 0x84 (!d.part.hasMbr) [0] fun d =>
    let c := ch.val
    let p := d.argBits c 1 0 12
    let close := d.argBits c 1 31 1 == 1
    let home := d.argBits c 2 0 22
    let n := d.argBits c 3 0 3
    let ns := d.psetConns p
    let start := fun (d : Dev) => ({ d with mbr := { d.mbr with pathCmd := d.mbr.pathCmd ++ [(p, c, close)] } }).pathCheck
    if close then (1, [], start (ns.foldl Dev.psetClose d))
    else
      let other := !ns.isEmpty && d.fld F.MBR_PSET_HOME_HOME p != home
      let r := (List.range n).foldl (fun (x : Bool × Dev) _ => if x.1 then x.2.psetOpen p home else x) (true, d)
      match firstCode [(decide (n = 0 ∨ 4 < n) || other, 4), (!r.1, 8)] with
      | 0 => (1, [], start (r.2.setFld F.MBR_PSET_HOME_HOME p home))
      | 8 => (8, [], if 16384 ≤ r.2.noevicts then d.noevictFull else d)
      | e => d.refuse e

/-- POOL_DIR_SET: stages one directory entry for the boundary that opens tick T + 2 (R365). -/
def execPoolDirSet (ch : Chan) (s : State) : Host.Outcome State Fault Refusal :=
  s.run fun d => d.serve ch 0x85 (!d.part.hasMbr) [0] fun d =>
    let c := ch.val
    let x := d.arg c 1
    let off := d.arg64 c 6
    match firstCode [(decide (d.dirSize ≤ x) || off % 2 ^ 30 != 0, 4), (!d.flag F.MBR_CFG_EN 0, 5)] with
    | 0 =>
      let e : DirEnt := { flags := d.argBits c 2 0 3, pset := d.argBits c 3 0 12, gen := d.argBits c 5 0 8, key := d.arg c 4,
                          offset := off }
      (0, tickWords d.clk.tick, d.stage 4224 true (.dirEnt x e))
    | e => d.refuse e

/-- POOL_EXTENT_CLEAR: a FAILED extent is served again (R364). -/
def execPoolExtentClear (ch : Chan) (s : State) : Host.Outcome State Fault Refusal :=
  s.run fun d => d.serve ch 0x86 (!d.part.hasMbr) [0] fun d =>
    let x := d.arg ch.val 1
    if d.dirSize ≤ x then d.refuse 4
    else
      let r := d.dirNow x
      match r.1 with
      | some e => if e.failed then (0, [], r.2.dirStore x { e with flags := e.flags % 4 }) else d.refuse 5
      | none => d.refuse 5

/-! The host switch (R399). -/

/-- The first virtual downstream port of a hierarchy that is free (R375). -/
def Dev.freeVdsp (d : Dev) (h : Nat) : Option Nat :=
  ((List.range 30).map (· + 2)).find? fun v => (Tbl.get d.hsw.vdsp (32 * h + v)).isNone

/-- Functions assigned to hierarchies: those of whole devices, virtual functions and logical devices (R378). -/
def Dev.assignedFns (d : Dev) : Nat :=
  d.hsw.vdsp.foldl (fun n x => n + if x.2.kind = 1 then x.2.b else if x.2.kind < 4 then 1 else 0) 0

/-- Puts a device behind the next virtual downstream port of hierarchy `h`; `bad` says that the port named is not one of the
48. -/
def Dev.giveDevice (d : Dev) (ch h fns : Nat) (bad ok : Bool) (x : Vdsp) : Reply :=
  match firstCode [(decide (24 ≤ h) || bad, 4), (!ok, 5), (decide (4096 < d.assignedFns + fns), 8)], d.freeVdsp h with
  | 0, some v =>
    (1, [], ({ d with hsw := { d.hsw with vdsp := Tbl.set d.hsw.vdsp (32 * h + v) x } }).outcome (some ch) 0 [])
  | 0, none => d.refuse 8
  | e, _ => d.refuse e

/-- Whether the part lacks host-lane port `n`, one of the 48 of R371, or the whole host switch. -/
def Dev.hlAbsent (d : Dev) (n : Nat) : Bool := decide (d.part.hostPorts = 0 ∨ (d.part.hostPorts ≤ n ∧ n < 48))

/-- HSW_ASSIGN_PORT: a local device goes whole to a hierarchy. `fns` is the number of functions it has. -/
def execHswAssignPort (ch : Chan) (fns : BitVec 9) (s : State) : Host.Outcome State Fault Refusal :=
  s.run fun d => d.serve ch 0x90 (d.hlAbsent (d.argBits ch.val 1 0 6)) [0] fun d =>
    let n := d.argBits ch.val 1 0 6
    let ok := d.hlRole n == 2 && !d.portGiven n
    d.giveDevice ch.val (d.argBits ch.val 1 8 5) fns.toNat (decide (48 ≤ n)) ok { kind := 1, a := n, b := fns.toNat }

/-- HSW_ASSIGN_VF: one virtual function of a device whose physical function firmware has enumerated in its hierarchy (`pf`). -/
def execHswAssignVf (ch : Chan) (pf : Bool) (s : State) : Host.Outcome State Fault Refusal :=
  s.run fun d => d.serve ch 0x91 (d.hlAbsent (d.argBits ch.val 1 0 6)) [0] fun d =>
    let n := d.argBits ch.val 1 0 6
    let i := d.argBits ch.val 2 0 16
    let used := d.hsw.vdsp.any fun x => x.2.a == n && (x.2.kind == 1 || (x.2.kind == 2 && x.2.b == i))
    let x : Vdsp := { kind := 2, a := n, b := i }
    d.giveDevice ch.val (d.argBits ch.val 3 0 5) 1 (decide (48 ≤ n)) (pf && d.hlRole n == 2 && !used) x

/-- HSW_ASSIGN_LD: one logical device of a multi-logical device that firmware holds in its hierarchy (`mld`). -/
def execHswAssignLd (ch : Chan) (mld : Bool) (s : State) : Host.Outcome State Fault Refusal :=
  s.run fun d => d.serve ch 0x92 (d.hlAbsent (d.argBits ch.val 1 0 6)) [0] fun d =>
    let n := d.argBits ch.val 1 0 6
    let i := d.argBits ch.val 2 0 4
    let used := d.hsw.vdsp.any fun x => x.2.a == n && (x.2.kind == 1 || (x.2.kind == 3 && x.2.b == i))
    let x : Vdsp := { kind := 3, a := n, b := i }
    d.giveDevice ch.val (d.argBits ch.val 3 0 5) 1 (decide (48 ≤ n)) (mld && d.hlRole n == 2 && !used) x

/-- HSW_RELEASE: a virtual downstream port shows presence 0 again; the device or function is reset. -/
def execHswRelease (ch : Chan) (s : State) : Host.Outcome State Fault Refusal :=
  s.run fun d => d.serve ch 0x93 (d.part.hostPorts == 0) [0] fun d =>
    let h := d.argBits ch.val 1 0 5
    let k := 32 * h + d.argBits ch.val 2 0 5
    match firstCode [(decide (24 ≤ h), 4)], Tbl.get d.hsw.vdsp k with
    | 0, some x =>
      if x.kind = 4 then d.refuse 5
      else
        let d := d.vdspReset x
        let w := { d.hsw with vdsp := Tbl.erase d.hsw.vdsp k, contained := d.hsw.contained.filter (· != k),
                              redirect := d.hsw.redirect.filter (· != k) }
        (1, [], ({ d with hsw := w }).outcome (some ch.val) 0 [])
    | 0, none => d.refuse 5
    | e, _ => d.refuse e

/-- HSW_VF_POOL: a management function's TotalVFs; its virtual functions are the lowest-numbered that no function has (R379).
`enabled` is whether its virtual functions are enabled now. DEDUCED, unsafe (assumption 93). -/
def execHswVfPool (ch : Chan) (enabled : Bool) (s : State) : Host.Outcome State Fault Refusal :=
  s.run fun d => d.serve ch 0x94 (d.part.hostPorts == 0) [0] fun d =>
    let h := d.argBits ch.val 1 0 5
    let n := d.argBits ch.val 2 0 13
    let rest := d.own.vfHier.filter fun x => x.2 != h
    match firstCode [(decide (24 ≤ h ∨ 4096 < n), 4), (enabled, 5), (decide (4096 < rest.length + n), 8)] with
    | 0 =>
      let free := ((List.range 4096).filter fun v => (Tbl.get rest v).isNone).take n
      let d := { d with own := { d.own with vfHier := free.foldl (fun t v => Tbl.set t v h) rest } }
      (0, [], { d with hsw := { d.hsw with totalVfs := Tbl.set d.hsw.totalVfs h n } })
    | e => d.refuse e

/-- HSW_P2P_SET: one peer window and its port's bit of `HSW_P2P` (R380). A window beyond the enumerated peer BAR is refused
(R530). -/
def execHswP2pSet (ch : Chan) (s : State) : Host.Outcome State Fault Refusal :=
  s.run fun d => d.serve ch 0x95 (d.hlAbsent (d.argBits ch.val 2 8 6)) [0] fun d =>
    let c := ch.val
    let h := d.argBits c 1 0 5
    let n := d.argBits c 2 8 6
    let w : PeerWin := { port := n, off := d.arg64 c 3, target := d.arg64 c 5, len := d.arg64 c 7 }
    let idle := !d.hierActive h || d.hsw.vdsp.any fun x => x.2.kind == 1 && x.2.a == n && !d.hierActive (x.1 / 32)
    match firstCode [(decide (24 ≤ h ∨ 48 ≤ n) || decide (Tbl.getD d.hsw.bar h 0 < w.off + w.len), 4), (idle, 5)] with
    | 0 =>
      let r := if n < 32 then Reg.HSW_P2P_LO else Reg.HSW_P2P_HI
      let b := BitVec.ofNat 32 (2 ^ (n % 32))
      let d := d.setReg r h (if d.argBits c 2 31 1 = 1 then d.rd r h ||| b else d.rd r h &&& ~~~b)
      (0, [], { d with hsw := { d.hsw with windows := Tbl.set d.hsw.windows (16 * h + d.argBits c 2 0 4) w } })
    | e => d.refuse e

/-- The registers and the staging region of a tunnel side at its opening. Where firmware places the region, and its key, are not
stated: free values. DESIGN CHOICE, safe (assumption 90). -/
def Dev.tunPrepare (d : Dev) (t ch : Nat) (status peer : Word) : Dev :=
  let (a, d) := d.fresh
  let (k, d) := d.fresh
  let (p, d) := d.fresh
  let x := { Tun.reset with
    chan := some ch, base := a.toNat % 2 ^ 45 * 4096, key := k.toNat % 2 ^ 32, gen := bits k 32 8,
    peerKey := p.toNat % 2 ^ 32, peerGen := bits p 32 8 }
  ((d.modTun t fun _ => x).setReg .HSW_TUN_STATUS t status).setReg .HSW_TUN_PEER t peer

/-- HSW_TUNNEL_OPEN: one side of a tunnel; the host side opens the connection (R381, R386). -/
def execHswTunnelOpen (ch : Chan) (s : State) : Host.Outcome State Fault Refusal :=
  s.run fun d => d.serve ch 0x96 (!d.part.hasSpill || (d.argBits ch.val 2 0 1 == 1 &&
      d.hlAbsent (d.argBits ch.val 2 11 6))) [0] fun d =>
    let c := ch.val
    let t := d.argBits c 1 0 6
    let dev := d.argBits c 2 0 1 == 1
    let h := d.argBits c 2 1 5
    let v := d.argBits c 2 6 5
    let n := d.argBits c 2 11 6
    let bad := if dev then decide (48 ≤ n) else decide (24 ≤ h ∨ v < 2)
    let taken := if dev then d.hlRole n != 2 || d.portGiven n else (Tbl.get d.hsw.vdsp (32 * h + v)).isSome
    match firstCode [(bad, 4), (d.tunState t != 0 || taken, 5)] with
    | 0 =>
      let st := F.HSW_TUN_STATUS_STATE.put (F.HSW_TUN_STATUS_SIDE.put 0#32 (if dev then 1 else 0)) 1
      let st := F.HSW_TUN_STATUS_VDSP.put (F.HSW_TUN_STATUS_HIER.put st h) v
      let x := d.tunPrepare t c st (F.HSW_TUN_PEER_EP.put 0#32 (d.argBits c 3 0 22))
      if dev then
        let x := (x.setFld F.HSW_TUN_STATUS_PORT t n).setFld F.HSW_PORT_STATUS_TUNNEL n t
        let x := { x with pins := { x.pins with perst := x.pins.perst.filter (· != n) } }
        (1, [], x.setFld F.HSW_PORT_STATUS_PERST n 0)
      else
        let x := { x with hsw := { x.hsw with vdsp := Tbl.set x.hsw.vdsp (32 * h + v) { kind := 4, a := t, b := 0 } } }
        match x.tunOpen t (some c) with
        | (.ok _, x) => (1, [], x)
        | (.error e, _) => (e, [], if 16384 ≤ d.noevicts then d.noevictFull else d)
    | e => d.refuse e

/-- HSW_TUNNEL_CLOSE: the host side shows presence 0; the device side holds its port in reset; the connection is closed. -/
def execHswTunnelClose (ch : Chan) (s : State) : Host.Outcome State Fault Refusal :=
  s.run fun d => d.serve ch 0x97 (!d.part.hasSpill) [0] fun d =>
    let t := d.argBits ch.val 1 0 6
    let st := d.tunState t
    if st = 0 then d.refuse 5
    else
      let n := d.fld F.HSW_TUN_CONN_CONN t
      let dev := d.tunDev t
      let port := d.fld F.HSW_TUN_STATUS_PORT t
      let k := 32 * d.fld F.HSW_TUN_STATUS_HIER t + d.fld F.HSW_TUN_STATUS_VDSP t
      let d := d.outcome (d.tun t).chan 5 []
      let d := ((d.setReg .HSW_TUN_STATUS t 0#32).setReg .HSW_TUN_PEER t 0#32).setReg .HSW_TUN_CONN t 0#32
      let d := d.modTun t fun _ => Tun.reset
      let d := if dev then
          let d := (d.setFld F.HSW_PORT_STATUS_TUNNEL port 0x7F).setFld F.HSW_PORT_STATUS_PERST port 1
          { d with pins := { d.pins with perst := port :: d.pins.perst.filter (· != port) } }
        else { d with hsw := { d.hsw with vdsp := Tbl.erase d.hsw.vdsp k, contained := d.hsw.contained.filter (· != k) } }
      let d := if st = 1 ∧ dev then d else d.psetClose n
      (1, [], d.outcome (some ch.val) 0 [])

/-! Handler packages (R412 to R415). -/

/-- ENG_PKG_LOAD: a package that passes the checks of R491 is loaded into an EMPTY slot. The VX9-TN has no engine-internal queues
for a package that declares some (R10). -/
def execEngPkgLoad (ch : Chan) (pkg : Pkg) (s : State) : Host.Outcome State Fault Refusal :=
  s.run fun d => d.serve ch 0xA0 (pkg.queues && d.part.code == .tn) [0] fun d =>
    let c := ch.val
    let a := d.argBits c 1 0 3
    let first := d.arg c 2
    let n := d.arg c 3
    let slot := if a = 7 then (List.range 6).find? fun k => d.pkgState k == 0 else some a
    match firstCode [(decide (a = 6) || !d.bulkOk c first n, 4), (a != 7 && d.pkgState a != 0, 5)], slot with
    | 0, some k =>
      let d := d.bulkBack c first n
      match d.imageCode pkg.image 2 with
      | 0 =>
        (1, [], (d.pkgLoad k pkg).outcome (some c) 0 [word k])
      | e => (1, [], ((d.imageFail 2 e).pkgRefused k).outcome (some c) 6 [])
    | 0, none => (8, [], d.pkgRefused 7)
    | e, _ => d.refuse e

/-- ENG_PKG_ENABLE: the package gets its hedgerows and the lowest free SERVICE endpoint. `queues` are the engine-internal queues
that firmware sets aside for it, and `ctx` is its ENGINE context (R407). DEDUCED, unsafe (assumption 97). -/
def execEngPkgEnable (ch : Chan) (x : PkgUnits) (s : State) : Host.Outcome State Fault Refusal :=
  s.run fun d => d.serve ch 0xA1 false [0] fun d =>
    let c := ch.val
    let k := d.arg c 1
    let hrs := BitVec.ofNat 64 (d.arg64 c 2)
    match firstCode [(decide (6 ≤ k) || !hrsOk hrs (Tbl.getD d.eng.minHr k 0), 4), (d.pkgState k != 1, 5)], d.freeService with
    | 0, some e => (0, [word e], d.pkgEnable k e hrs x.queues x.ctx)
    | 0, none => (8, [], d.pkgRefused k)
    | e, _ => d.refuse e

/-- ENG_PKG_DISABLE: the package is DRAINING (R415). -/
def execEngPkgDisable (ch : Chan) (s : State) : Host.Outcome State Fault Refusal :=
  s.run fun d => d.serve ch 0xA2 false [0] fun d =>
    let k := d.arg ch.val 1
    match firstCode [(decide (6 ≤ k), 4), (d.pkgState k != 2, 5)] with
    | 0 =>
      let d := (d.setFld F.ENG_PKG_STATUS_STATE k 3).setReg .RTE_EP (d.fld F.ENG_PKG_STATUS_ENDPOINT k) 0xFF#32
      let d := { d with eng := { d.eng with disabling := Tbl.set d.eng.disabling k ch.val } }
      let d := (Tbl.getD d.eng.queuesOf k []).foldl (fun (d : Dev) q => if d.qState q = 0 then d else d.queueStop q true) d
      (1, [], d.drainSlot k)
    | e => d.refuse e

end Sys2Proof.Machine
end

