-- ==== Sys2Proof/Machine/Recorder.lean ====
section
/-!
DEFINITION. Commands of the counters and the event recorder: snapshots (R468 to R470), clears and freezes (R474 to R478),
and the two kinds of register read that have side effects (R110, R525).
-/

namespace Sys2Proof.Machine

/-- Entries of each snapshot group (Table 17-1). -/
def groupEntries : List Nat := [512, 1408, 1120, 9, 17, 10, 13, 8, 9, 9, 10, 9, 6]

/-- The groups that a mask selects, with their sizes. -/
def groupsOf (mask : Nat) : List (Nat × Nat) :=
  (groupEntries.zipIdx.filter fun g => mask.testBit g.2).map fun g => (g.2, g.1)

/-- E: the number of entries of the selected groups (Table 17-2). -/
def entryCount (mask : Nat) : Nat := (groupsOf mask).foldl (fun n g => n + g.2) 0

/-- STRIDE: the slot size rounded up to 4 KiB (R469). -/
def snapStride (mask : Nat) : Nat := (64 + 8 * entryCount mask + 8 + 4095) / 4096 * 4096

/-- Bytes 0 to 63 of a slot (Table 17-2). -/
def Snap.header (n : Snap) : List Byte :=
  leBytes 8 n.tick.toNat ++ leBytes 8 n.num ++ leBytes 4 n.device ++ leBytes 4 n.groups ++
    leBytes 2 (entryCount n.groups) ++ leBytes 1 (n.epoch + if n.fabric then 128 else 0) ++
    leBytes 1 ((if n.now then 1 else 0) + if n.skipped then 2 else 0) ++ leBytes 4 n.period ++ List.replicate 32 0#8

/-- The entries of a slot: groups in ascending number. -/
def Snap.entries (n : Snap) : List Byte :=
  (groupsOf n.groups).flatMap fun g => (List.range g.2).flatMap fun j =>
    leBytes 8 (Tbl.getD (Tbl.getD n.cnts g.1 []) j 0#48).toNat

/-- The period in force: values below 16 act as 16 (Table 17-7). -/
def Dev.snapPeriod (d : Dev) : Nat := max 16 (d.fld F.PMC_CFG_PERIOD 0)

/-- The number of slots: 2 to 8, other values acting as 2, and 2 on the VX9-TN (R469). -/
def Dev.snapSlots (d : Dev) : Nat :=
  let n := d.fld F.PMC_CFG_SLOTS 0
  if d.part.code = .tn ∨ n < 2 ∨ 8 < n then 2 else n

/-- Where slot `k` lies (R469). -/
def Dev.snapHome (d : Dev) (groups k : Nat) : Space × Nat :=
  let base := d.fld F.PMC_BASE_LO_BASE 0 * 2 ^ 12 + d.fld F.PMC_BASE_HI_BASE 0 * 2 ^ 32
  if d.part.code = .tn then (.cc, 0x80000 + k * snapStride groups)
  else if d.flag F.PMC_CFG_MEM 0 then (.hbm, base + k * snapStride groups)
  else (.host (d.fld F.PMC_CFG_HIER 0), base + k * snapStride groups)

/-- The counter tables of the selected groups, as the boundary found them: what a unit counts at the boundary belongs to the new
tick. -/
def Dev.latchCounters (d : Dev) (mask : Nat) : Tbl (Tbl (BitVec 48)) :=
  (d.pmc.edge.filter fun g => mask.testBit g.1).map fun g => (g.1, g.2.filter fun c => !cntAbsent d.part g.1 c.1)

/-- Whether the snapshot area lies in the host memory of a hierarchy that is HELD. -/
def Dev.snapHeld (d : Dev) : Bool :=
  match (d.snapHome 0 0).1 with
  | .host h => d.heldHier h
  | _ => false

/-- Where the sequence word of a snapshot lies. -/
def Dev.snapSeq (d : Dev) (n : Snap) : Space × Nat :=
  let h := d.snapHome n.groups (n.num % d.snapSlots)
  (h.1, h.2 + 64 + 8 * entryCount n.groups)

/-- SNAPSHOT_DUE (R468, R470): at an edge at which a snapshot falls due, every selected counter is latched, or the
snapshot is skipped while the previous one is being written. -/
def Dev.snapshotDue (d : Dev) : Dev :=
  let due := d.flag F.PMC_CFG_EN 0 && (d.clk.tick.toNat % d.snapPeriod == 0 || d.pmc.now) &&
    d.pmc.dueAt != some d.clk.edges
  if !due then d
  else
    let d := { d with pmc := { d.pmc with dueAt := some d.clk.edges } }
    match d.pmc.cur with
    | some _ =>
      let d := (d.setFld F.PMC_STATUS_SKIPPED 0 1).raise 0x0501 []
      { d with pmc := { d.pmc with skip := true } }
    | none =>
      let g := d.fld F.PMC_GROUPS_MASK 0
      let n : Snap := { num := d.pmc.num + 1, tick := d.clk.tick, device := d.fld F.RTE_ID_DEVICE 0, groups := g,
                        epoch := d.fld F.TCK_STATUS_EPOCH 0, fabric := d.flag F.TCK_STATUS_FABRIC 0, now := d.pmc.now,
                        skipped := d.pmc.skip, period := d.fld F.PMC_CFG_PERIOD 0, cnts := d.latchCounters g }
      let d := { d with pmc := { d.pmc with num := n.num, cur := some n, skip := false } }
      let d := d.setFld F.PMC_STATUS_WRITING 0 1
      -- The tick work begins with SEQ = 0; while the hierarchy is HELD the write waits.
      if d.snapHeld then d else d.store (d.snapSeq n).1 (d.snapSeq n).2 (leBytes 8 0)

/-- SNAPSHOT_DUE: the counters are latched, or the snapshot is skipped (R468, R470). DEDUCED, unsafe (assumption 115). -/
def execSnapshotDue (s : State) : Host.Outcome State Fault Refusal := s.run Dev.snapshotDue

/-- Stages a NOW at L0 while EN is 1 (R468, Table 17-8). -/
def Dev.pmcNow (d : Dev) (src : Src) (late : Bool) : Dev :=
  if d.level src = 0 && d.flag F.PMC_CFG_EN 0 then d.stage src.fn late .pmcNow else d

/-- PMC_NOW: a tick-aligned NOW makes a snapshot fall due at the edge that applies it. -/
def execPmcNow (src : Src) (late : Bool) (s : State) : Host.Outcome State Fault Refusal := s.run (·.pmcNow src late)

/-- SNAPSHOT_WRITE_DONE (R470, R472): the slot is written in order with its SEQ last and the counter pages take it, or
the write fails and its SEQ stays 0. While the hierarchy is HELD the write waits. -/
def Dev.snapshotWritten (d : Dev) (ok : Bool) : Dev :=
  match d.pmc.cur with
  | none => d
  | some n =>
    if d.snapHeld then d
    else
    let h := d.snapHome n.groups (n.num % d.snapSlots)
    let seqAt := (d.snapSeq n).2
    let d := d.setFld F.PMC_STATUS_WRITING 0 0
    let d := d.store h.1 seqAt (leBytes 8 0)
    if ok then
      let d := (d.store h.1 h.2 (n.header ++ n.entries)).store h.1 seqAt (leBytes 8 n.num)
      let d := (d.setReg .PMC_SEQ_LO 0 (BitVec.ofNat 32 n.num)).setReg .PMC_SEQ_HI 0 (BitVec.ofNat 32 (n.num / 2 ^ 32))
      { d with pmc := { d.pmc with cur := none, page := some n } }
    else
      let d := (d.setFld F.PMC_STATUS_WRITE_FAIL 0 1).raise 0x0502 []
      { d with pmc := { d.pmc with cur := none } }

/-- SNAPSHOT_WRITE_DONE: the slot is written, or its write has failed (R470, R472). -/
def execSnapshotWriteDone (res : MemRes) (s : State) : Host.Outcome State Fault Refusal :=
  s.run (·.snapshotWritten (res == .ok))

/-- The counter page of function `fn` (R472): the header of the latest written snapshot, its entries of groups 3 to 12 and its SEQ;
0 where nothing was written and where PAGE of `PMC_USER_EN` is 0. -/
def Dev.counterPage (d : Dev) (fn : Nat) : List Byte :=
  match d.pmc.page with
  | some n =>
    if d.flag F.PMC_USER_EN_PAGE fn then
      let entry := fun (g j : Nat) => if n.groups.testBit g then (Tbl.getD (Tbl.getD n.cnts g []) j 0#48).toNat else 0
      let body := (groupEntries.zipIdx.drop 3).flatMap fun g => (List.range g.1).flatMap fun j => leBytes 8 (entry g.2 j)
      n.header ++ body ++ leBytes 8 n.num ++ List.replicate 3224 0#8
    else List.replicate 4096 0#8
  | none => List.replicate 4096 0#8

/-- FREEZE set or cleared at L0 (R478, R481). No record is under way between commands, so FROZEN follows at once. -/
def Dev.freeze (d : Dev) (src : Src) (on : Bool) : Dev :=
  if d.level src ≠ 0 then d
  else if on then
    let at_ := match d.evr.freezeAt with
      | some e => some e
      | none => some d.clk.edges
    let d := { d with evr := { d.evr with freezeAt := at_ } }
    (d.setFld F.EVR_CTRL_FREEZE 0 1).setFld F.EVR_STATUS_FROZEN 0 1
  else
    let d := { d with evr := { d.evr with freezeAt := none } }
    (d.setFld F.EVR_CTRL_FREEZE 0 0).setFld F.EVR_STATUS_FROZEN 0 0

/-- EVR_FREEZE: a write of FREEZE stops or resumes recording. -/
def execEvrFreeze (src : Src) (on : Bool) (s : State) : Host.Outcome State Fault Refusal := s.run (·.freeze src on)

/-- EVR_FREEZE_TIMEOUT: a freeze that has lasted 3,125,000 ticks is released (R478). -/
def Dev.freezeTimeout (d : Dev) : Dev :=
  match d.evr.freezeAt with
  | none => d
  | some e => if e + 3125000 ≤ d.clk.edges then (d.freeze .fw false).raise 0x0401 [] else d

/-- EVR_FREEZE_TIMEOUT: a freeze of 3,125,000 ticks is released (R478). -/
def execEvrFreezeTimeout (s : State) : Host.Outcome State Fault Refusal := s.run Dev.freezeTimeout

/-- CLEAR_PERM (R474, R476): every CHECK of the area gets the complement of its value and RNUM restarts at 0; a slot at its
endurance is no longer written (R504). -/
def Dev.clearPerm (d : Dev) (src : Src) : Dev :=
  if d.level src ≠ 0 then d
  else
    let d := { d with evr := { d.evr with
                perm := d.evr.perm.map fun (x : Nat × EvRec) =>
                  if 100000 ≤ Tbl.getD d.evr.wear x.1 0 then x else (x.1, { x.2 with empty := true })
                wear := (List.range 256).foldl (fun t i => Tbl.set t i (min 100000 (Tbl.getD t i 0 + 1))) d.evr.wear
                permNext := 0, permUsed := 0, f4Count := 0, fullRaised := false } }
    d.setFld F.EVR_STATUS_PERM_USED 0 0

/-- CLEAR_PERM (R476). -/
def execClearPerm (src : Src) (s : State) : Host.Outcome State Fault Refusal := s.run (·.clearPerm src)

/-- CLEAR_CIRC (R474): every circulating slot becomes empty and RNUM restarts at 0. -/
def Dev.clearCirc (d : Dev) (src : Src) : Dev :=
  if d.level src ≠ 0 then d
  else
    let d := { d with evr := { d.evr with
                circ := Tbl.mapVal (fun e => { e with empty := true }) d.evr.circ, circNext := 0 } }
    d.setFld F.EVR_STATUS_CIRC_COUNT 0 0

/-- CLEAR_CIRC: the circulating area is emptied (`EVR_CTRL.CLEAR_CIRC`). -/
def execClearCirc (src : Src) (s : State) : Host.Outcome State Fault Refusal := s.run (·.clearCirc src)

/-- Whether the word at an offset is a `_LO` word under the shadow rule (R110). -/
def isShadowLo (off : Nat) : Bool :=
  match counterAt off with
  | some (_, _, hi) => !hi
  | none =>
    match regAt off with
    | some (r, _) => shadowPairs.any fun p => decide (p.1 = r)
    | none => false

/-- SHADOW_LO_READ: a read of a `_LO` word returns the live word and latches its `_HI` word (R110, R40). -/
def execShadowLoRead (src : Src) (off : BitVec 25) (s : State) : Host.Outcome State Fault Refusal :=
  s.run fun d => if isShadowLo off.toNat then d.readAccess src off.toNat 4 else d

/-- Whether the word at an offset has RC fields. -/
def isReadClear (off : Nat) : Bool :=
  match regAt off with
  | some (r, _) => r.accMask [.rc] != 0#32
  | none => false

/-- READ_CLEAR: a read of an RC register returns its value and clears it (R525), in the sizes of R527. -/
def execReadClear (src : Src) (off : BitVec 25) (size : Nat) (s : State) : Host.Outcome State Fault Refusal :=
  s.run fun d =>
    if isReadClear (off.toNat / 4 * 4) || isReadClear (off.toNat / 4 * 4 + 4) then d.readAccess src off.toNat size else d

end Sys2Proof.Machine
end

