-- ==== Sys2Proof/Machine/RegWrite.lean ====
section
/-!
DEFINITION. Register writes: by level, state and access code (R525 to R534), tick-aligned where the register is (R32), and the
unit's own operation where a register has one.
-/

namespace Sys2Proof.Machine

/-- The word a unit sees where only the bits of `m` are written: other RW bits as they are, other bits 0. -/
def Reg.eff (r : Reg) (old v m : Word) : Word := (old &&& ~~~m &&& r.accMask [.rw, .rwp]) ||| (v &&& m)

/-- Table 20-1 applied to copy `c` of a register. -/
def Dev.plain (d : Dev) (r : Reg) (c : Nat) (v m : Word) : Dev := d.setReg r c (Reg.merge r (d.rd r c) v m)

/-- A write that is accepted in some states only; in others it is ignored and flagged. -/
def Dev.gated (d : Dev) (ok : Bool) (fn off : Nat) (r : Reg) (c : Nat) (v m : Word) : Dev :=
  if ok then d.plain r c v m else d.stateWrite fn off

/-- Whether a domain is assigned to the function that a queue or context is assigned to; firmware has those of neither (R211,
R266). -/
def Dev.domainOf (d : Dev) (owner : Option Nat) (pd : Nat) : Bool := Tbl.get d.own.domain pd == owner

/-- A write of `WQ_Q_CFG` (R210, R211, R237): MEM only at L0 and only with HBM; a domain that is not the function's refuses the
write. DEDUCED, unsafe (assumption 20). -/
def Dev.wqCfgWrite (d : Dev) (src : Src) (off q : Nat) (v m : Word) : Dev :=
  let old := d.rd .WQ_Q_CFG q
  let new := Reg.merge .WQ_Q_CFG old v m
  let new := if !d.part.hasHbm then F.WQ_Q_CFG_MEM.put new 0
    else if d.level src = 0 then new else F.WQ_Q_CFG_MEM.put new (F.WQ_Q_CFG_MEM.ofWord old)
  if d.qState q ≠ 0 then d.stateWrite src.fn off
  else if !d.domainOf (Tbl.get d.own.queue q) (F.WQ_Q_CFG_PD.ofWord new) then d.setFld F.WQ_STATUS_CFG_REFUSED src.fn 1
  else d.setReg .WQ_Q_CFG q new

/-- A write of `MTE_CTX_CFG` (R266, R267). -/
def Dev.mctxCfgWrite (d : Dev) (src : Src) (off c : Nat) (v m : Word) : Dev :=
  let new := Reg.merge .MTE_CTX_CFG (d.rd .MTE_CTX_CFG c) v m
  let new := if d.part.hasHbm then new else F.MTE_CTX_CFG_MEM.put new 0
  if d.mctxState c ≠ 0 then d.stateWrite src.fn off
  else if !d.domainOf (Tbl.get d.own.mctx c) (F.MTE_CTX_CFG_PD.ofWord new) then d.setFld F.MTE_STATUS_CFG_REFUSED 0 1
  else d.setReg .MTE_CTX_CFG c new

/-- A write of `MTE_CTX_CTRL` (R267, R10). -/
def Dev.mctxCtrlWrite (d : Dev) (src : Src) (c : Nat) (v : Word) : Dev :=
  if F.MTE_CTX_CTRL_ENABLE.ofWord v = 0 then d.mctxDisable c
  else if d.part.hasHbm then d.mctxEnable c
  else d.stateWrite src.fn 0xE00038

/-- A write of a group's `COL_GRP_CFG`, `COL_GRP_MEMBERS` or `COL_GRP_CHILD` (R319); EXACT_OK needs exact accumulators. -/
def Dev.colGrpWrite (d : Dev) (fn off : Nat) (r : Reg) (c g : Nat) (v m : Word) : Dev :=
  let m := if r = .COL_GRP_CFG ∧ !d.part.hasXac then m &&& ~~~F.COL_GRP_CFG_EXACT_OK.mask else m
  d.gated (d.colState g == 0 || d.colState g == 3) fn off r c v m

/-- A write of `PMC_CFG` (R480, R469): EN always, the rest while EN is 0. Snapshots are numbered from the edge at which EN became
1. DESIGN CHOICE, unsafe (assumption 21). -/
def Dev.pmcCfgWrite (d : Dev) (fn off : Nat) (v m : Word) : Dev :=
  let old := d.rd .PMC_CFG 0
  let new := Reg.merge .PMC_CFG old v m
  let new := if d.part.hasHbm then new else F.PMC_CFG_MEM.put new 0
  let on := F.PMC_CFG_EN.ofWord new
  if F.PMC_CFG_EN.ofWord old = 0 then
    let d := d.setReg .PMC_CFG 0 new
    if on = 1 then { d with pmc := { d.pmc with num := 0 } } else d
  else
    let d := d.setFld F.PMC_CFG_EN 0 on
    if F.PMC_CFG_EN.put new 1 = old then d else d.stateWrite fn off

/-- A write of `EVR_CTRL`. -/
def Dev.evrCtrlWrite (d : Dev) (src : Src) (v : Word) : Dev :=
  let d := if F.EVR_CTRL_CLEAR_PERM.ofWord v = 1 then d.clearPerm src else d
  let d := if F.EVR_CTRL_CLEAR_CIRC.ofWord v = 1 then d.clearCirc src else d
  d.freeze src (F.EVR_CTRL_FREEZE.ofWord v == 1)

/-- Whether every port of a group is DISABLED (R372). -/
def Dev.groupOff (d : Dev) (g : Nat) : Bool :=
  (List.range 4).all fun k => d.fld F.HSW_PORT_STATUS_STATE (4 * g + k) == 0

/-- A persistent word `i` with a setting of group `g` is written: what the word then holds takes effect at once while every port of
the group is DISABLED (R372). -/
def Dev.groupPut (d : Dev) (g i : Nat) (v : Word) : Dev :=
  let x := d.nvsPut i v
  if x.rd .NVS_WORD i ≠ d.rd .NVS_WORD i ∧ d.groupOff g then x.applyGroup g else x

/-- A write of `HSW_PORT_CFG[n]`: a ROLE of 3 is not written (R372). DEDUCED, unsafe (assumption 19). -/
def Dev.portCfgWrite (d : Dev) (n : Nat) (v m : Word) : Dev :=
  let new := Reg.merge .HSW_PORT_CFG (d.rd .HSW_PORT_CFG n) v m
  let new := if F.HSW_PORT_CFG_ROLE.ofWord new = 3 then F.HSW_PORT_CFG_ROLE.put new (F.HSW_PORT_CFG_ROLE.ofWord (d.rd .HSW_PORT_CFG n))
    else new
  d.groupPut (n / 4) (15 + n) new

/-- A write of persistent word `i` at L0 (R500): those of Table 18-7 are written as their registers are.
DEDUCED, unsafe (assumption 113). -/
def Dev.nvsWordWrite (d : Dev) (i : Nat) (v m : Word) : Dev :=
  let new := (d.rd .NVS_WORD i &&& ~~~m) ||| (v &&& m)
  if i < 3 ∨ 62 < i then d.nvsPut i new
  else if i < 15 then d.groupPut (i - 3) i new
  else d.portCfgWrite (i - 15) v m

/-- NVS_WRITE: a write through `NVS_WORD`, accepted at L0 only (R500). -/
def execNvsWrite (src : Src) (i : Fin 512) (v : Word) (s : State) : Host.Outcome State Fault Refusal :=
  s.run fun d => if d.level src = 0 then d.nvsWordWrite i.val v (~~~0#32) else d

/-- A write of `HSW_CFG`: TUN_PD while no tunnel is OPEN, and the persistent FW_HIER (R377, R382). -/
def Dev.hswCfgWrite (d : Dev) (v m : Word) : Dev :=
  let open_ := (List.range 64).any fun t => d.fld F.HSW_TUN_STATUS_STATE t == 2
  let d := if open_ then d else d.plain .HSW_CFG 0 v (m &&& F.HSW_CFG_TUN_PD.mask)
  if m &&& F.HSW_CFG_FW_HIER.mask = 0#32 then d
  else d.nvsPut 2 ((d.rd .NVS_WORD 2 &&& ~~~m) ||| (v &&& m))

/-- A write of `HSW_HIER[h]`: IPORT while the hierarchy is not ACTIVE; firmware sets `RTE_EP[h]` to the same port (R376). -/
def Dev.iportWrite (d : Dev) (late : Bool) (h : Nat) (v m : Word) : Dev :=
  if d.flag F.HSW_HIER_ACTIVE h then d
  else
    let d := d.plain .HSW_HIER h v m
    d.stage 4224 late (.reg .RTE_EP h (BitVec.ofNat 32 (d.fld F.HSW_HIER_IPORT h)) F.RTE_EP_PORT.mask)

/-- A write of `MBR_CFG`, `MBR_DIR_LO` or `MBR_DIR_HI`: the pool domain and the directory only while EN is 0 (Tables 12-8 and
12-9). Another directory leaves nothing of the old one in the cache. -/
def Dev.mbrWrite (d : Dev) (r : Reg) (v m : Word) : Dev :=
  let on := d.flag F.MBR_CFG_EN 0
  if r = .MBR_CFG then d.plain r 0 v (if on then m &&& ~~~F.MBR_CFG_POOL_PD.mask else m)
  else if on then d
  else { d.plain r 0 v m with mbr := { d.mbr with dir := [], order := [] } }

/-- A write of `GLB_FAULT_INJECT` (R464). -/
def Dev.injectWrite (d : Dev) (src : Src) (v : Word) : Dev :=
  if !d.mayInject src then d
  else
    let d := if F.GLB_FAULT_INJECT_RESTART.ofWord v = 1 ∧ d.ccUp then d.ccRestart (max 1 (d.fld F.GLB_CC_STATUS_STATE 0)) else d
    if F.GLB_FAULT_INJECT_FATAL.ofWord v = 1 then d.enterF4 9 0x0002 else d

/-- A write of `GLB_ERR`: with both bits cleared VALID goes too (Table 20-11). DEDUCED, unsafe (assumption 16). -/
def Dev.glbErrWrite (d : Dev) (fn : Nat) (v m : Word) : Dev :=
  let d := d.plain .GLB_ERR fn v m
  if d.rd .GLB_ERR fn = 0#32 then d.setFld F.GLB_ERR_ADDR_VALID fn 0 else d

/-- RATE follows a change of its class: RATE_MAX while rate control is off, else within its bounds (R203, Table 06-18).
DEDUCED, unsafe (assumption 146). -/
def Dev.ratesApplied (d : Dev) (tc : Nat) : Dev :=
  { d with trn := { d.trn with conns := Tbl.mapVal (fun c => if c.tc = tc then { c with rate := d.rateOf c } else c) d.trn.conns } }

/-- Tick-aligned registers, with the level their writes need (R125, R133, R134, R140, R167, R207, R425); the index is the copy. -/
def tickAligned (r : Reg) (c : Nat) : Option Nat :=
  match r with
  | .SWC_RSV | .RTE_ID | .RTE_CFG | .RTE_BIAS | .RTE_ADMIN_OUT | .RTE_PORT | .RTE_EP | .TRN_RC | .PWR_LIMIT | .PWR_COST => some 0
  | .SCH_CLASS => some (if c < 128 then 0 else 1)
  | .SCH_MARK => some (if c / 4 < 128 then 0 else 1)
  | .SCH_SHAPE => some (if c / 5 < 128 then 0 else 1)
  | _ => none

/-- The level at which a plain register accepts writes; 0 where its chapter names none (R525). -/
def Reg.writeLevel : Reg → Nat
  | .WQ_SEL | .WQ_STATUS => 2
  | .XLT_RGN_SEL | .XLT_RGN_ATTR | .XLT_RGN_OWNER | .XLT_RGN_BASE_LO | .XLT_RGN_BASE_HI | .XLT_RGN_LEN_LO | .XLT_RGN_LEN_HI
  | .XLT_RGN_PARENT | .MTE_SEL | .XLT_CTX_SEL | .XLT_INV_ADDR_LO | .XLT_INV_ADDR_HI | .XLT_STATUS | .XLT_LOCK_ADDR_LO
  | .XLT_LOCK_ADDR_HI | .XLT_LOCK_ENTRY_LO | .XLT_LOCK_ENTRY_HI | .XLT_FAULT_INFO | .EVR_RD_SEL => 1
  | _ => 0

/-- Registers that only L0 writes and that have a rule or an operation of their own. -/
def Dev.rootWrite (d : Dev) (src : Src) (late : Bool) (off : Nat) (r : Reg) (c : Nat) (v m : Word) : Dev :=
  let fn := src.fn
  let eff := Reg.eff r (d.rd r c) v m
  match r with
  | .TCK_PARENT => d.parentWrite v m
  | .PHY_CTRL => d.phyCtrlWrite src c eff
  | .PHY_CFG => d.phyCfgWrite src c eff
  | .PHY_TXEQ => d.phyTxeqWrite src c eff
  | .LNK_CTRL => if F.LNK_CTRL_FLUSH.ofWord eff = 1 then d.flush src c else d
  | .LNK_CFG =>
    -- SPILL_EN ignores writes on the VX9-TN (Table 03-12); the store follows the new spill space (R91, R92).
    (d.plain r c v (if d.part.hasSpill then m else m &&& ~~~F.LNK_CFG_SPILL_EN.mask)).lnkStoreSync c 0
  | .TRN_RC_RATE => (d.plain r c v m).ratesApplied c
  | .LNK_REPLAY_TO => d.gated (!d.flag F.LNK_CFG_AUTO_TO c) fn off r c v m
  | .SCH_OBS_CTRL => if F.SCH_OBS_CTRL_CLEAR.ofWord eff = 1 then d.stage fn late .obsClear else d
  | .RTE_TBL_CTRL => d.tblCtrlWrite src eff
  | .TRN_CTX_TIER_LO | .TRN_CTX_TIER_HI =>
    d.gated (d.trn.conns.all fun x => x.1 / 2 ^ 20 != c || x.2.state == 0) fn off r c v m
  | .MTE_SPILL_LO | .MTE_SPILL_HI | .MTE_SPILL_SIZE =>
    if d.mte.ctxs.all fun x => d.mctxState x.1 == 0 then d.plain r c v m else d
  | .COL_GRP_CFG | .COL_GRP_MEMBERS => d.colGrpWrite fn off r c c v m
  | .COL_GRP_CHILD => d.colGrpWrite fn off r c (c / r.count) v m
  | .COL_GRP_CTRL => d.colCtrlWrite src eff
  | .XLT_HR_MODE => d.hrModeWrite src c eff
  | .XLT_RGN_RANGE => d.plain r c v m
  | .MBR_CFG | .MBR_DIR_LO | .MBR_DIR_HI => d.mbrWrite r v m
  | .MBR_HIER_WIN | .MBR_HIER_CTX => if d.fld F.MBR_HIER_STATUS_STATE c = 0 then d.plain r c v m else d
  | .HSW_CFG => d.hswCfgWrite v m
  | .HSW_GRP_CFG => d.groupPut c (3 + c) (Reg.merge r (d.rd r c) v m)
  | .HSW_PORT_CFG => d.portCfgWrite c v m
  | .HSW_HIER => d.iportWrite late c v m
  | .PWR_HR => d.pwrHrWrite src c eff
  | .MBX_ROOT_MASK => d.nvsPut 63 (Reg.merge r (d.rd r c) v m)
  | .GLB_FAULT_INJECT => d.injectWrite src eff
  | .PMC_CFG => d.pmcCfgWrite fn off v m
  | .PMC_GROUPS =>
    let d := d.gated (!d.flag F.PMC_CFG_EN 0) fn off r c v m
    d.setReg .PMC_SLOT_SIZE 0 (BitVec.ofNat 32 (snapStride (d.fld F.PMC_GROUPS_MASK 0)))
  | .PMC_BASE_LO | .PMC_BASE_HI => d.gated (!d.flag F.PMC_CFG_EN 0) fn off r c v m
  | .PMC_CTRL => if F.PMC_CTRL_NOW.ofWord eff = 1 then d.pmcNow src late else d
  | .EVR_CTRL => d.evrCtrlWrite src eff
  | .NVS_WORD => d.nvsWordWrite c v m
  | .GLB_ERR => d.glbErrWrite fn v m
  | r => d.plain r c v m

/-- A write of the bits of `m` of register `r`, copy `c`, at offset `off`. DEDUCED, unsafe (assumption 14). -/
def Dev.regSet (d : Dev) (src : Src) (late : Bool) (off : Nat) (r : Reg) (c : Nat) (v m : Word) : Dev :=
  let fn := src.fn
  let lv := d.level src
  let eff := Reg.eff r (d.rd r c) v m
  match tickAligned r c with
  | some l => if lv ≤ l then d.stage fn late (.reg r c v m) else d
  | none =>
    match r with
    | .TCK_HOLD => match src with
      | .pf _ => if lv ≤ 1 then d.holdWrite fn late (F.TCK_HOLD_HOLD.ofWord eff == 1) else d
      | _ => d
    | .WQ_Q_BASE_LO | .WQ_Q_BASE_HI | .WQ_Q_BIND | .WQ_EQ_COAL => d.gated (d.qState c == 0) fn off r c v m
    | .WQ_Q_CFG => d.wqCfgWrite src off c v m
    | .WQ_Q_CTRL => d.wqCtrlWrite src eff
    | .MTE_CTX_CFG => if lv ≤ 1 then d.mctxCfgWrite src off c v m else d
    | .MTE_CTX_UX_LO | .MTE_CTX_UX_HI | .MTE_CTX_SLOTS | .MTE_CTX_LIMIT =>
      if lv ≤ 1 then d.gated (d.mctxState c == 0) fn off r c v m else d
    | .MTE_CTX_CTRL => if lv ≤ 1 then d.mctxCtrlWrite src c eff else d
    | .XLT_RGN_CMD => d.rgnCmdWrite src eff late
    | .XLT_CTX_CFG => d.xctxCfgWrite src eff
    | .XLT_CTX_ROOT_LO | .XLT_CTX_ROOT_HI => if lv ≤ 1 then d.gated (d.xctxState c == 0) fn off r c v m else d
    | .XLT_INV_CTRL => d.invCtrlWrite src eff
    | .XLT_LOCK_CTRL => d.lockCtrlWrite src eff
    | .PMC_CFG | .PMC_GROUPS | .PMC_BASE_LO | .PMC_BASE_HI =>
      if lv = 0 then d.rootWrite src late off r c v m else d.stateWrite fn off
    | .PMC_USER_EN => if lv = 0 ∨ (lv = 1 ∧ d.pfOf c = fn) then d.plain r c v m else d
    | .MBX_A => d.argWrite fn (c % 16) eff
    | .MBX_DOORBELL => d.mbxDoorbell fn eff
    | .MBX_CONSUME => d.mbxConsume fn eff
    | .MBX_BULK_OWN => match src with
      | .pf _ => d.plain r c v m
      | _ => d
    | r => if r.writeLevel = 0 then (if lv = 0 then d.rootWrite src late off r c v m else d)
      else if lv ≤ r.writeLevel then d.plain r c v m else d

/-- A write of the bits of `m` of the word at an offset of the first BAR (R525, R528, R532). -/
def Dev.writeWord (d : Dev) (src : Src) (late : Bool) (off : Nat) (v m : Word) : Dev :=
  let view := match src with
    | .vf _ => vfView off
    | _ => true
  if !view || d.level src == 3 || d.inReset || (counterAt off).isSome then d
  else if 0x400000 ≤ off ∧ off < 0x404000 then
    let l := (off - 0x400000) / 4
    let w := v &&& m
    let ok := match lockOpOf w with
      | 2 => d.mayForce src (w.toNat % 2 ^ 13)
      | 3 => decide (d.level src ≤ 1)
      | _ => true
    if d.mayLock src l && ok then d.lockWord l (lockRequester src) w else d
  else if 0xB00000 ≤ off ∧ inTables (off - 0xB00000) = true then
    let o := off - 0xB00000
    d.writeBank src o ((Tbl.getD d.rte.staged (o / 4) 0#32 &&& ~~~m) ||| (v &&& m))
  else
    match regAt off with
    | none => d
    | some (r, i) =>
      if r.absent d.part i then d
      else match d.copy src.fn r i with
        | none => d
        | some c => d.regSet src late off r c v m

/-- A write access of the first BAR or of a register view: 4 or 8 bytes, aligned (R527). DEDUCED, unsafe (assumption 135). -/
def Dev.writeAccess (d : Dev) (src : Src) (late : Bool) (off size : Nat) (v : BitVec 64) : Dev :=
  if d.level src = 3 ∨ d.inReset then d
  else if size = 4 ∧ off % 4 = 0 then d.writeWord src late off (v.setWidth 32) (~~~0#32)
  else if size = 8 ∧ off % 8 = 0 then
    (d.writeWord src late off (v.setWidth 32) (~~~0#32)).writeWord src late (off + 4) ((v >>> 32).setWidth 32) (~~~0#32)
  else d.glbErr src.fn F.GLB_ERR_SIZE off

/-- The word that a write of bytes at offset `o` of a page leaves at offset `k`; none where it writes no byte of it. -/
def pageWord (o : Nat) (bs : List Byte) (k : Nat) : Option Word :=
  if k + 4 ≤ o ∨ o + bs.length ≤ k then none
  else some (BitVec.ofNat 32 (leNat ((List.range 4).map fun i => if o ≤ k + i then bs.getD (k + i - o) 0#8 else 0#8)))

/-- A write of any size to the doorbell page of queue `q` (R219, Table 07-22): ignored and counted where the queue is not the
function's. DESIGN CHOICE, unsafe (assumption 17). -/
def Dev.pageWrite (d : Dev) (src : Src) (off : Nat) (bs : List Byte) : Dev :=
  let q := off / 4096
  let o := off % 4096
  let mine := match src with
    | .fw => true
    | .debug _ => false
    | _ => Tbl.get d.own.queue q == some src.fn
  if d.level src = 3 ∨ d.inReset ∨ 65536 ≤ q then d
  else if !mine then d.count 5 7
  else
    let d := match pageWord o bs 0 with
      | some _ => d.doorbell q
      | none => d
    let d := match pageWord o bs 8 with
      | some w => d.eqConsumed q w
      | none => d
    match pageWord o bs 12 with
    | some w => d.eqCtrlWrite q w
    | none => d

/-- What a register write does, whatever it aims at. -/
def Dev.write (d : Dev) (src : Src) (tgt : Tgt) (late : Bool) : Dev :=
  match tgt with
  | .reg off size v => d.writeAccess src late off.toNat size v
  | .bulk off bs => if off.val % 4096 + bs.length ≤ 4096 ∧ !d.inReset then d.bulkWrite src off.val bs else d
  | .page off bs => d.pageWrite src off bs

/-- REGISTER_WRITE. -/
def execRegisterWrite (src : Src) (tgt : Tgt) (late : Bool) (s : State) : Host.Outcome State Fault Refusal :=
  afterDown (s.run (·.write src tgt late))

/-- Whether the word at an offset holds an RWP field whose persistent word is worn (R503). -/
def Dev.wornAt (d : Dev) (off : Nat) (m : Word) : Bool :=
  match regAt off with
  | some (r, i) =>
    match r with
    | .NVS_WORD => d.worn i
    | .HSW_GRP_CFG => d.worn (3 + i)
    | .HSW_PORT_CFG => d.worn (15 + i)
    | .MBX_ROOT_MASK => d.worn 63
    | .HSW_CFG => d.worn 2 && m &&& F.HSW_CFG_FW_HIER.mask != 0#32
    | _ => false
  | none => false

/-- REG_WRITE: firmware writes the masked bits at L0; the register's own rules apply. DEDUCED, unsafe (assumption 18). -/
def execRegWrite (ch : Chan) (late : Bool) (s : State) : Host.Outcome State Fault Refusal :=
  afterDown (s.run fun d => d.serve ch 5 false [0] fun d =>
    let off := d.arg ch.val 1
    let m := BitVec.ofNat 32 (d.arg ch.val 3)
    if 0x2000000 ≤ off ∨ off % 4 ≠ 0 then d.refuse 4
    else if d.wornAt off m then d.refuse 9
    else (0, [], d.writeWord .fw late off (BitVec.ofNat 32 (d.arg ch.val 2)) m))

end Sys2Proof.Machine
end

