-- ==== Sys2Proof/Machine/Tick.lean ====
section
/-!
DEFINITION. The tick edge (R13 to R37, Tables 01-3 and 01-13) with Topiary's grant (R416 to R423), and tick work that overruns
(R30).
-/

namespace Sys2Proof.Machine

/-! The tick number and its alignment. -/

/-- The next tick number: one more, and the numbers that R15 skips (R13). The tick that ends has had its length, which moved the
boundary against those of the neighbours (R26). -/
def Dev.nextTick (d : Dev) : Dev :=
  let moved : Int := 125 * ((d.clk.len : Int) - 1024)
  { d with clk := { d.clk with prev := d.clk.tick, tick := d.clk.tick + 1 + BitVec.ofNat 64 d.clk.skip, skip := 0,
                               edges := d.clk.edges + 1, deferred := [], cycles := d.clk.cycles + d.clk.len, len := 1024,
                               offs := d.clk.offs.mapVal (· + moved) },
           pmc := { d.pmc with edge := d.cnts, now := false } }

/-- `TCK_STATUS.ALIGN_ERR` for an offset in units of 5 ps: units of 0.25 ns, as 8-bit two's complement, at most ±127. -/
def alignWord (x : Int) : Nat := ((max (-127) (min 127 (x / 50))) % 256).toNat

/-- The alignment against the clock parent's markers (R24, R26): the estimate is shown, beyond 4 ns ALIGNED is cleared and the event
raised, and the tick that begins is a core cycle shorter or longer to correct it. DEDUCED, unsafe (assumption 31). -/
def Dev.align (d : Dev) : Dev :=
  match Tbl.get d.clk.offs (d.fld F.TCK_PARENT_ACTIVE 0) with
  | none => d
  | some x =>
    if d.clkState ≠ 2 ∧ d.clkState ≠ 3 then d
    else
      let was := d.flag F.TCK_STATUS_ALIGNED 0
      let d := d.setFld F.TCK_STATUS_ALIGN_ERR 0 (alignWord x)
      let d := { d with clk := { d.clk with len := if 63 ≤ x then 1023 else if x ≤ -63 then 1025 else 1024 } }
      if x.natAbs ≤ 800 then d.setFld F.TCK_STATUS_ALIGNED 0 1
      else
        let d := d.setFld F.TCK_STATUS_ALIGNED 0 0
        if was then d.raise 0x1306 [] else d

/-! Staged writes (R32). -/

/-- A new power limit takes effect; one outside 150 W to 560 W is clamped (R417). -/
def Dev.limitApplied (d : Dev) : Dev :=
  let w := d.fld F.PWR_LIMIT_WATTS 0
  let d := if w < 150 ∨ 560 < w then d.setFld F.PWR_STATUS_CLAMP 0 1 else d
  d.raise 0x1403 []

/-- Applies one staged write. -/
def Dev.applyStaged (d : Dev) (a : StagedAct) : Dev :=
  match a with
  | .reg r i v m =>
    let w := r.merge (d.rd r i) v m
    match r with
    | .SWC_RSV => d.rsvApplied i w
    | .SCH_SHAPE => (d.setReg r i w).shapeApplied i v
    | .PWR_LIMIT => (d.setReg r i w).limitApplied
    | .TRN_RC => (d.setReg r i w).ratesApplied i
    | _ => d.setReg r i w
  | .obsClear => d.clearStats
  | .pmcNow => { d with pmc := { d.pmc with now := true } }
  | .prot i v => d.applyProt i v
  | .dirEnt x e => d.dirApply x e

/-- Applies the writes that are due at this boundary, oldest first. Held writes stay (R35). -/
def Dev.applyDue (d : Dev) : Dev :=
  let due := fun (x : Staged) => match x.due with
    | some e => decide (e ≤ d.clk.edges)
    | none => false
  let xs := d.clk.staged.filter due
  let d := { d with clk := { d.clk with staged := d.clk.staged.filter fun x => !due x } }
  (xs.foldl (fun (d : Dev) x => d.applyStaged x.act) d).pruneProt

/-! Samples of the lanes and modules (R51 to R53). -/

/-- `MODPRS_N` of every port: runs of consecutive equal samples. DEDUCED, unsafe (assumption 33). -/
def Dev.samplePresence (d : Dev) (low : List Port) : Dev :=
  (List.range 128).foldl (fun (d : Dev) p =>
    let x := d.port p
    if low.any fun q => q.val == p then
      d.modPort p fun y => { y with highRun := 0, lowRun := min 25000 (x.lowRun + 1) }
    else if x.highRun = 2 ∧ x.lowRun = 0 then d
    else d.modPort p fun y => { y with highRun := min 2 (x.highRun + 1), lowRun := 0 }) d

/-- Figures of merit are refreshed, and those of lanes in service are held against FOM_MIN (R51, R52). -/
def Dev.sampleFom (d : Dev) (fom : List (Port × Fin 4 × Byte)) : Dev :=
  let d := fom.foldl (fun (d : Dev) x => d.setFld F.PHY_LANE_STATUS_FOM (4 * x.1.val + x.2.1.val) x.2.2.toNat) d
  (List.range 128).foldl (fun (d : Dev) p =>
    if d.phyState p ≠ 4 then d
    else
      let least := d.fld F.PHY_CFG_FOM_MIN p
      (d.lanes p).foldl (fun (d : Dev) l =>
        let f := d.fld F.PHY_LANE_STATUS_FOM (4 * p + l)
        let x := d.port p
        let low := if 2 * f < least then Tbl.set x.fomLow l (Tbl.getD x.fomLow l 0 + 1) else Tbl.erase x.fomLow l
        let told := if least ≤ f then x.fomRaised.filter (· != l) else x.fomRaised
        d.modPort p fun y => { y with fomLow := low, fomRaised := told }) d) d

/-- The FOM of each trial in stage 7 is taken (R60). -/
def Dev.tuneEdge (d : Dev) : Dev :=
  (List.range 128).foldl (fun (d : Dev) p =>
    if d.inStage p 7 then (d.port p).tune.foldl (fun (d : Dev) x => d.tuneFom p x.1) d else d) d

/-- Errors that the checkers of ports in test mode count (R51, R64). -/
def Dev.samplePrbs (d : Dev) (errs : List (Port × Fin 4 × Nat)) : Dev :=
  errs.foldl (fun (d : Dev) x =>
    if d.phyState x.1.val = 6 ∧ d.phyStage x.1.val = 7 then d.bump F.PHY_PRBS_ERR_COUNT (4 * x.1.val + x.2.1.val) x.2.2
    else d) d

/-! Units 0 to 4 and 7. -/

/-- The items of unit `u` whose tick work the edge leaves over. -/
def lateItems (e : EdgeIn) (u : Nat) : List Nat := (e.late.filter fun x => x.1.val == u).map (·.2)

/-- The congestion digests, the live mask, the refills, the samples and the credit audit (units 0 to 4 of Table 01-3). A device
in F4 sends no digest (R450). -/
def Dev.fabricEdge (d : Dev) (e : EdgeIn) : Dev :=
  let d := d.rebuildLive.installDigests
  let d := if d.halted then d else d.sendDigests
  let d := d.latchLevels.buildAt (!(lateItems e 0).isEmpty)
  ((d.refillAll (lateItems e 2)).sampleQueues (lateItems e 3)).auditLatch (lateItems e 4)

/-- A resident connection below RATE_MAX is raised (R205). -/
def Dev.raiseRate (d : Dev) (n : Nat) : Dev :=
  let c := d.conn n
  let most := d.fld F.TRN_RC_RATE_RATE_MAX c.tc
  if c.resident ∧ c.rate < most then d.modConn n fun c => { c with rate := min most (c.rate + d.fld F.TRN_RC_AI c.tc) } else d

/-- Every resident connection below RATE_MAX is raised (R205); raises that the tick before left over come first, and those of the
connections in `late` are left over (R30). -/
def Dev.raiseRates (d : Dev) (late : List Nat) : Dev :=
  let old := d.clk.late.rates
  let now := (d.trn.conns.filter fun e => e.2.resident).map (·.1)
  let d := { d with clk := { d.clk with late := { d.clk.late with rates := now.filter late.contains } } }
  (old ++ now.filter fun n => !late.contains n).foldl Dev.raiseRate d

/-- The collective unit's intake of the tick that ended is shown, and a new tick's intake begins (R311). -/
def Dev.colEdge (d : Dev) : Dev :=
  let d := (List.range 4).foldl (fun (d : Dev) u => d.setFld F.COL_UNIT_INTAKE u (min 1024 (Tbl.getD d.col.cells u 0))) d
  { d with col := { d.col with cells := [], share := [], stall := [] } }

/-! Regions (R36, R37). -/

/-- Hedgerows that share an edge of the 8 × 8 grid with hedgerow `h`. -/
def hrNeighbours (h : Nat) : List Nat :=
  (if h % 8 = 0 then [] else [h - 1]) ++ (if h % 8 = 7 then [] else [h + 1]) ++ (if h < 8 then [] else [h - 8]) ++
    (if 56 ≤ h then [] else [h + 8])

/-- Dies adjacent to die `n`, numbered as `PWR_DIE` numbers them: the core die and each other; port dies in pairs. -/
def dieNeighbours (n : Nat) : List Nat :=
  if n = 0 then (List.range 10).map (· + 1)
  else if n ≤ 8 then [0, if n % 2 = 1 then n + 1 else n - 1]
  else [0]

/-- Whether die `n` is in the package. -/
def hasDie (p : Part) (n : Nat) : Bool := decide (n < 9) || p.hlDies.testBit (n - 9)

/-- The largest amount by which region `a` lies above a neighbour, where both were sampled; 0 where it lies above none. -/
def excess (t : Tbl Nat) (near : Nat → List Nat) (a : Nat) : Nat :=
  match Tbl.get t a with
  | none => 0
  | some x => (near a).foldl (fun m b => match Tbl.get t b with
      | some y => max m (x - y)
      | none => m) 0

/-- The largest amount by which region `a` lies below a neighbour. -/
def shortfall (t : Tbl Nat) (near : Nat → List Nat) (a : Nat) : Nat :=
  match Tbl.get t a with
  | none => 0
  | some x => (near a).foldl (fun m b => match Tbl.get t b with
      | some y => max m (y - x)
      | none => m) 0

/-- Raises the clock floor of a hedgerow by one state; REGION_LIMIT is set and the event raised in any case (R37). -/
def Dev.raiseFloor (d : Dev) (h : Nat) : Dev :=
  let st := d.fld F.PWR_HR_STATE h
  let floor := fun (d : Dev) (l : Nat) => { d with clk := { d.clk with floor := Tbl.set d.clk.floor h (l, none) } }
  let told := fun (d : Dev) => (d.setFld F.TCK_STATUS_REGION_LIMIT 0 1).raise 0x1308 [h]
  if st = 0 then told (floor (d.setFld F.PWR_HR_STATE h 1) 1)
  else if st = 1 then told (floor ({ d with pwr := { d.pwr with ramp := Tbl.set d.pwr.ramp h d.clk.edges } }.setFld F.PWR_HR_STATE h 3) 2)
  else told (floor d 2)

/-- Supply differences between adjacent hedgerows: above 150 mV the lower one's floor is raised; a raised floor counts the
time since its difference has stayed below 120 mV. DEDUCED, unsafe (assumption 32). -/
def Dev.supplyEdge (d : Dev) (volts : List (Hedge × Nat)) : Dev :=
  let t : Tbl Nat := volts.map fun x => (x.1.val, x.2)
  (List.range 64).foldl (fun (d : Dev) h =>
    if 150 < shortfall t hrNeighbours h then d.raiseFloor h
    else
      match Tbl.get d.clk.floor h with
      | none => d
      | some (l, since) =>
        let calm := shortfall t hrNeighbours h < 120 ∧ excess t hrNeighbours h < 120
        let since := if calm then some (since.getD d.clk.edges) else none
        { d with clk := { d.clk with floor := Tbl.set d.clk.floor h (l, since) } }) d

/-- One region's share: lowered by one eighth in each tick from the start of convergence, above 30 °C, until the difference is
25 °C or less; then whole again. -/
def nextShare (held diff most : Nat) : Nat := if (if held = 0 then 30 else 25) < diff then min most (held + 1) else 0

/-- Temperature differences between adjacent hedgerows and between adjacent dies. -/
def Dev.heatEdge (d : Dev) (hr : List (Hedge × Nat)) (die : List (Fin 11 × Nat)) : Dev :=
  let t : Tbl Nat := hr.map fun x => (x.1.val, x.2)
  let told := fun (d : Dev) (n : Nat) => (d.setFld F.TCK_STATUS_REGION_LIMIT 0 1).raise 0x1309 [n]
  let d := (List.range 64).foldl (fun (d : Dev) h =>
    let was := d.fld F.PWR_HR_CONV h
    let now := nextShare was (excess t hrNeighbours h) 7
    let d := d.setFld F.PWR_HR_CONV h now
    if was = 0 ∧ now ≠ 0 then told d h else d) d
  let t : Tbl Nat := (die.filter fun x => hasDie d.part x.1.val).map fun x => (x.1.val, x.2)
  (List.range 11).foldl (fun (d : Dev) n =>
    let was := Tbl.getD d.clk.dieShare n 0
    let now := nextShare was (excess t dieNeighbours n) 8
    let d := { d with clk := { d.clk with dieShare := if now = 0 then Tbl.erase d.clk.dieShare n else Tbl.set d.clk.dieShare n now } }
    if was = 0 ∧ now ≠ 0 then told d n else d) d

/-! Topiary (R416 to R423). -/

/-- A die's scale in eighths: 8 up to the knee, one less for each full 1.25 °C above it (R423). -/
def dieScale (knee t : Nat) : Nat := 8 - (t - min knee 104) * 4 / 5

/-- Die temperatures and scales. DEDUCED, unsafe (assumption 35). -/
def Dev.scaleDies (d : Dev) (die : List (Fin 11 × Nat)) : Dev :=
  (die.filter fun x => hasDie d.part x.1.val).foldl (fun (d : Dev) x =>
    let n := x.1.val
    let was := d.fld F.PWR_DIE_SCALE n
    let now := dieScale (d.fld F.PWR_CFG_KNEE 0) x.2
    let d := (d.setFld F.PWR_DIE_TJ n (min 255 x.2)).setFld F.PWR_DIE_SCALE n now
    if was = 8 ∧ now < 8 then (d.setFld F.PWR_STATUS_THERM 0 1).raise 0x1402 [n] else d) d

/-- Whether `ALERT_N` is asserted (R512): a BMC channel holds a result, the device is in F4, or a die is scaled. -/
def Dev.alert (d : Dev) : Bool :=
  (List.range 16).any (fun c => d.flag F.MBX_RESULT_RESULT_VALID (4160 + c)) || d.f4 ||
    (List.range 11).any fun n => decide (d.fld F.PWR_DIE_SCALE n < 8)

/-- The state Topiary may choose at most; a cap of PARKED acts as F12 where the hedgerow is needed (R422). -/
def Dev.hrMost (d : Dev) (h : Nat) : Nat :=
  let m := min 2 (d.fld F.PWR_HR_MAX_STATE h)
  if m = 0 ∧ d.hrNeeded h = true then 1 else m

/-- Whether a hedgerow's engines and dispatch queue are idle. -/
def Dev.hrIdle (d : Dev) (h : Nat) : Bool :=
  F.ENG_HR_ENG_BUSY.ofWord (d.rd .ENG_HR_ENG h) == 0 && (d.dispatchQ h).isEmpty

/-- Parks hedgerows (R422): one that nothing needs and whose floor is not raised, once it has been idle long enough, was asked
to park, or is capped at PARKED. -/
def Dev.parkEdge (d : Dev) : Dev :=
  let force := d.pwr.force
  let d := { d with pwr := { d.pwr with force := [] } }
  (List.range 64).foldl (fun (d : Dev) h =>
    if d.fld F.PWR_HR_STATE h = 0 then d
    else
      let since := Tbl.getD d.pwr.idle h d.clk.edges
      let idle := if d.hrIdle h then Tbl.set d.pwr.idle h since else Tbl.erase d.pwr.idle h
      let d := { d with pwr := { d.pwr with idle := idle } }
      let long := d.hrIdle h && decide (since + d.fld F.PWR_CFG_PARK_IDLE 0 ≤ d.clk.edges)
      if d.hrNeeded h ∨ (Tbl.get d.clk.floor h).isSome then d
      else if long ∨ force.contains h ∨ d.hrMost h = 0 then
        ({ d with pwr := { d.pwr with idle := Tbl.erase d.pwr.idle h, ramp := Tbl.erase d.pwr.ramp h } }).setFld F.PWR_HR_STATE h 0
      else d) d

/-- Hedgerows whose raise was not admitted in the tick that ended return to F12 and are not raised again for HOLD ticks
(R421). -/
def Dev.lowerEdge (d : Dev) : Dev :=
  let hs := d.pwr.lower
  let d := { d with pwr := { d.pwr with lower := [] } }
  hs.foldl (fun (d : Dev) h =>
    if d.fld F.PWR_HR_STATE h < 2 then d
    else
      let p := { d.pwr with ramp := Tbl.erase d.pwr.ramp h,
                            holdTo := Tbl.set d.pwr.holdTo h (d.clk.edges + d.fld F.PWR_CFG_HOLD 0) }
      ({ d with pwr := p }).setFld F.PWR_HR_STATE h 1) d

/-- Units that each kind receives, up to its demand, while any are left: number, demand and grant; work on the core die has a
cap of its own (R418, R423). Answers also what is left of both. -/
def grantOut : Nat → Nat → List (Nat × Nat × Bool) → List (Nat × Nat × Nat) × Nat × Nat
  | left, cap, [] => ([], left, cap)
  | left, cap, (k, want, core) :: ks =>
    let got := min want (if core then min left cap else left)
    let r := grantOut (left - got) (if core then cap - got else cap) ks
    ((k, want, got) :: r.1, r.2)

/-- Depth by which P5 orders hedgerows: dispatch queue and match input (R418). -/
def Dev.hrDepth (d : Dev) (h : Nat) : Nat :=
  (d.dispatchQ h).length + (d.mte.ctxs.filter fun c => c.1 % 64 == h).foldl (fun n c => n + c.2.input.length) 0

/-- Puts a hedgerow in its place: the deepest first, the lower number first on ties. -/
def insertDepth (x : Nat × Nat) : List (Nat × Nat) → List (Nat × Nat)
  | [] => [x]
  | y :: ys => if y.1 < x.1 then x :: y :: ys else y :: insertDepth x ys

/-- Hedgerows that ask to run at F16: unparked, not capped below it, their raise not withheld by R37, and not just lowered; the
deepest first. -/
def Dev.wantRaise (d : Dev) : List Nat :=
  (((List.range 64).filter fun h =>
      d.fld F.PWR_HR_STATE h != 0 && d.hrMost h == 2 && d.fld F.PWR_HR_CONV h == 0 &&
        decide (Tbl.getD d.pwr.holdTo h 0 ≤ d.clk.edges)).foldl (fun xs h => insertDepth (d.hrDepth h, h) xs) []).map (·.2)

/-- Hedgerows whose floor R37 has raised to F16. -/
def Dev.floored (d : Dev) : List Nat := (d.clk.floor.filter fun x => x.2.1 == 2).map (·.1)

/-- A hedgerow's raise is admitted: from F12 it enters RAMP (R421). -/
def Dev.raiseHr (d : Dev) (h : Nat) : Dev :=
  if d.fld F.PWR_HR_STATE h = 1 then
    ({ d with pwr := { d.pwr with ramp := Tbl.set d.pwr.ramp h d.clk.edges } }).setFld F.PWR_HR_STATE h 3
  else d

/-- Demand of the block combinations of kind `k` that wait. -/
def Dev.colDemand (d : Dev) (k : Nat) : Nat :=
  d.fld F.PWR_COST_COST k * d.col.grps.foldl (fun n y => y.2.ups.foldl (fun n o =>
    match o.par with
    | some p => if p.kind = k then n + o.offers.length else n
    | none => n) n) 0

/-- `PWR_GRANT`: what was granted and demanded in the tick that ended, in 1/16 token (Table 14-12).
DEDUCED, unsafe (assumption 36). -/
def Dev.showGrants (d : Dev) : Dev :=
  (List.range 8).foldl (fun (d : Dev) k =>
    let g := Tbl.getD d.pwr.given (if k = 7 then 8 else k) (0, 0)
    (d.setFld F.PWR_GRANT_GRANTED k (min 0xFFFF (g.1 / 64))).setFld F.PWR_GRANT_DEMAND k (min 0xFFFF (g.2 / 64))) d

/-- The power limit in force: 150 W to 560 W (R417). -/
def Dev.watts (d : Dev) : Nat := max 150 (min 560 (d.fld F.PWR_LIMIT_WATTS 0))

/-- Topiary's grant for the tick that begins (R416, R418, R421, R423): `base` is BASE. DEDUCED, unsafe (assumption 34). -/
def Dev.topiary (d : Dev) (base : Nat) (e : EdgeIn) : Dev :=
  let late := lateItems e 5
  let old := d.clk.late.grants
  let cost := fun k => d.fld F.PWR_COST_COST k
  let tokens := d.watts * 64 / 100
  let deficit := (d.pwr.p0 - d.pwr.avail).toNat
  let avail : Int := tokens * 1024 - base - deficit
  -- P0, always in full.
  let on := (List.range 64).filter fun h => d.fld F.PWR_HR_STATE h != 0 || (Tbl.get d.clk.floor h).isSome
  let f12 := on.length * cost 0
  let bursts := fun (first : Bool) => (d.arb.filter fun r => r.hbm && decide (r.client ≤ 2) == first).length
  let hbm0 := bursts true * cost 6
  let d := ((d.setFld F.PWR_BUDGET_TOKENS 0 tokens).setFld F.PWR_BUDGET_BASE 0 (min 0xFFFFF base))
  let d := d.setFld F.PWR_STATUS_DEFICIT 0 (min 0xFFFFF deficit)
  let d := if f12 ≤ avail then d else (d.setFld F.PWR_STATUS_FLOOR_OVER 0 1).raise 0x1401 []
  let left := (avail - (f12 + hbm0 : Nat)).toNat
  -- Each die's share of what P0 leaves.
  let share := fun n => left * (d.fld F.PWR_DIE_SCALE n - Tbl.getD d.clk.dieShare n 0) / 8
  -- Floors that R37 has raised to F16 run there in any case.
  let must := d.floored
  let fl := min left (must.length * cost 1)
  -- P1 to P4.
  let ports := ((List.range 128).filter d.wantsPower).length
  let r := grantOut (left - fl) (share 0 - fl) [(2, ports * cost 2, false), (3, d.colDemand 3, true), (4, d.colDemand 4, true),
    (5, d.colDemand 5, true), (6, bursts false * cost 6, true), (8, e.dispatches, true)]
  -- P5.
  let want := d.wantRaise.filter fun h => !must.contains h
  let n := if cost 1 = 0 then want.length else min want.length (min r.2.1 r.2.2 / cost 1)
  let up := want.take n
  let run := (List.range 64).filter fun h => 2 ≤ d.fld F.PWR_HR_STATE h
  -- Admissions that the tick before left over come first; those in `late` are left over (R30).
  let d := (((old.map (·.1)).filter fun h => decide (h < 64)) ++ (must ++ up).filter fun h => !late.contains h).foldl Dev.raiseHr d
  let drop := run.filter fun h => !must.contains h && !up.contains h
  let given : Tbl (Nat × Nat) := r.1.foldl (fun t x => Tbl.set t x.1 (x.2.2, x.2.1))
    [(0, (f12, f12)), (1, (fl + n * cost 1, (must.length + want.length) * cost 1))]
  let given := Tbl.modify given 6 (0, 0) fun g => (g.1 + hbm0, g.2 + hbm0)
  let disp := ((r.1.find? fun x => x.1 == 8).map (·.2.2)).getD 0
  let core := share 0 - fl - n * cost 1
  let caps : Tbl Nat := (0, core) :: (List.range 10).map fun k => (k + 1, share (k + 1))
  let hrCaps : Tbl Nat := ((List.range 64).filter fun h => d.fld F.PWR_HR_CONV h != 0).map fun h =>
    (h, disp * (8 - d.fld F.PWR_HR_CONV h) / 8)
  let grants : Tbl Nat := r.1.map fun x =>
    (x.1, (if late.contains (64 + x.1) then 0 else x.2.2) + Tbl.getD old (64 + x.1) 0)
  let left' : Tbl Nat := ((must ++ up).filter late.contains).foldl (fun t h => Tbl.set t h 0)
    ((r.1.filter fun x => late.contains (64 + x.1)).foldl (fun t x => Tbl.set t (64 + x.1) x.2.2) [])
  let d := { d with clk := { d.clk with late := { d.clk.late with grants := left' } } }
  { d with pwr := { d.pwr with
      grant := grants, spare := hbm0 + (r.2.1 - n * cost 1), cap := caps,
      hrCap := hrCaps, charged := f12 + fl + n * cost 1, lower := drop, given := given, avail := avail, p0 := f12 } }

/-- BASE of the tick that begins (R416): the measured energy of the tick that ended, less the units charged for admitted work
in it, and never below 0. -/
def Dev.base (d : Dev) (e : EdgeIn) : Nat := e.energy - d.pwr.charged

/-- The step that a restart shows (Table 16-3). Step 3 without a valid coppice point ends in F4. -/
def Dev.showStep (d : Dev) (st : Fin 6) : Dev :=
  if d.fld F.GLB_CC_STATUS_STATE 0 ≠ 0 ∧ d.fld F.GLB_CC_STATUS_STEP 0 ≤ st.val ∧ !d.f4 then
    if 3 < st.val ∧ d.cc.latest = none then (d.setFld F.GLB_CC_STATUS_STEP 0 3).enterF4 3 0x0003
    else d.setFld F.GLB_CC_STATUS_STEP 0 st.val
  else d

/-- Unit 5 of Table 01-3, with the regions. -/
def Dev.powerEdge (d : Dev) (base : Nat) (e : EdgeIn) : Dev :=
  let d := d.engEdge.showGrants.lowerEdge
  let d := (d.supplyEdge e.volts).heatEdge e.hrTemp e.dieTemp
  let d := ((d.scaleDies e.dieTemp).parkEdge).topiary base e
  d.makeRoom.arbiter

/-- Everything that happens at a tick boundary. DEDUCED, unsafe (assumption 23). -/
def Dev.edge (d : Dev) (e : EdgeIn) : Dev :=
  let base := d.base e
  let d := d.nextTick.enterRoot.align
  let d := d.applyDue
  let d := (((d.samplePresence e.modLow).sampleFom e.fom).tuneEdge).samplePrbs e.prbs
  let d := ((d.fabricEdge e).raiseRates (lateItems e 7)).colEdge
  (d.powerEdge base e).showStep e.ccStep

/-- TICK_EDGE: a tick boundary. -/
def execTickEdge (e : EdgeIn) (s : State) : Host.Outcome State Fault Refusal :=
  s.run fun d => if d.inReset then d else d.edge e

/-- Whether unit `u` has tick work left over: what the last edge left, or, for unit 6, a snapshot that is being written. Units 1, 8
and 9 have edge actions only. -/
def Dev.leftOver (d : Dev) (u : Nat) : Bool :=
  let l := d.clk.late
  match u with
  | 0 => l.digest.isSome
  | 2 => !l.refill.isEmpty
  | 3 => !l.samples.isEmpty
  | 4 => !l.audit.isEmpty
  | 5 => !l.grants.isEmpty
  | 6 => d.pmc.cur.isSome
  | 7 => !l.rates.isEmpty
  | _ => false

/-- TICK_WORK_OVERRUN: the tick ends with work of a unit deferred, which the next edge completes before that tick's own work; it is
counted once for a tick (R30). At the boundary the device sends its most recent complete digest (R31). -/
def execTickWorkOverrun (u : Fin 10) (s : State) : Host.Outcome State Fault Refusal :=
  s.run fun d =>
    let u := u.val
    if d.inReset ∨ d.clk.deferred.contains u ∨ d.leftOver u = false then d
    else
      let d := { d with clk := { d.clk with deferred := u :: d.clk.deferred } }
      ((d.bump F.TCK_OVR_CNT_COUNT u 1).setFld F.TCK_STATUS_OVERRUN 0 1).raise 0x1301 [u]

end Sys2Proof.Machine
end

