-- ==== Sys2Proof/Machine/Dispatch.lean ====
section
/-!
DEFINITION. One arm for each command of the table: a direct call of its meaning.
-/

namespace Sys2Proof.Machine

def exec (i : Instr) (s : State) : Host.Outcome State Fault Refusal :=
  match i with
  | .tickEdge e => Sys2Proof.Machine.execTickEdge e s
  | .tickWorkOverrun u => Sys2Proof.Machine.execTickWorkOverrun u s
  | .regionFloorRelease h => Sys2Proof.Machine.execRegionFloorRelease h s
  | .fwdClockDetected p tick => Sys2Proof.Machine.execFwdClockDetected p tick s
  | .tckParentWrite src v => Sys2Proof.Machine.execTckParentWrite src v s
  | .plannedSwitchover => Sys2Proof.Machine.execPlannedSwitchover s
  | .tckParentLoss refused => Sys2Proof.Machine.execTckParentLoss refused s
  | .tckSwitchover p => Sys2Proof.Machine.execTckSwitchover p s
  | .tckHoldoverExpired subtree => Sys2Proof.Machine.execTckHoldoverExpired subtree s
  | .refSteerComplete => Sys2Proof.Machine.execRefSteerComplete s
  | .islandResteer p => Sys2Proof.Machine.execIslandResteer p s
  | .pathDelayMeasure p delay => Sys2Proof.Machine.execPathDelayMeasure p delay s
  | .tckHoldWrite src v late => Sys2Proof.Machine.execTckHoldWrite src v late s
  | .tckHoldTimeout src => Sys2Proof.Machine.execTckHoldTimeout src s
  | .moduleRemoved p => Sys2Proof.Machine.execModuleRemoved p s
  | .moduleInserted p => Sys2Proof.Machine.execModuleInserted p s
  | .moduleReady p => Sys2Proof.Machine.execModuleReady p s
  | .moduleTimeout p => Sys2Proof.Machine.execModuleTimeout p s
  | .lanePowerAdmitted p => Sys2Proof.Machine.execLanePowerAdmitted p s
  | .stage1ReadStart p => Sys2Proof.Machine.execStage1ReadStart p s
  | .moduleIdentityRead p id => Sys2Proof.Machine.execModuleIdentityRead p id s
  | .bringupStageTimeout p => Sys2Proof.Machine.execBringupStageTimeout p s
  | .clockLaneLock p ppb => Sys2Proof.Machine.execClockLaneLock p ppb s
  | .phaseLock p lanes => Sys2Proof.Machine.execPhaseLock p lanes s
  | .polarityDetect p means => Sys2Proof.Machine.execPolarityDetect p means s
  | .laneOrderDetect p order => Sys2Proof.Machine.execLaneOrderDetect p order s
  | .blockLockDeskew p lock skew => Sys2Proof.Machine.execBlockLockDeskew p lock skew s
  | .presetNegotiation p errors => Sys2Proof.Machine.execPresetNegotiation p errors s
  | .linkFrameLock p delay => Sys2Proof.Machine.execLinkFrameLock p delay s
  | .backchannelWord p w => Sys2Proof.Machine.execBackchannelWord p w s
  | .trainingControlBlock p w => Sys2Proof.Machine.execTrainingControlBlock p w s
  | .adaptationStep p l tap up => Sys2Proof.Machine.execAdaptationStep p l tap up s
  | .phyFomLow p l => Sys2Proof.Machine.execPhyFomLow p l s
  | .testStage2Measure p ppb => Sys2Proof.Machine.execTestStage2Measure p ppb s
  | .autoRestart p => Sys2Proof.Machine.execAutoRestart p s
  | .dataLaneFailed p x => Sys2Proof.Machine.execDataLaneFailed p x s
  | .clockLaneLost p => Sys2Proof.Machine.execClockLaneLost p s
  | .allBlockLockLost p => Sys2Proof.Machine.execAllBlockLockLost p s
  | .quicksetFail p => Sys2Proof.Machine.execQuicksetFail p s
  | .phyEnable src p => Sys2Proof.Machine.execPhyEnable src p s
  | .phyDisable src p => Sys2Proof.Machine.execPhyDisable src p s
  | .phyRetrain src p => Sys2Proof.Machine.execPhyRetrain src p s
  | .phyQuickset src p => Sys2Proof.Machine.execPhyQuickset src p s
  | .phyForget src p => Sys2Proof.Machine.execPhyForget src p s
  | .linkFrameSend p edge => Sys2Proof.Machine.execLinkFrameSend p edge s
  | .linkFrameReceived p lanes cyc frac => Sys2Proof.Machine.execLinkFrameReceived p lanes cyc frac s
  | .replayTimeout p ns => Sys2Proof.Machine.execReplayTimeout p ns s
  | .spillFetchDone p ok => Sys2Proof.Machine.execSpillFetchDone p ok s
  | .initFrameReceived p lanes cyc frac => Sys2Proof.Machine.execInitFrameReceived p lanes cyc frac s
  | .auditWindowEnd p => Sys2Proof.Machine.execAuditWindowEnd p s
  | .lnkFlush src p => Sys2Proof.Machine.execLnkFlush src p s
  | .packetHeaderAccept p => Sys2Proof.Machine.execPacketHeaderAccept p s
  | .packetAccepted p cyc => Sys2Proof.Machine.execPacketAccepted p cyc s
  | .internalPacketInject q cyc => Sys2Proof.Machine.execInternalPacketInject q cyc s
  | .cellTimeMatch cyc => Sys2Proof.Machine.execCellTimeMatch cyc s
  | .schObsClear src late => Sys2Proof.Machine.execSchObsClear src late s
  | .rtePortIn p => Sys2Proof.Machine.execRtePortIn p s
  | .digestReceived p => Sys2Proof.Machine.execDigestReceived p s
  | .rteTblCommit src version => Sys2Proof.Machine.execRteTblCommit src version s
  | .rteTblAbort src => Sys2Proof.Machine.execRteTblAbort src s
  | .rteTblSwap => Sys2Proof.Machine.execRteTblSwap s
  | .stagedBankCopyDone => Sys2Proof.Machine.execStagedBankCopyDone s
  | .managerMessage q => Sys2Proof.Machine.execManagerMessage q s
  | .heartbeatSend devs => Sys2Proof.Machine.execHeartbeatSend devs s
  | .rteTakeover => Sys2Proof.Machine.execRteTakeover s
  | .routed m => Sys2Proof.Machine.execRouted m s
  | .openReq q => Sys2Proof.Machine.execOpenReq q s
  | .openAck q => Sys2Proof.Machine.execOpenAck q s
  | .openNak q => Sys2Proof.Machine.execOpenNak q s
  | .openResend n => Sys2Proof.Machine.execOpenResend n s
  | .closeReq q => Sys2Proof.Machine.execCloseReq q s
  | .closeAck q => Sys2Proof.Machine.execCloseAck q s
  | .closeResend n => Sys2Proof.Machine.execCloseResend n s
  | .sctDataReceived q feed => Sys2Proof.Machine.execSctDataReceived q feed s
  | .ackDelayExpired n ns => Sys2Proof.Machine.execAckDelayExpired n ns s
  | .getReadDone n psn data res => Sys2Proof.Machine.execGetReadDone n psn data res s
  | .sctAckReceived q => Sys2Proof.Machine.execSctAckReceived q s
  | .responseReceived q => Sys2Proof.Machine.execResponseReceived q s
  | .rtoExpired n cyc => Sys2Proof.Machine.execRtoExpired n cyc s
  | .receiverBusy q => Sys2Proof.Machine.execReceiverBusy q s
  | .busyBackoffEnd n => Sys2Proof.Machine.execBusyBackoffEnd n s
  | .linkNoticeReceived q => Sys2Proof.Machine.execLinkNoticeReceived q s
  | .noticeResend n => Sys2Proof.Machine.execNoticeResend n s
  | .sctPacketSend n cyc => Sys2Proof.Machine.execSctPacketSend n cyc s
  | .contextFetchDone n bytes res feed => Sys2Proof.Machine.execContextFetchDone n bytes res feed s
  | .evictCommitReported n => Sys2Proof.Machine.execEvictCommitReported n s
  | .xltProtExpired n psn => Sys2Proof.Machine.execXltProtExpired n psn s
  | .doorbell q => Sys2Proof.Machine.execDoorbell q s
  | .ringFetchDone q data res => Sys2Proof.Machine.execRingFetchDone q data res s
  | .entryStart q => Sys2Proof.Machine.execEntryStart q s
  | .eqCoalDelay q ns => Sys2Proof.Machine.execEqCoalDelay q ns s
  | .eqConsumed q v => Sys2Proof.Machine.execEqConsumed q v s
  | .eqClearOvf q v => Sys2Proof.Machine.execEqClearOvf q v s
  | .eqArm q v => Sys2Proof.Machine.execEqArm q v s
  | .wqEnable src v => Sys2Proof.Machine.execWqEnable src v s
  | .wqReset src v => Sys2Proof.Machine.execWqReset src v s
  | .wqDisable src v => Sys2Proof.Machine.execWqDisable src v s
  | .busMasterDisable f => Sys2Proof.Machine.execBusMasterDisable f s
  | .busMasterEnable f => Sys2Proof.Machine.execBusMasterEnable f s
  | .xltRgnStage src v late => Sys2Proof.Machine.execXltRgnStage src v late s
  | .xltRgnLoad src v => Sys2Proof.Machine.execXltRgnLoad src v s
  | .mteArrival m => Sys2Proof.Machine.execMteArrival m s
  | .mtePosting m => Sys2Proof.Machine.execMtePosting m s
  | .mteSpillReadDone m ok => Sys2Proof.Machine.execMteSpillReadDone m ok s
  | .fin => Sys2Proof.Machine.execFin s
  | .cancel => Sys2Proof.Machine.execCancel s
  | .mteCtxEnable src m => Sys2Proof.Machine.execMteCtxEnable src m s
  | .mteCtxDisable src m => Sys2Proof.Machine.execMteCtxDisable src m s
  | .colUp u => Sys2Proof.Machine.execColUp u s
  | .colDown u => Sys2Proof.Machine.execColDown u s
  | .windowMsg => Sys2Proof.Machine.execWindowMsg s
  | .failMsg => Sys2Proof.Machine.execFailMsg s
  | .colStep u => Sys2Proof.Machine.execColStep u s
  | .colWatchdog g => Sys2Proof.Machine.execColWatchdog g s
  | .colGrpForm src v => Sys2Proof.Machine.execColGrpForm src v s
  | .colGrpDissolve src v => Sys2Proof.Machine.execColGrpDissolve src v s
  | .walkReadDone k e res => Sys2Proof.Machine.execWalkReadDone k e res s
  | .xltInvIssue src v => Sys2Proof.Machine.execXltInvIssue src v s
  | .invTokenDone k => Sys2Proof.Machine.execInvTokenDone k s
  | .lockWalk src v => Sys2Proof.Machine.execLockWalk src v s
  | .lockLoad src v => Sys2Proof.Machine.execLockLoad src v s
  | .unlock src v => Sys2Proof.Machine.execUnlock src v s
  | .xltCtxDisable src v => Sys2Proof.Machine.execXltCtxDisable src v s
  | .xltHrMode src h v => Sys2Proof.Machine.execXltHrMode src h v s
  | .memRd h off tag => Sys2Proof.Machine.execMemRd h off tag s
  | .memWr h off tag data poison => Sys2Proof.Machine.execMemWr h off tag data poison s
  | .memWrPtl h off tag data mask poison => Sys2Proof.Machine.execMemWrPtl h off tag data mask poison s
  | .memSpecRd h off => Sys2Proof.Machine.execMemSpecRd h off s
  | .memInv h off tag => Sys2Proof.Machine.execMemInv h off tag s
  | .mbrDeadline h tag => Sys2Proof.Machine.execMbrDeadline h tag s
  | .mbrRepath n => Sys2Proof.Machine.execMbrRepath n s
  | .hierarchyUp h => Sys2Proof.Machine.execHierarchyUp h s
  | .hierarchyReset h => Sys2Proof.Machine.execHierarchyReset h s
  | .configRequest f w => Sys2Proof.Machine.execConfigRequest f w s
  | .p2pRequest h v to_ write => Sys2Proof.Machine.execP2pRequest h v to_ write s
  | .unsupportedRequest f write => Sys2Proof.Machine.execUnsupportedRequest f write s
  | .completionTimeout f tag r => Sys2Proof.Machine.execCompletionTimeout f tag r s
  | .lateCompletion h tag => Sys2Proof.Machine.execLateCompletion h tag s
  | .tagQuarantineEnd h tag => Sys2Proof.Machine.execTagQuarantineEnd h tag s
  | .functionLevelReset f => Sys2Proof.Machine.execFunctionLevelReset f s
  | .tunnelTlpSend t area tlp => Sys2Proof.Machine.execTunnelTlpSend t area tlp s
  | .tunnelRecord t => Sys2Proof.Machine.execTunnelRecord t s
  | .tunnelReport t area => Sys2Proof.Machine.execTunnelReport t area s
  | .secondaryBusReset h v disable => Sys2Proof.Machine.execSecondaryBusReset h v disable s
  | .hswDpc p => Sys2Proof.Machine.execHswDpc p s
  | .dpcStatusClear p => Sys2Proof.Machine.execDpcStatusClear p s
  | .hswLink n l => Sys2Proof.Machine.execHswLink n l s
  | .dispatchStart h cls => Sys2Proof.Machine.execDispatchStart h cls s
  | .dispatchEnd e x => Sys2Proof.Machine.execDispatchEnd e x s
  | .dispatchWatchdog e => Sys2Proof.Machine.execDispatchWatchdog e s
  | .engFault e cause => Sys2Proof.Machine.execEngFault e cause s
  | .engineResetDone e => Sys2Proof.Machine.execEngineResetDone e s
  | .handlerTimer k => Sys2Proof.Machine.execHandlerTimer k s
  | .rampDone h => Sys2Proof.Machine.execRampDone h s
  | .hedgerowWake h => Sys2Proof.Machine.execHedgerowWake h s
  | .forcePark src h => Sys2Proof.Machine.execForcePark src h s
  | .mbxDoorbell ch v => Sys2Proof.Machine.execMbxDoorbell ch v s
  | .mbxConsume ch v => Sys2Proof.Machine.execMbxConsume ch v s
  | .commandFinish ch => Sys2Proof.Machine.execCommandFinish ch s
  | .mbxBulkOwn src page v => Sys2Proof.Machine.execMbxBulkOwn src page v s
  | .bmcMessage eid m => Sys2Proof.Machine.execBmcMessage eid m s
  | .spdmRequest req => Sys2Proof.Machine.execSpdmRequest req s
  | .peerReq m => Sys2Proof.Machine.execPeerReq m s
  | .peerResult q => Sys2Proof.Machine.execPeerResult q s
  | .peerReqResend k => Sys2Proof.Machine.execPeerReqResend k s
  | .describe ch => Sys2Proof.Machine.execDescribe ch s
  | .fwStage ch img => Sys2Proof.Machine.execFwStage ch img s
  | .fwActivate ch => Sys2Proof.Machine.execFwActivate ch s
  | .regRead ch => Sys2Proof.Machine.execRegRead ch s
  | .regWrite ch late => Sys2Proof.Machine.execRegWrite ch late s
  | .powerLimit ch => Sys2Proof.Machine.execPowerLimit ch s
  | .powerQuery ch => Sys2Proof.Machine.execPowerQuery ch s
  | .resAssign ch => Sys2Proof.Machine.execResAssign ch s
  | .resRelease ch => Sys2Proof.Machine.execResRelease ch s
  | .portSet ch => Sys2Proof.Machine.execPortSet ch s
  | .portQuery ch => Sys2Proof.Machine.execPortQuery ch s
  | .portFlush ch => Sys2Proof.Machine.execPortFlush ch s
  | .rteLoad ch => Sys2Proof.Machine.execRteLoad ch s
  | .rteCommit ch => Sys2Proof.Machine.execRteCommit ch s
  | .rteAbort ch => Sys2Proof.Machine.execRteAbort ch s
  | .connOpen ch => Sys2Proof.Machine.execConnOpen ch s
  | .connClose ch => Sys2Proof.Machine.execConnClose ch s
  | .connReset ch => Sys2Proof.Machine.execConnReset ch s
  | .connQuery ch => Sys2Proof.Machine.execConnQuery ch s
  | .connListen ch => Sys2Proof.Machine.execConnListen ch s
  | .connUnlisten ch => Sys2Proof.Machine.execConnUnlisten ch s
  | .windowBind ch => Sys2Proof.Machine.execWindowBind ch s
  | .windowUnbind ch => Sys2Proof.Machine.execWindowUnbind ch s
  | .colForm ch => Sys2Proof.Machine.execColForm ch s
  | .colDissolve ch => Sys2Proof.Machine.execColDissolve ch s
  | .lockOp ch => Sys2Proof.Machine.execLockOp ch s
  | .lockQuery ch => Sys2Proof.Machine.execLockQuery ch s
  | .bridgeWindow ch => Sys2Proof.Machine.execBridgeWindow ch s
  | .poolExport ch entry ctx => Sys2Proof.Machine.execPoolExport ch entry ctx s
  | .poolUnexport ch step => Sys2Proof.Machine.execPoolUnexport ch step s
  | .poolClaimExpander ch x => Sys2Proof.Machine.execPoolClaimExpander ch x s
  | .poolPathSet ch => Sys2Proof.Machine.execPoolPathSet ch s
  | .poolDirSet ch => Sys2Proof.Machine.execPoolDirSet ch s
  | .poolExtentClear ch => Sys2Proof.Machine.execPoolExtentClear ch s
  | .hswAssignPort ch fns => Sys2Proof.Machine.execHswAssignPort ch fns s
  | .hswAssignVf ch pf => Sys2Proof.Machine.execHswAssignVf ch pf s
  | .hswAssignLd ch mld => Sys2Proof.Machine.execHswAssignLd ch mld s
  | .hswRelease ch => Sys2Proof.Machine.execHswRelease ch s
  | .hswVfPool ch enabled => Sys2Proof.Machine.execHswVfPool ch enabled s
  | .hswP2pSet ch => Sys2Proof.Machine.execHswP2pSet ch s
  | .hswTunnelOpen ch => Sys2Proof.Machine.execHswTunnelOpen ch s
  | .hswTunnelClose ch => Sys2Proof.Machine.execHswTunnelClose ch s
  | .engPkgLoad ch pkg => Sys2Proof.Machine.execEngPkgLoad ch pkg s
  | .engPkgEnable ch x => Sys2Proof.Machine.execEngPkgEnable ch x s
  | .engPkgDisable ch => Sys2Proof.Machine.execEngPkgDisable ch s
  | .secSvnCommit ch => Sys2Proof.Machine.execSecSvnCommit ch s
  | .secKeyProgram ch signed => Sys2Proof.Machine.execSecKeyProgram ch signed s
  | .secDebugUnlock ch valid => Sys2Proof.Machine.execSecDebugUnlock ch valid s
  | .acquire src l prio => Sys2Proof.Machine.execAcquire src l prio s
  | .release src l => Sys2Proof.Machine.execRelease src l s
  | .forceRelease src l target => Sys2Proof.Machine.execForceRelease src l target s
  | .clearPoison src l => Sys2Proof.Machine.execClearPoison src l s
  | .glbF4 cause => Sys2Proof.Machine.execGlbF4 cause s
  | .railFault x => Sys2Proof.Machine.execRailFault x s
  | .thermalTrip temp => Sys2Proof.Machine.execThermalTrip temp s
  | .glbFaultInjectFatal src => Sys2Proof.Machine.execGlbFaultInjectFatal src s
  | .glbFaultInjectRestart src => Sys2Proof.Machine.execGlbFaultInjectRestart src s
  | .coppicePoint => Sys2Proof.Machine.execCoppicePoint s
  | .coppicePointDone => Sys2Proof.Machine.execCoppicePointDone s
  | .glbCcRestart => Sys2Proof.Machine.execGlbCcRestart s
  | .fwWatchdogExpired => Sys2Proof.Machine.execFwWatchdogExpired s
  | .glbCcReady => Sys2Proof.Machine.execGlbCcReady s
  | .glbFwFallback => Sys2Proof.Machine.execGlbFwFallback s
  | .snapshotDue => Sys2Proof.Machine.execSnapshotDue s
  | .pmcNow src late => Sys2Proof.Machine.execPmcNow src late s
  | .snapshotWriteDone res => Sys2Proof.Machine.execSnapshotWriteDone res s
  | .evrFreeze src on => Sys2Proof.Machine.execEvrFreeze src on s
  | .evrFreezeTimeout => Sys2Proof.Machine.execEvrFreezeTimeout s
  | .clearPerm src => Sys2Proof.Machine.execClearPerm src s
  | .clearCirc src => Sys2Proof.Machine.execClearCirc src s
  | .coldReset role boot => Sys2Proof.Machine.execColdReset role boot s
  | .warmReset => Sys2Proof.Machine.execWarmReset s
  | .warmResetRelease => Sys2Proof.Machine.execWarmResetRelease s
  | .powerDown held => Sys2Proof.Machine.execPowerDown held s
  | .bootImageLoaded x => Sys2Proof.Machine.execBootImageLoaded x s
  | .hbmTrainingDone x => Sys2Proof.Machine.execHbmTrainingDone x s
  | .secRecovery img => Sys2Proof.Machine.execSecRecovery img s
  | .nvsWrite src n v => Sys2Proof.Machine.execNvsWrite src n v s
  | .nvsProgramDone => Sys2Proof.Machine.execNvsProgramDone s
  | .shadowLoRead src off => Sys2Proof.Machine.execShadowLoRead src off s
  | .readClear src off size => Sys2Proof.Machine.execReadClear src off size s
  | .registerWrite src tgt late => Sys2Proof.Machine.execRegisterWrite src tgt late s
  | .quicksetStepComplete p res => Sys2Proof.Machine.execQuicksetStepComplete p res s
  | .sourceDataReadDone x data res => Sys2Proof.Machine.execSourceDataReadDone x data res s
  | .extentDirectoryReadDone x ok => Sys2Proof.Machine.execExtentDirectoryReadDone x ok s

end Sys2Proof.Machine
end

