-- ==== Sys2Proof/Safety.lean ====
section
/-!
DEFINITION. The words that statements about the block are written in: what a command gives, what stays as it was, and the
invariant of the model.
-/

namespace Sys2Proof.Machine

/-- No store is under way: so it is between commands. -/
abbrev Dev.Rested (d : Dev) : Prop := d.wr = [] ∧ d.wipe = false

/-- The invariant of the model: memory in its canonical form, and no store under way. -/
def Inv (s : State) : Prop := Memory.wf s.dev.mem = true ∧ s.dev.Rested

/-! Situations that commands meet. -/

/-- The packet at the front of the staging of internal port `q` is `x`, and all its cells have crossed. -/
abbrev Dev.Front (d : Dev) (q : Fin 32) (x : StPkt) : Prop :=
  d.halted = false ∧ (Tbl.getD d.swc.stage (128 + q.val) []).head? = some x ∧ x.q.pkt.cells ≤ x.arrived

/-- A PUT, of no engine service and no tunnel, that the connection it names expects next and may take (Table 06-7). -/
abbrev Dev.Takes (d : Dev) (x : StPkt) : Prop :=
  let p := x.q.pkt
  let c := d.conn p.conn
  d.usable p.conn = true ∧ d.isResident p.conn = true ∧ p.e2e = p.e2eOf ∧ c.ready = true ∧ p.src = c.peerEp ∧
    sctInc p = c.inc ∧ p.psn = c.epsn ∧ c.rcvMap = 0#256 ∧ p.poison = false ∧ sctOp p = 1 ∧ d.tunOf p.conn = none ∧
    d.pkgOf c.localEp = none

/-- Leaf `e`, the only entry cached, gives the whole range of `len` bytes from `va` of context `c` the addresses from `a` of
hierarchy `h`, with the rights `need`. -/
abbrev Dev.Leaf (d : Dev) (e : XEnt) (c va h a len need : Nat) : Prop :=
  d.xctxState c = 1 ∧ va < 2 ^ (12 + 9 * d.xctxLevels c) ∧ d.xlt.cache = [e] ∧ e.isLeaf = true ∧ e.covers c va = true ∧
    entRights e.ent &&& need = need ∧ entTgt e.ent = 0 ∧ h = d.fld F.XLT_CTX_CFG_HIER c ∧
    a = entAddr e.ent + va % 2 ^ spanBits e.level ∧ va % 2 ^ spanBits e.level + len ≤ 2 ^ spanBits e.level ∧
    d.heldHier h = false

/-- The bridge of hierarchy `h` holds no request, and offset `off` lies in its window, in line `va`; leaf `e` of its context
`c`, the only entry cached, gives the line the pool address `pool`, with the rights `need`; and the directory covers that
address. -/
abbrev Dev.PoolHit (d : Dev) (h : Hier) (c : Nat) (off : BitVec 52) (va pool : Nat) (e : XEnt) (need : Nat) : Prop :=
  d.mbr.reqs = [] ∧ d.mbr.past = [] ∧ va = off.toNat / 64 * 64 ∧ va < Tbl.getD d.mbr.shown h.val 0 * 2 ^ 30 ∧
    c = d.fld F.MBR_HIER_CTX_XCTX h.val ∧ d.xctxState c = 1 ∧ va < 2 ^ (12 + 9 * d.xctxLevels c) ∧ d.xlt.cache = [e] ∧
    e.isLeaf = true ∧ e.covers c va = true ∧ entRights e.ent &&& need = need ∧ entTgt e.ent = 3 ∧
    pool = entAddr e.ent + va % 2 ^ spanBits e.level ∧ pool / 2 ^ 30 < d.dirSize

/-- No function waits for a LOCK_WALK: of those that may lock, the management functions, debug and firmware, none shows RESULT 1. -/
abbrev Dev.NoLockWalk (d : Dev) : Prop :=
  ∀ fn ∈ (List.range 24).map (4096 + ·) ++ (List.range 16).map (4176 + ·) ++ [4224], d.fld F.XLT_LOCK_CTRL_RESULT fn ≠ 1

/-- Channel `ch` holds a request of opcode `opc` that firmware may serve at one of the levels named. -/
abbrev Dev.Asks (d : Dev) (ch : Chan) (opc : Nat) (levels : List Nat) : Prop :=
  d.ccRuns = true ∧ d.mbxState ch.val = 1 ∧ d.arg ch.val 0 = opc ∧ d.chLevel ch.val ∈ levels

/-- The request was answered at once: acknowledgement and result carry `rc`, and the result its words (R430). -/
abbrev Dev.Answered (d : Dev) (ch : Chan) (rc : Nat) (ws : List Word) : Prop :=
  d.mbxState ch.val = 3 ∧ d.fld F.MBX_RESULT_RC ch.val = rc ∧ d.fld F.MBX_ACK_RC ch.val = rc ∧
    ∀ i ∈ List.range 16, d.rd .MBX_B (16 * ch.val + i) = ws.getD i 0#32

/-- The request was accepted and runs (R430). -/
abbrev Dev.Started (d : Dev) (ch : Chan) : Prop := d.mbxState ch.val = 2 ∧ d.fld F.MBX_ACK_RC ch.val = 1

/-- The request was accepted, and its command has ended with `rc` and words that COMMAND_FINISH writes (R429). -/
abbrev Dev.Ending (d : Dev) (ch : Chan) (rc : Nat) (ws : List Word) : Prop :=
  d.Started ch ∧ Tbl.get d.mbx.outcome ch.val = some (rc, ws)

/-- The registers of a mailbox channel that an answer writes. -/
abbrev mailRegs : List Reg := [.MBX_ACK, .MBX_RESULT, .MBX_B]

/-- An answer was given and nothing else changed: registers, the outcome kept for the channel, the journal, and what carries the
answer to a peer or the BMC. -/
abbrev Dev.ReplyOnly (d t : Dev) : Prop :=
  t = { d with regs := t.regs, mbx := { d.mbx with outcome := t.mbx.outcome }, cc := { d.cc with journal := t.cc.journal },
               inj := t.inj, link := t.link, out := t.out }

/-- The device with the words of a COL_FORM on channel `ch` in the registers of group `g`: A2 to A7, and the root endpoint and
operation number of A8 (Table 15-7). -/
def Dev.withForm (d : Dev) (ch g : Nat) : Dev :=
  let put := fun (d : Dev) (r : Reg) (i n : Nat) => d.setReg r i (Reg.merge r (d.rd r i) (Sys2Proof.Machine.word (d.arg ch n)) (~~~0#32))
  let x := put (put d .COL_GRP_CFG g 2) .COL_GRP_MEMBERS g 3
  let x := (List.range 4).foldl (fun (x : Dev) i => put x .COL_GRP_CHILD (4 * g + i) (4 + i)) x
  (x.setFld F.COL_GRP_CTRL_ROOT_EP g (d.argBits ch 8 16 5)).setFld F.COL_GRP_CTRL_OPSEQ g (d.argBits ch 8 0 16)

/-- Offset `off` is that of a register, and of no counter, record word, table word or lock. -/
abbrev RegOff (off : Nat) : Prop :=
  counterAt off = none ∧ (off < 0x110000 ∨ 0x120000 ≤ off) ∧ (off < 0x400000 ∨ 0x404000 ≤ off) ∧ (off < 0x680000 ∨ 0x690000 ≤ off) ∧
    (off < 0xB00000 ∨ inTables (off - 0xB00000) = false)

/-! What stays. -/

/-- Registers that recording an event leaves alone: all but those of the event recorder, those with read-to-clear bits, which a
profile may read (R475), and `NVS_STATUS`, which tells of a record slot that is worn (R504). -/
def Reg.quiet (r : Reg) : Bool :=
  (match r with
    | .EVR_CTRL | .EVR_STATUS | .EVR_FROZEN_CNT | .EVR_RD_SEL | .EVR_RATE | .EVR_SUPP_CNT | .EVR_RD_DATA | .EVR_PROF_MATCH
    | .EVR_PROF_CFG | .EVR_PROF_REG | .NVS_STATUS => false
    | _ => true) && r.accMask [.rc] == 0#32

/-- `t` is `d` after events were recorded: the recorder's own state, the shadows and read-to-clear bits that its profiles read, WORN
of `NVS_STATUS`, and nothing else. -/
def Dev.Recorded (d t : Dev) : Prop :=
  t = { d with regs := t.regs, evr := t.evr, shadow := t.shadow, free := t.free } ∧
    (∀ r i, r.quiet = true → t.rd r i = d.rd r i) ∧
    (t.rd .NVS_STATUS 0 = d.rd .NVS_STATUS 0 ∨ t.rd .NVS_STATUS 0 = F.NVS_STATUS_WORN.put (d.rd .NVS_STATUS 0) 1)

/-- `t` is `d` but for registers, the recorder, shadows and free values; of the registers, only those of `rs` and those that
recording an event may change (`Reg.quiet`) may differ. -/
def Dev.OnlyRegs (rs : List Reg) (d t : Dev) : Prop :=
  t = { d with regs := t.regs, evr := t.evr, shadow := t.shadow, free := t.free } ∧
    ∀ r i, r.quiet = true → r ∉ rs → t.rd r i = d.rd r i

/-- Every register but those of `rs` and those that recording an event may change (`Reg.quiet`) reads as before. -/
def Dev.KeepsRegs (rs : List Reg) (d t : Dev) : Prop := ∀ r i, r.quiet = true → r ∉ rs → t.rd r i = d.rd r i

/-! Parts of the device that a command leaves as they were. -/

/-- The fabric side: lanes, links, switch core, routing, and packets waiting at internal ports. -/
abbrev Dev.FabricKept (d t : Dev) : Prop :=
  t.phy = d.phy ∧ t.link = d.link ∧ t.swc = d.swc ∧ t.rte = d.rte ∧ t.inj = d.inj

/-- Connections, queues, matching, collectives and the bridge. -/
abbrev Dev.WorkKept (d t : Dev) : Prop := t.trn = d.trn ∧ t.wq = d.wq ∧ t.mte = d.mte ∧ t.col = d.col ∧ t.mbr = d.mbr

/-- Translation and protection. -/
abbrev Dev.MapKept (d t : Dev) : Prop := t.xlt = d.xlt ∧ t.prot = d.prot

/-- The host switch, the engines and Topiary. -/
abbrev Dev.HostKept (d t : Dev) : Prop := t.hsw = d.hsw ∧ t.eng = d.eng ∧ t.pwr = d.pwr

/-- The control complex: mailboxes, locks, assignments, restarts, boot, the persistent store, snapshots and pins. -/
abbrev Dev.ControlKept (d t : Dev) : Prop :=
  t.mbx = d.mbx ∧ t.locks = d.locks ∧ t.own = d.own ∧ t.cc = d.cc ∧ t.sec = d.sec ∧ t.nvs = d.nvs ∧ t.pmc = d.pmc ∧
    t.pins = d.pins

end Sys2Proof.Machine
end

