-- ==== Sys2Proof/Certificates/Slice0/Obligations.lean ====
section
/-!
DEFINITION. What is claimed of the block: one proposition for each claim, in the words of `Sys2Proof/Safety.lean`. The clauses of a
claim are joined by ∧, one for each command and case; each ends in the next state that the command answers.
-/

open Sys2Proof Sys2Proof.Machine

/-- A step runs the command at the front. For every command and state, a step of the state with that command at the front of its
queue is the command's own effect on the state with the queue's rest; with an empty queue the block idles (assumption 1: the
model's choice). -/
def Obligations.StepRunsFront : Prop :=
  (∀ (c : Instr) (cs : List Instr) (s : State), step { s with pending := c :: cs } = exec c { s with pending := cs }) ∧
  (∀ s : State, s.pending = [] → step s = .next s)

/-- What reset leaves. After reset no command waits, memory lists nothing and is in its canonical form, no store is under way, no
fault has stopped the device, and boot is at step 2. The model's own choices in it: assumptions 3, 6, 8, 116. -/
def Obligations.ResetState : Prop :=
  State.reset.pending = [] ∧ State.reset.dev.mem = [] ∧ Inv State.reset ∧ State.reset.dev.halted = false ∧ State.reset.dev.sec.step = 2

/-- Every command answers a next state and leaves the queue and the part alone. Every command, in every state, answers a next state;
it changes neither the queue of waiting commands nor which part the device is (R2). The model's own choices in it: assumptions
2, 3, 4, 22. -/
def Obligations.EveryCommandCompletes : Prop :=
  ∀ (c : Instr) (s : State), ∃ t, exec c s = .next t ∧ t.pending = s.pending ∧ t.dev.part = s.dev.part

/-- Every step keeps the invariant. From every state whose memory is in canonical form, addresses rising strictly, and that has no
store under way, a step leads to such a state again: every store of a command has landed when the command ends, and a reset that
loses the device's own memory has taken it. The model's own choices in it: assumption 10. -/
def Obligations.StepsKeepMemoryCanonical : Prop :=
  ∀ s t : State, Inv s → step s = .next t → Inv t

/-- A tick edge advances the tick number by one and by the numbers that a slip skips. In every state outside reset, TICK_EDGE
answers a next state whose tick number is the old one plus 1 plus the numbers that R15 skips; the boundary count grows by one,
the skip is used up, and the previous tick number is kept (R13, R15). The model's own choices in it: assumptions 15, 23, 31, 32,
33, 34, 35, 36, 48, 115. It says of TICK_EDGE (tickEdge) that exec answers a next state, under conditions on the state and the
operands alone. -/
def Obligations.TickAdvances : Prop :=
  (∀ (s : State) (e : EdgeIn),
      s.dev.inReset = false →
      ∃ t, exec (.tickEdge e) s = .next { s with dev := t } ∧
        t.clk.tick = s.dev.clk.tick + 1 + BitVec.ofNat 64 s.dev.clk.skip ∧
        t.clk.edges = s.dev.clk.edges + 1 ∧
        t.clk.skip = 0 ∧
        t.clk.prev = s.dev.clk.tick)

/-- How the clock state machine takes a source: detection, switchover and the end of steering. FWD_CLOCK_DETECTED on an unlocked
device that is not the root loads the tick number, locks to the lowest-numbered live port as PARENT, sets FABRIC and counts one
more EPOCH (R14, R18); TCK_SWITCHOVER in HOLDOVER locks to the named port, as PARENT when it is the named parent and otherwise
as STANDBY; PLANNED_SWITCHOVER ends as PARENT on the planned port; REF_STEER_COMPLETE makes the device ROOT and leaves FABRIC
and EPOCH (R14, Table 01-2); ISLAND_RESTEER leaves ISLAND for the named port. No unit but the tick unit, the lanes of ports that
restart, and the recorder changes. The model's own choices in it: assumptions 24, 25, 26, 27, 138. It says of each of
FWD_CLOCK_DETECTED (fwdClockDetected), TCK_SWITCHOVER (tckSwitchover), PLANNED_SWITCHOVER (plannedSwitchover),
REF_STEER_COMPLETE (refSteerComplete) and ISLAND_RESTEER (islandResteer) that exec answers a next state, under conditions on the
state and the operands alone. -/
def Obligations.ClockSourceTaken : Prop :=
  (∀ (s : State) (p : Port) (n : Tick),
      s.dev.Rested →
      s.dev.inReset = false →
      (s.dev.inStage p.val 2 = true ∨ (s.dev.phyState p.val = 6 ∧ s.dev.phyStage p.val = 2)) →
      s.dev.clkState = 0 →
      s.dev.flag F.TCK_PARENT_ROOT 0 = false →
      ∃ t, exec (.fwdClockDetected p n) s = .next { s with dev := t } ∧
        t.clk.tick = n ∧
        t.clkState = 2 ∧
        t.flag F.TCK_STATUS_FABRIC 0 = true ∧
        t.fld F.TCK_STATUS_EPOCH 0 = (s.dev.fld F.TCK_STATUS_EPOCH 0 + 1) % 16 ∧
        p.val ∈ t.clk.live ∧
        t.clk.provisional = some (t.clk.live.foldl min p.val) ∧
        t.fld F.TCK_PARENT_ACTIVE 0 = (t.clk.live.foldl min p.val) % 256 ∧
        t = { s.dev with regs := t.regs, clk := t.clk } ∧
        s.dev.KeepsRegs [.TCK_STATUS, .TCK_PARENT] t) ∧
  (∀ (s : State) (p : Port),
      s.dev.Rested →
      s.dev.clkState = 4 →
      s.dev.namedSource = some p.val →
      ∃ t, exec (.tckSwitchover p) s = .next { s with dev := t } ∧
        (t.clkState = (if s.dev.parentPort = p.val then 2 else 3)) ∧
        t.fld F.TCK_PARENT_ACTIVE 0 = p.val ∧
        t.clk = s.dev.clk ∧
        s.dev.OnlyRegs [.TCK_STATUS, .TCK_PARENT] t) ∧
  (∀ (s : State) (p : Port),
      s.dev.Rested →
      s.dev.clk.planned = some p.val →
      s.dev.clockUsable p.val = true →
      s.dev.clkState ≠ 0 →
      s.dev.clkState ≠ 5 →
      ∃ t, exec .plannedSwitchover s = .next { s with dev := t } ∧
        t.clkState = 2 ∧
        t.fld F.TCK_PARENT_ACTIVE 0 = p.val ∧
        t.clk.planned = none ∧
        t = { s.dev with regs := t.regs, clk := { s.dev.clk with planned := none } } ∧
        s.dev.KeepsRegs [.TCK_STATUS, .TCK_PARENT] t) ∧
  (∀ (s : State),
      s.dev.Rested →
      s.dev.clkState = 6 →
      s.dev.clk.planned = none →
      ∃ t, exec .refSteerComplete s = .next { s with dev := t } ∧
        t.clkState = 1 ∧
        t.flag F.TCK_PARENT_ROOT 0 = true ∧
        t.fld F.TCK_PARENT_ACTIVE 0 = 0xFF ∧
        t.fld F.TCK_STATUS_FABRIC 0 = s.dev.fld F.TCK_STATUS_FABRIC 0 ∧
        t.fld F.TCK_STATUS_EPOCH 0 = s.dev.fld F.TCK_STATUS_EPOCH 0 ∧
        s.dev.OnlyRegs [.TCK_STATUS, .TCK_PARENT] t) ∧
  (∀ (s : State) (p : Port),
      s.dev.Rested →
      s.dev.clkState = 5 →
      s.dev.namedParent p.val = true →
      s.dev.phyState p.val = 4 →
      s.dev.clockUsable p.val = true →
      ∃ t, exec (.islandResteer p) s = .next { s with dev := t } ∧
        (t.clkState = (if s.dev.parentPort = p.val then 2 else 3)) ∧
        t.fld F.TCK_PARENT_ACTIVE 0 = p.val ∧
        t = { s.dev with regs := t.regs, phy := t.phy } ∧
        s.dev.KeepsRegs [.TCK_STATUS, .TCK_PARENT, .PHY_STATUS] t)

/-- Losing the clock source leads to HOLDOVER, and a holdover that expires to ISLAND. TCK_PARENT_LOSS of the active source enters
HOLDOVER, locked to no port, unless a reference may be steered to at once (REF_STEER); the holdover is timed from that boundary,
a planned switchover ends, and the loss is an F3 fault (R20, Table 01-2, R446); TCK_HOLDOVER_EXPIRED with neither named port
usable, no permission to steer and 78,125 ticks gone enters ISLAND (R21). The model's own choices in it: assumptions 24, 27, 28,
138, 139. It says of each of TCK_PARENT_LOSS (tckParentLoss) and TCK_HOLDOVER_EXPIRED (tckHoldoverExpired) that exec answers a
next state, under conditions on the state and the operands alone. -/
def Obligations.ClockSourceLost : Prop :=
  (∀ (s : State),
      s.dev.Rested →
      (s.dev.clkState = 2 ∨ s.dev.clkState = 3) →
      ∃ t, exec (.tckParentLoss false) s = .next { s with dev := t } ∧
        (t.clkState = 4 ∨ (t.clkState = 6 ∧ s.dev.flag F.TCK_PARENT_REF_OK 0 = true ∧ t.namedSource = none)) ∧
        t.fld F.TCK_PARENT_ACTIVE 0 = 0xFF ∧
        t.clk.holdoverAt = s.dev.clk.edges ∧
        s.dev.fld F.TCK_PARENT_ACTIVE 0 ∉ t.clk.live ∧
        t.clk.planned = none ∧
        t.flag F.GLB_FAULT_F3 0 = true ∧
        t = { s.dev with regs := t.regs, evr := t.evr, shadow := t.shadow, free := t.free, clk := t.clk } ∧
        s.dev.KeepsRegs [.TCK_STATUS, .TCK_PARENT, .GLB_FAULT, .GLB_FAULT_TICK_LO, .GLB_FAULT_TICK_HI] t) ∧
  (∀ (s : State) (sub : List Port),
      s.dev.clkState = 4 →
      s.dev.namedSource = none →
      s.dev.flag F.TCK_PARENT_REF_OK 0 = false →
      s.dev.clk.holdoverAt + 78125 ≤ s.dev.clk.edges →
      ∃ t, exec (.tckHoldoverExpired sub) s = .next { s with dev := t } ∧
        t.clkState = 5 ∧
        t.fld F.TCK_PARENT_ACTIVE 0 = 0xFF)

/-- What the hold, path-delay, floor-release, overrun and TCK_PARENT commands do. TCK_HOLD_WRITE by a physical function sets or
clears its HOLD, and a cleared hold leaves no write of that function held (R35); TCK_HOLD_TIMEOUT after 65,536 ticks clears the
hold, and no write of that function stays held; PATH_DELAY_MEASURE stores the measured delay of an ACTIVE port, and the round
trip that follows from it, and leaves the replay timeout as it was (R24, R87); REGION_FLOOR_RELEASE after 1,024 calm ticks takes
the raised floor away (R37); TICK_WORK_OVERRUN of a unit whose tick work was left over sets OVERRUN, counts it, notes the unit
and leaves the work to the next edge (R30). A TCK_PARENT write at L0 outside reset stores its fields whatever the clock state,
and a switchover that it begins goes to the named parent, whose clock is usable; below L0 nothing changes (R41). The model's own
choices in it: assumptions 12, 26, 29, 30, 32. It says of each of TCK_HOLD_WRITE (tckHoldWrite), TCK_HOLD_TIMEOUT
(tckHoldTimeout), PATH_DELAY_MEASURE (pathDelayMeasure), REGION_FLOOR_RELEASE (regionFloorRelease), TICK_WORK_OVERRUN
(tickWorkOverrun) and TCK_PARENT_WRITE (tckParentWrite) that exec answers a next state, under conditions on the state and the
operands alone. -/
def Obligations.TickHoldAndMeasures : Prop :=
  (∀ (s : State) (h : Fin 24) (v : Word) (late : Bool),
      s.dev.Rested →
      s.dev.inReset = false →
      s.dev.level (.pf h) ≤ 1 →
      ∃ t, exec (.tckHoldWrite (.pf h) v late) s = .next { s with dev := t } ∧
        t.flag F.TCK_HOLD_HOLD (4096 + h.val) = v.getLsbD 0 ∧
        (v.getLsbD 0 = false → s.dev.flag F.TCK_HOLD_HOLD (4096 + h.val) = true → ∀ x ∈ t.clk.staged, x.fn = 4096 + h.val → x.due ≠ none) ∧
        t = { s.dev with regs := t.regs, clk := { s.dev.clk with staged := t.clk.staged, holdAt := t.clk.holdAt } } ∧
        s.dev.KeepsRegs [.TCK_HOLD] t) ∧
  (∀ (s : State) (src : Src) (e : Nat),
      s.dev.Rested →
      Tbl.get s.dev.clk.holdAt src.fn = some e →
      e + 65536 ≤ s.dev.clk.edges →
      ∃ t, exec (.tckHoldTimeout src) s = .next { s with dev := t } ∧
        t.flag F.TCK_HOLD_HOLD src.fn = false ∧
        (∀ x ∈ t.clk.staged, x.fn = src.fn → x.due ≠ none) ∧
        Tbl.get t.clk.holdAt src.fn = none ∧
        t = { s.dev with regs := t.regs, evr := t.evr, shadow := t.shadow, free := t.free, clk := { s.dev.clk with staged := t.clk.staged, holdAt := t.clk.holdAt } } ∧
        s.dev.KeepsRegs [.TCK_HOLD] t) ∧
  (∀ (s : State) (p : Port) (m : BitVec 24),
      s.dev.Rested →
      s.dev.inReset = false →
      s.dev.phyState p.val = 4 →
      ∃ t, exec (.pathDelayMeasure p m) s = .next { s with dev := t } ∧
        t.fld F.TCK_PDLY_DELAY p.val = m.toNat ∧
        t.fld F.TCK_PDLY_ASYM p.val = s.dev.fld F.TCK_PDLY_ASYM p.val ∧
        t.fld F.LNK_REPLAY_TO_RTT p.val = min (roundTrip m) 65535 ∧
        t.fld F.LNK_REPLAY_TO_TIMEOUT p.val = s.dev.fld F.LNK_REPLAY_TO_TIMEOUT p.val ∧
        s.dev.OnlyRegs [.TCK_PDLY, .LNK_REPLAY_TO] t) ∧
  (∀ (s : State) (h : Hedge) (l n : Nat),
      s.dev.Rested →
      Tbl.get s.dev.clk.floor h.val = some (l, some n) →
      n + 1024 ≤ s.dev.clk.edges →
      ∃ t, exec (.regionFloorRelease h) s = .next { s with dev := t } ∧
        Tbl.get t.clk.floor h.val = none ∧
        t = { s.dev with clk := { s.dev.clk with floor := t.clk.floor } }) ∧
  (∀ (s : State) (u : Fin 10),
      s.dev.Rested →
      s.dev.inReset = false →
      s.dev.leftOver u.val = true →
      u.val ∉ s.dev.clk.deferred →
      ∃ t, exec (.tickWorkOverrun u) s = .next { s with dev := t } ∧
        t.flag F.TCK_STATUS_OVERRUN 0 = true ∧
        (s.dev.profileOf 0x1301 = none → t.fld F.TCK_OVR_CNT_COUNT u.val = min (s.dev.fld F.TCK_OVR_CNT_COUNT u.val + 1) (2 ^ 32 - 1)) ∧
        t.clk.deferred = u.val :: s.dev.clk.deferred ∧
        t.leftOver u.val = true ∧
        t = { s.dev with regs := t.regs, evr := t.evr, shadow := t.shadow, free := t.free, clk := { s.dev.clk with deferred := t.clk.deferred } } ∧
        s.dev.KeepsRegs [.TCK_STATUS, .TCK_OVR_CNT] t) ∧
  (∀ (s : State) (src : Src) (v : Word),
      s.dev.Rested →
      s.dev.inReset = false →
      s.dev.level src = 0 →
      ∃ t, exec (.tckParentWrite src v) s = .next { s with dev := t } ∧
        t.fld F.TCK_PARENT_ROOT 0 = F.TCK_PARENT_ROOT.ofWord v ∧
        t.fld F.TCK_PARENT_REF_OK 0 = F.TCK_PARENT_REF_OK.ofWord v ∧
        t.fld F.TCK_PARENT_PARENT 0 = F.TCK_PARENT_PARENT.ofWord v ∧
        t.fld F.TCK_PARENT_STANDBY 0 = F.TCK_PARENT_STANDBY.ofWord v ∧
        (t.clk.planned = none ∨ (t.clk.planned = some (t.fld F.TCK_PARENT_PARENT 0) ∧ s.dev.clockUsable (t.fld F.TCK_PARENT_PARENT 0) = true)) ∧
        t = { s.dev with regs := t.regs, evr := t.evr, shadow := t.shadow, free := t.free, clk := { s.dev.clk with planned := t.clk.planned } } ∧
        s.dev.KeepsRegs [.TCK_STATUS, .TCK_PARENT] t) ∧
  (∀ (s : State) (src : Src) (v : Word),
      s.dev.Rested →
      s.dev.level src ≠ 0 →
      ∃ t, exec (.tckParentWrite src v) s = .next { s with dev := t } ∧
        t = s.dev)

/-- Modules come, become ready, are read, and are removed. MODULE_REMOVED after two high samples clears PRESENT, the cached identity
and the saved settings, asserts MODRST_N, and takes the port, from any state, to DOWN with ABSENT; MODULE_INSERTED after 25,000
low samples sets PRESENT and releases MODRST_N (R53); MODULE_READY within 2 s lets the port be read, and MODULE_TIMEOUT refuses
a module that was not ready with MODULE_TIMEOUT (R54); STAGE1_READ_START selects the module of the lowest-numbered waiting port
of a free master (R58); MODULE_IDENTITY_READ caches the identity of a module that passes Table 02-6 and goes on to stage 2, or
takes the port down with the reason of the check that failed (R56). The statements about a port that may fall are for a device
on which no collective group is formed; what a fall does to a group is R315. The model's own choices in it: assumptions 37, 142.
It says of each of MODULE_REMOVED (moduleRemoved), MODULE_INSERTED (moduleInserted), MODULE_READY (moduleReady), MODULE_TIMEOUT
(moduleTimeout), STAGE1_READ_START (stage1ReadStart) and MODULE_IDENTITY_READ (moduleIdentityRead) that exec answers a next
state, under conditions on the state and the operands alone. -/
def Obligations.ModulePresence : Prop :=
  (∀ (s : State) (p : Port),
      s.dev.col.grps = [] →
      s.dev.flag F.PHY_STATUS_PRESENT p.val = true →
      2 ≤ (s.dev.port p.val).highRun →
      ∃ t, exec (.moduleRemoved p) s = .next { s with dev := t } ∧
        t.flag F.PHY_STATUS_PRESENT p.val = false ∧
        t.rd .PHY_MODULE p.val = 0#32 ∧
        (t.port p.val).saved = [] ∧
        Tbl.get t.pins.modrst p.val = some true ∧
        (t.port p.val).ready = false ∧
        t.phyState p.val = 1 ∧
        t.fld F.PHY_STATUS_REASON p.val = 0x01) ∧
  (∀ (s : State) (p : Port),
      s.dev.Rested →
      s.dev.flag F.PHY_STATUS_PRESENT p.val = false →
      25000 ≤ (s.dev.port p.val).lowRun →
      ∃ t, exec (.moduleInserted p) s = .next { s with dev := t } ∧
        t.flag F.PHY_STATUS_PRESENT p.val = true ∧
        Tbl.get t.pins.modrst p.val = some false ∧
        (t.port p.val).resetAt = some s.dev.clk.edges ∧
        (t.port p.val).ready = false ∧
        t = { s.dev with regs := t.regs, evr := t.evr, shadow := t.shadow, free := t.free, phy := t.phy, pins := t.pins } ∧
        s.dev.KeepsRegs [.PHY_STATUS] t) ∧
  (∀ (s : State) (p : Port) (e : Nat),
      s.dev.Rested →
      (s.dev.port p.val).resetAt = some e →
      s.dev.clk.edges ≤ e + 3125000 →
      ∃ t, exec (.moduleReady p) s = .next { s with dev := t } ∧
        (t.port p.val).ready = true ∧
        t = { s.dev with phy := t.phy }) ∧
  (∀ (s : State) (p : Port) (e : Nat),
      s.dev.col.grps = [] →
      (s.dev.port p.val).resetAt = some e →
      (s.dev.port p.val).ready = false →
      e + 3125000 < s.dev.clk.edges →
      s.dev.flag F.PHY_CFG_FIXED p.val = false →
      (s.dev.phyState p.val = 2 ∨ s.dev.inStage p.val 1 = true) →
      ∃ t, exec (.moduleTimeout p) s = .next { s with dev := t } ∧
        t.phyState p.val = 1 ∧
        t.fld F.PHY_STATUS_REASON p.val = 0x02) ∧
  (∀ (s : State) (p : Port),
      s.dev.Rested →
      (∀ k ∈ List.range 8, (s.dev.port (p.val / 8 * 8 + k)).reading = false) →
      (((List.range 8).map fun k => p.val / 8 * 8 + k).find? s.dev.waitsRead = some p.val) →
      ∃ t, exec (.stage1ReadStart p) s = .next { s with dev := t } ∧
        (t.port p.val).reading = true ∧
        p.val ∈ t.pins.modsel ∧
        (t.port p.val).stageAt = s.dev.clk.edges ∧
        t.phyStage p.val = 1 ∧
        t = { s.dev with regs := t.regs, phy := t.phy, pins := t.pins } ∧
        s.dev.KeepsRegs [.PHY_STATUS] t) ∧
  (∀ (s : State) (p : Port) (x : ModuleId),
      s.dev.col.grps = [] →
      s.dev.inStage p.val 1 = true →
      (s.dev.port p.val).reading = true →
      ∃ t, exec (.moduleIdentityRead p x) s = .next { s with dev := t } ∧
        (s.dev.moduleCheck p.val x = none → t.inStage p.val 2 = true ∧ t.flag F.PHY_MODULE_VALID p.val = true ∧ (t.port p.val).dataLanes = x.at 135) ∧
        (∀ r ∈ s.dev.moduleCheck p.val x, t.phyState p.val = 1 ∧ t.fld F.PHY_STATUS_REASON p.val = r))

/-- The stages of a bring-up that succeed. An admitted lane power-up charges its cost and starts stage 1, or stage 2 where the
identity is cached or the channel is fixed, or enters TEST (R59, R64, Table 02-10). CLOCK_LANE_LOCK within 2 ppm goes on to
stage 3, PHASE_LOCK with every lane fit to stage 4 at full width, POLARITY_DETECT with every mean clear of the middle to stage 5
with each lane's polarity recorded, LANE_ORDER_DETECT of the identity to stage 6, BLOCK_LOCK_DESKEW with lock and at most 64 UI
of skew to stage 7, PRESET_NEGOTIATION, 987 ticks after the search for settings has ended on every lane and with every lane fit,
to stage 8 with each lane's PRBS31 errors recorded, LINK_FRAME_LOCK to stage 9 with the link in INIT and the measured delay
stored (R60, Table 02-7). The model's own choices in it: assumptions 39, 40, 122, 123, 125, 126, 140. It says of each of
LANE_POWER_ADMITTED (lanePowerAdmitted), CLOCK_LANE_LOCK (clockLaneLock), PHASE_LOCK (phaseLock), POLARITY_DETECT
(polarityDetect), LANE_ORDER_DETECT (laneOrderDetect), BLOCK_LOCK_DESKEW (blockLockDeskew), PRESET_NEGOTIATION
(presetNegotiation), LINK_FRAME_LOCK (linkFrameLock) and TEST_STAGE2_MEASURE (testStage2Measure) that exec answers a next state,
under conditions on the state and the operands alone. -/
def Obligations.BringUpAdvances : Prop :=
  (∀ (s : State) (p : Port),
      s.dev.col.grps = [] →
      s.dev.phyState p.val = 2 →
      s.dev.fld F.PWR_COST_COST 2 ≤ Tbl.getD s.dev.pwr.grant 2 0 →
      s.dev.fld F.PWR_COST_COST 2 ≤ Tbl.getD s.dev.pwr.cap (1 + p.val / 16) 0 →
      ∃ t, exec (.lanePowerAdmitted p) s = .next { s with dev := t } ∧
        (t.phyState p.val = (if s.dev.fld F.PHY_CTRL_TEST p.val = 0 then 3 else 6)) ∧
        (s.dev.fld F.PHY_CTRL_TEST p.val = 0 → t.phyStage p.val = (if s.dev.flag F.PHY_CFG_FIXED p.val || s.dev.flag F.PHY_MODULE_VALID p.val then 2 else 1)) ∧
        t.pwr.charged = s.dev.pwr.charged + s.dev.fld F.PWR_COST_COST 2 ∧
        Tbl.getD t.pwr.grant 2 0 = Tbl.getD s.dev.pwr.grant 2 0 - s.dev.fld F.PWR_COST_COST 2) ∧
  (∀ (s : State) (p : Port) (ppb : Nat),
      s.dev.col.grps = [] →
      s.dev.inStage p.val 2 = true →
      (s.dev.port p.val).stageAt + 16 ≤ s.dev.clk.edges →
      ∃ t, exec (.clockLaneLock p ppb) s = .next { s with dev := t } ∧
        (ppb ≤ 2000 → t.inStage p.val 3 = true ∧ p.val ∈ t.clk.live) ∧
        (2000 < ppb → (s.dev.island && s.dev.namedParent p.val) = false → t.phyState p.val = 1 ∧ t.fld F.PHY_STATUS_REASON p.val = 0x11)) ∧
  (∀ (s : State) (p : Port) (xs : List LanePhase),
      s.dev.col.grps = [] →
      s.dev.inStage p.val 3 = true →
      xs.length = 4 →
      ((xs.all fun x => match bestCtle x.trials with | some (_, _, f) => decide (s.dev.fld F.PHY_CFG_FOM_MIN p.val ≤ f) | none => false) = true) →
      s.dev.carried p.val = 15 →
      s.dev.fld F.PHY_CTRL_WIDTH p.val = 0 →
      ∃ t, exec (.phaseLock p xs) s = .next { s with dev := t } ∧
        t.inStage p.val 4 = true ∧
        t.fld F.PHY_STATUS_ACTIVE_LANES p.val = 15 ∧
        t.fld F.PHY_STATUS_WIDTH p.val = 0) ∧
  (∀ (s : State) (p : Port) (ms : List Nat),
      s.dev.col.grps = [] →
      s.dev.inStage p.val 4 = true →
      (∀ l ∈ List.range 4, ms.getD l 1500 < 1000 ∨ 2000 < ms.getD l 1500) →
      ∃ t, exec (.polarityDetect p ms) s = .next { s with dev := t } ∧
        t.inStage p.val 5 = true ∧
        (∀ l ∈ List.range 4, (s.dev.port p.val).fit.testBit l = true → t.flag F.PHY_LANE_STATUS_INVERTED (4 * p.val + l) = decide (2000 < ms.getD l 1500))) ∧
  (∀ (s : State) (p : Port) (o : List Nat),
      s.dev.col.grps = [] →
      s.dev.inStage p.val 5 = true →
      (∀ l ∈ List.range 4, (s.dev.port p.val).fit.testBit l = true → o.getD l 4 = l) →
      ∃ t, exec (.laneOrderDetect p o) s = .next { s with dev := t } ∧
        t.inStage p.val 6 = true ∧
        t.fld F.PHY_STATUS_REVERSED p.val = s.dev.fld F.PHY_STATUS_REVERSED p.val) ∧
  (∀ (s : State) (p : Port) (lk : List Bool) (sk : List Nat),
      s.dev.col.grps = [] →
      s.dev.inStage p.val 6 = true →
      (∀ l ∈ List.range 4, (s.dev.port p.val).fit.testBit l = true → lk.getD l false = true) →
      skewOk (s.dev.port p.val).fit sk = true →
      ∃ t, exec (.blockLockDeskew p lk sk) s = .next { s with dev := t } ∧
        t.inStage p.val 7 = true ∧
        (∀ l ∈ List.range 4, (s.dev.port p.val).fit.testBit l = true → t.flag F.PHY_LANE_STATUS_BLOCK_LOCK (4 * p.val + l) = true)) ∧
  (∀ (s : State) (p : Port) (xs : List Nat),
      s.dev.col.grps = [] →
      s.dev.inStage p.val 7 = true →
      (∀ l ∈ List.range 4, s.dev.tuned p.val l = true) →
      (∀ l ∈ List.range 4, s.dev.fld F.PHY_CFG_FOM_MIN p.val ≤ ((Tbl.get (s.dev.port p.val).tune l).bind (·.top)).getD 0) →
      (∀ l ∈ List.range 4, xs.getD l 0 ≤ s.dev.fld F.PHY_CFG_PRBS_LIMIT p.val) →
      (s.dev.port p.val).fit = 15 →
      (s.dev.port p.val).farFit = 15 →
      (s.dev.port p.val).farWidth = 0 →
      s.dev.carried p.val = 15 →
      s.dev.fld F.PHY_CTRL_WIDTH p.val = 0 →
      ∃ t, exec (.presetNegotiation p xs) s = .next { s with dev := t } ∧
        t.inStage p.val 8 = true ∧
        t.fld F.PHY_STATUS_ACTIVE_LANES p.val = 15 ∧
        (∀ l ∈ List.range 4, t.rd .PHY_PRBS_ERR (4 * p.val + l) = BitVec.ofNat 32 (min (xs.getD l 0) 0xFFFFFFFF))) ∧
  (∀ (s : State) (p : Port) (m : BitVec 24),
      s.dev.Rested →
      s.dev.inStage p.val 8 = true →
      ∃ t, exec (.linkFrameLock p m) s = .next { s with dev := t } ∧
        t.inStage p.val 9 = true ∧
        t.linkState p.val = 1 ∧
        (t.lnk p.val).sendInit = true ∧
        t.fld F.TCK_PDLY_DELAY p.val = m.toNat ∧
        t = { s.dev with regs := t.regs, phy := t.phy, link := t.link } ∧
        s.dev.KeepsRegs [.PHY_STATUS, .TCK_PDLY, .LNK_REPLAY_TO, .LNK_STATUS] t) ∧
  (∀ (s : State) (p : Port) (x : Option Nat),
      s.dev.Rested →
      s.dev.phyState p.val = 6 →
      s.dev.phyStage p.val = 2 →
      (s.dev.port p.val).stageAt + 16 ≤ s.dev.clk.edges →
      ∃ t, exec (.testStage2Measure p x) s = .next { s with dev := t } ∧
        t.phyState p.val = 6 ∧
        (t.phyStage p.val = (match x with | some n => if 2000 < n then 2 else 3 | none => 2)) ∧
        (t.fld F.PHY_STATUS_REASON p.val = (match x with | some n => if 2000 < n then 0x11 else 0 | none => 0x10)) ∧
        t = { s.dev with regs := t.regs, phy := t.phy, clk := t.clk } ∧
        s.dev.KeepsRegs [.PHY_STATUS] t)

/-- A port that fails goes DOWN with the reason that the rules give. BRINGUP_STAGE_TIMEOUT takes a port whose stage has exceeded its
limit down with the stage's reason (R59, Table 02-7); CLOCK_LANE_LOST takes a port in service down with CLOCK_LOST (R68);
QUICKSET_FAIL takes a port whose quickset step exceeded its limit down with QUICKSET_FAIL and without saved settings (R69);
AUTO_RESTART, 1,600 ticks after the failure, begins a new bring-up (R63). The model's own choices in it: assumptions 37, 38,
142. It says of each of BRINGUP_STAGE_TIMEOUT (bringupStageTimeout), CLOCK_LANE_LOST (clockLaneLost), QUICKSET_FAIL
(quicksetFail) and AUTO_RESTART (autoRestart) that exec answers a next state, under conditions on the state and the operands
alone. -/
def Obligations.BringUpFails : Prop :=
  (∀ (s : State) (p : Port),
      s.dev.col.grps = [] →
      s.dev.phyState p.val = 3 →
      (s.dev.port p.val).stageAt + stageLimit (s.dev.phyStage p.val) < s.dev.clk.edges →
      (s.dev.phyStage p.val ≠ 1 ∨ (s.dev.port p.val).reading = true) →
      (s.dev.phyStage p.val ≠ 2 ∨ s.dev.island = false ∨ s.dev.namedParent p.val = false) →
      ∃ t, exec (.bringupStageTimeout p) s = .next { s with dev := t } ∧
        t.phyState p.val = 1 ∧
        t.fld F.PHY_STATUS_REASON p.val = stageReason (s.dev.phyStage p.val)) ∧
  (∀ (s : State) (p : Port),
      s.dev.col.grps = [] →
      (s.dev.phyState p.val = 4 ∨ s.dev.phyState p.val = 5) →
      ∃ t, exec (.clockLaneLost p) s = .next { s with dev := t } ∧
        t.phyState p.val = 1 ∧
        t.fld F.PHY_STATUS_REASON p.val = 0x12 ∧
        p.val ∉ t.clk.live ∧
        t.linkState p.val = 0) ∧
  (∀ (s : State) (p : Port),
      s.dev.col.grps = [] →
      s.dev.phyState p.val = 5 →
      (s.dev.port p.val).stageAt + qsLimit (s.dev.port p.val).qsStep < s.dev.clk.edges →
      ∃ t, exec (.quicksetFail p) s = .next { s with dev := t } ∧
        t.phyState p.val = 1 ∧
        t.fld F.PHY_STATUS_REASON p.val = 0x32 ∧
        (t.port p.val).saved = [] ∧
        t.flag F.PHY_STATUS_SAVED p.val = false) ∧
  (∀ (s : State) (p : Port) (e : Nat),
      s.dev.Rested →
      s.dev.phyState p.val = 1 →
      (s.dev.port p.val).restartAt = some e →
      e + 1600 ≤ s.dev.clk.edges →
      s.dev.flag F.PHY_CFG_AUTO_RESTART p.val = true →
      s.dev.fld F.PHY_STATUS_REASON p.val ≠ 0x30 →
      s.dev.fld F.PHY_STATUS_REASON p.val ≠ 0x01 →
      s.dev.fld F.PHY_STATUS_REASON p.val ≠ 0x13 →
      s.dev.flag F.PHY_CTRL_ENABLE p.val = true →
      s.dev.flag F.PHY_STATUS_PRESENT p.val = true →
      ∃ t, exec (.autoRestart p) s = .next { s with dev := t } ∧
        t.phyState p.val = 2 ∧
        (t.port p.val).restartAt = none ∧
        t = { s.dev with regs := t.regs, phy := t.phy } ∧
        s.dev.KeepsRegs [.PHY_STATUS] t)

/-- Quickset retrains and degrades of a port in service. A lane in use that 32 invalid sync headers of 1,024 or the end of its phase
interpolator's range show failed puts a port with saved settings in QUICKSET with DEGRADED set and the lane unfit; the loss of
block lock on every lane, PHY_QUICKSET at L0, and CMD quickset put it in QUICKSET (R67, R69, R70, Table 02-12).
QUICKSET_STEP_COMPLETE moves step 2 to 3, restoring the saved settings; step 3 to 4 where the saved mapping is found, and down
with QUICKSET_FAIL where it is not; and step 4 to 5 where no lane lies below FOM_MIN (Table 02-11). The model's own choices in
it: assumptions 40, 43, 44, 124, 141. It says of each of DATA_LANE_FAILED (dataLaneFailed), ALL_BLOCK_LOCK_LOST
(allBlockLockLost), TRAINING_CONTROL_BLOCK (trainingControlBlock), PHY_QUICKSET (phyQuickset) and QUICKSET_STEP_COMPLETE
(quicksetStepComplete) that exec answers a next state, under conditions on the state and the operands alone. -/
def Obligations.RetrainWithoutLoss : Prop :=
  (∀ (s : State) (p : Port) (l : Fin 4) (code : Byte),
      s.dev.col.grps = [] →
      (s.dev.headersFail p.val l.val = true ∨ code = 0#8 ∨ code = 255#8) →
      (s.dev.phyState p.val = 4 ∨ s.dev.phyState p.val = 5) →
      (s.dev.fld F.PHY_STATUS_ACTIVE_LANES p.val).testBit l.val = true →
      s.dev.flag F.PHY_STATUS_SAVED p.val = true →
      ∃ t, exec (.dataLaneFailed p ⟨l, code⟩) s = .next { s with dev := t } ∧
        t.phyState p.val = 5 ∧
        t.flag F.PHY_STATUS_DEGRADED p.val = true ∧
        (t.port p.val).fit.testBit l.val = false ∧
        (t.port p.val).qsStep = 1 ∧ (t.port p.val).qsCmd = 2 ∧
        t.flag F.GLB_FAULT_F3 0 = true) ∧
  (∀ (s : State) (p : Port),
      s.dev.col.grps = [] →
      s.dev.phyState p.val = 4 →
      s.dev.flag F.PHY_STATUS_SAVED p.val = true →
      (s.dev.port p.val).powered = 15 →
      ∃ t, exec (.allBlockLockLost p) s = .next { s with dev := t } ∧
        t.phyState p.val = 5 ∧
        (t.port p.val).qsStep = 1 ∧ (t.port p.val).qsCmd = 1 ∧
        (∀ l ∈ List.range 4, t.flag F.PHY_LANE_STATUS_BLOCK_LOCK (4 * p.val + l) = false)) ∧
  (∀ (s : State) (p : Port) (w : BitVec 64),
      s.dev.col.grps = [] →
      s.dev.phyState p.val = 3 →
      6 ≤ s.dev.phyStage p.val →
      bits w 56 8 = 0xB5 →
      bits w 0 8 = crc8 w →
      bits w 26 16 / 2 ^ 12 % 4 = 3 →
      bits w 26 16 / 8 % 2 = 0 →
      ∃ t, exec (.trainingControlBlock p w) s = .next { s with dev := t } ∧
        (t.port p.val).farFit = bits w 46 4 ∧
        (t.port p.val).farWidth = bits w 50 2 ∧
        t.phyState p.val = 3) ∧
  (∀ (s : State) (src : Src) (p : Port),
      s.dev.col.grps = [] →
      s.dev.level src = 0 →
      s.dev.rd .PHY_CTRL p.val = 1#32 →
      s.dev.sec.recovery = false →
      s.dev.phyState p.val = 4 →
      s.dev.flag F.PHY_STATUS_SAVED p.val = true →
      (s.dev.port p.val).powered = 15 →
      ∃ t, exec (.phyQuickset src p) s = .next { s with dev := t } ∧
        t.phyState p.val = 5 ∧
        (t.port p.val).qsCmd = 1) ∧
  (∀ (s : State) (p : Port) (x : QsRes),
      s.dev.col.grps = [] →
      s.dev.phyState p.val = 5 →
      ∃ t, exec (.quicksetStepComplete p x) s = .next { s with dev := t } ∧
        ((s.dev.port p.val).qsStep = 2 → t.phyState p.val = 5 ∧ (t.port p.val).qsStep = 3) ∧
        ((s.dev.port p.val).qsStep = 3 → s.dev.matchesSaved p.val x = true → t.phyState p.val = 5 ∧ (t.port p.val).qsStep = 4) ∧
        ((s.dev.port p.val).qsStep = 3 → s.dev.matchesSaved p.val x = false → t.phyState p.val = 1 ∧ t.fld F.PHY_STATUS_REASON p.val = 0x32) ∧
        ((s.dev.port p.val).qsStep = 4 → (∀ l ∈ List.range 4, s.dev.fld F.PHY_CFG_FOM_MIN p.val ≤ s.dev.fld F.PHY_LANE_STATUS_FOM (4 * p.val + l)) → t.phyState p.val = 5 ∧ (t.port p.val).qsStep = 5))

/-- Writes of PHY_CTRL at L0 enable, disable, retrain and forget. Setting ENABLE of a DISABLED port moves it to DOWN, or at once to
WAIT_POWER where its module is present or its channel fixed, and to WAIT_POWER for test mode; clearing ENABLE makes it DISABLED
with ADMIN; RETRAIN of an enabled port in service takes it down with ADMIN and restarts bring-up; FORGET discards the saved
settings (R64, R66, R70, Table 02-10). Below L0 nothing changes (R73). The model's own choices in it: assumptions 41, 143. It
says of each of PHY_ENABLE (phyEnable), PHY_DISABLE (phyDisable), PHY_RETRAIN (phyRetrain) and PHY_FORGET (phyForget) that exec
answers a next state, under conditions on the state and the operands alone. -/
def Obligations.PortControl : Prop :=
  (∀ (s : State) (src : Src) (p : Port),
      s.dev.col.grps = [] →
      s.dev.level src = 0 →
      s.dev.sec.recovery = false →
      s.dev.phyState p.val = 0 →
      s.dev.rd .PHY_CTRL p.val &&& 0x80000301#32 = 0#32 →
      ∃ t, exec (.phyEnable src p) s = .next { s with dev := t } ∧
        t.flag F.PHY_CTRL_ENABLE p.val = true ∧
        (s.dev.fld F.PHY_CTRL_TEST p.val ≠ 0 → t.phyState p.val = 2) ∧
        (s.dev.fld F.PHY_CTRL_TEST p.val = 0 → t.phyState p.val = (if s.dev.flag F.PHY_STATUS_PRESENT p.val || s.dev.flag F.PHY_CFG_FIXED p.val then 2 else 1))) ∧
  (∀ (s : State) (src : Src) (p : Port),
      s.dev.col.grps = [] →
      s.dev.level src = 0 →
      s.dev.rd .PHY_CTRL p.val = 1#32 →
      ∃ t, exec (.phyDisable src p) s = .next { s with dev := t } ∧
        t.flag F.PHY_CTRL_ENABLE p.val = false ∧
        t.phyState p.val = 0 ∧
        t.fld F.PHY_STATUS_REASON p.val = 0x30 ∧
        t.fld F.PHY_STATUS_ACTIVE_LANES p.val = 0) ∧
  (∀ (s : State) (src : Src) (p : Port),
      s.dev.col.grps = [] →
      s.dev.level src = 0 →
      s.dev.sec.recovery = false →
      s.dev.rd .PHY_CTRL p.val = 1#32 →
      2 ≤ s.dev.phyState p.val →
      s.dev.phyState p.val ≠ 6 →
      s.dev.flag F.PHY_STATUS_PRESENT p.val = true →
      ∃ t, exec (.phyRetrain src p) s = .next { s with dev := t } ∧
        t.phyState p.val = 2 ∧
        t.fld F.PHY_STATUS_REASON p.val = 0x30) ∧
  (∀ (s : State) (src : Src) (p : Port),
      s.dev.col.grps = [] →
      s.dev.level src = 0 →
      ((s.dev.rd .PHY_CTRL p.val = 0#32 ∧ s.dev.phyState p.val = 0) ∨ (s.dev.rd .PHY_CTRL p.val = 1#32 ∧ s.dev.sec.recovery = false)) →
      ∃ t, exec (.phyForget src p) s = .next { s with dev := t } ∧
        (t.port p.val).saved = [] ∧
        t.flag F.PHY_STATUS_SAVED p.val = false ∧
        t.phyState p.val = s.dev.phyState p.val) ∧
  (∀ (s : State) (src : Src) (p : Port),
      s.dev.Rested →
      s.dev.col.grps = [] →
      s.dev.col.downs = [] →
      s.dev.level src ≠ 0 →
      ∃ t, exec (.phyEnable src p) s = .next { s with dev := t } ∧
        t = s.dev)

/-- Back-channel requests, in-service adaptation and the low figure of merit. A back-channel step request that has not been applied
is applied to the lane's transmitter within the limits of Table 02-2 with MAIN = 64 - PRE - POST, and answered; the same request
again changes no coefficient (R46, R48). An ADAPTATION_STEP of an ACTIVE lane 1,024 ticks after the last one, with no step under
evaluation and no request outstanding, queues the request chosen (R50). PHY_FOM_LOW after 1,024 ticks below FOM_MIN/2 marks the
lane, so that it is raised once (R52). The model's own choices in it: assumptions 42, 44, 125. It says of each of
BACKCHANNEL_WORD (backchannelWord), ADAPTATION_STEP (adaptationStep) and PHY_FOM_LOW (phyFomLow) that exec answers a next state,
under conditions on the state and the operands alone. -/
def Obligations.LaneAdaptation : Prop :=
  (∀ (s : State) (p : Port) (w : BitVec 16),
      s.dev.col.grps = [] →
      s.dev.phyState p.val = 4 →
      s.dev.flag F.PHY_STATUS_SAVED p.val = false →
      w.toNat / 2 ^ 12 % 4 = 0 →
      Tbl.get (s.dev.port p.val).applied (w.toNat / 2 ^ 14) = none →
      ∃ t, exec (.backchannelWord p w) s = .next { s with dev := t } ∧
        t.fld F.PHY_TXEQ_PRE (4 * p.val + w.toNat / 2 ^ 14) = (tapStep (w.toNat / 2 ^ 10 % 4) (s.dev.fld F.PHY_TXEQ_PRE (4 * p.val + w.toNat / 2 ^ 14)) 12).1 % 16 ∧
        t.fld F.PHY_TXEQ_POST (4 * p.val + w.toNat / 2 ^ 14) = (tapStep (w.toNat / 2 ^ 8 % 4) (s.dev.fld F.PHY_TXEQ_POST (4 * p.val + w.toNat / 2 ^ 14)) 20).1 % 32 ∧
        (Tbl.get (t.port p.val).applied (w.toNat / 2 ^ 14)).map (·.1) = some (w.toNat % 256)) ∧
  (∀ (s : State) (p : Port) (w : BitVec 16) (st : Nat),
      s.dev.Rested →
      s.dev.col.grps = [] →
      s.dev.col.downs = [] →
      s.dev.phyState p.val = 4 →
      w.toNat / 2 ^ 12 % 4 = 0 →
      Tbl.get (s.dev.port p.val).applied (w.toNat / 2 ^ 14) = some (w.toNat % 256, st) →
      ∃ t, exec (.backchannelWord p w) s = .next { s with dev := t } ∧
        Tbl.get (t.port p.val).bcAns (w.toNat / 2 ^ 14) = some st ∧
        t = { s.dev with phy := t.phy }) ∧
  (∀ (s : State) (p : Port) (l : Fin 4) (tap up : Bool) (e c0 prev f0 : Nat),
      s.dev.Rested →
      s.dev.phyState p.val = 4 →
      s.dev.flag F.PHY_CFG_ADAPT p.val = true →
      (s.dev.fld F.PHY_STATUS_ACTIVE_LANES p.val).testBit l.val = true →
      Tbl.get (s.dev.port p.val).adapt l.val = some (e, c0, prev, f0, none) →
      e + 1024 ≤ s.dev.clk.edges →
      Tbl.get (s.dev.port p.val).bcOut l.val = none →
      ∃ t, exec (.adaptationStep p l tap up) s = .next { s with dev := t } ∧
        Tbl.get (t.port p.val).bcOut l.val = some (bcWord l.val 0 (stepCode tap up) (s.dev.port p.val).bcSeq) ∧
        t = { s.dev with regs := t.regs, phy := t.phy } ∧
        s.dev.KeepsRegs [.PHY_STATUS] t) ∧
  (∀ (s : State) (p : Port) (l : Fin 4),
      s.dev.Rested →
      s.dev.phyState p.val = 4 →
      1024 ≤ Tbl.getD (s.dev.port p.val).fomLow l.val 0 →
      l.val ∉ (s.dev.port p.val).fomRaised →
      ∃ t, exec (.phyFomLow p l) s = .next { s with dev := t } ∧
        l.val ∈ (t.port p.val).fomRaised ∧
        t = { s.dev with regs := t.regs, evr := t.evr, shadow := t.shadow, free := t.free, phy := t.phy } ∧
        s.dev.KeepsRegs [] t)

/-- Sending and receiving sequenced frames. On an ACTIVE link with nothing to replay and room in the store, LINK_FRAME_SEND forms
one new frame with number TX_NEXT, stores it, sends it, and advances TX_NEXT by one modulo 2^16 (R85, R88); with the store and
the spill space full it forms none (R92). A good sequenced frame whose number is RX_NEXT is accepted: RX_NEXT advances and its
two cell slots go to the switch core in order; a frame with any other number leaves RX_NEXT and the slots (R85). The statement
is for a device on which no collective group is formed. The model's own choices in it: assumptions 45, 46, 49, 120, 126, 144. It
says of each of LINK_FRAME_SEND (linkFrameSend) and LINK_FRAME_RECEIVED (linkFrameReceived) that exec answers a next state,
under conditions on the state and the operands alone. -/
def Obligations.LinkFrames : Prop :=
  (∀ (s : State) (p : Port) (e : Option (Fin 34)),
      s.dev.col.grps = [] →
      s.dev.halted = false →
      s.dev.phyState p.val = 4 →
      s.dev.linkState p.val = 2 →
      (s.dev.lnk p.val).sendInit = false →
      (s.dev.lnk p.val).replay = none →
      s.dev.storeFull p.val = false →
      ∃ t, exec (.linkFrameSend p e) s = .next { s with dev := t } ∧
        t.fld F.LNK_SEQ_TX_NEXT p.val = (s.dev.fld F.LNK_SEQ_TX_NEXT p.val + 1) % 65536 ∧
        (t.lnk p.val).store.dropLast = (s.dev.lnk p.val).store ∧
        (t.lnk p.val).store.getLast? = (t.lnk p.val).lastSent ∧
        (t.lnk p.val).lastSent.map (·.seq) = some (s.dev.fld F.LNK_SEQ_TX_NEXT p.val) ∧
        t.out.drop 1 = s.dev.out ∧
        t.out.length = s.dev.out.length + 1 ∧
        t.fld F.LNK_SEQ_RX_NEXT p.val = s.dev.fld F.LNK_SEQ_RX_NEXT p.val) ∧
  (∀ (s : State) (p : Port) (e : Option (Fin 34)),
      s.dev.col.grps = [] →
      s.dev.halted = false →
      s.dev.phyState p.val = 4 →
      s.dev.linkState p.val = 2 →
      (s.dev.lnk p.val).sendInit = false →
      (s.dev.lnk p.val).replay = none →
      s.dev.storeFull p.val = true →
      ∃ t, exec (.linkFrameSend p e) s = .next { s with dev := t } ∧
        t.fld F.LNK_SEQ_TX_NEXT p.val = s.dev.fld F.LNK_SEQ_TX_NEXT p.val ∧
        (t.lnk p.val).store = (s.dev.lnk p.val).store) ∧
  (∀ (s : State) (p : Port) (lanes : List (List (BitVec 2))) (cyc : Fin 1025) (frac : Fin 125) (ws : List (BitVec 64)),
      s.dev.col.grps = [] →
      s.dev.linkState p.val = 2 →
      (s.dev.receive p.val lanes).1 = some (1#2, ws) →
      bits (ws.headD 0#64) 48 16 = s.dev.fld F.LNK_SEQ_RX_NEXT p.val →
      (s.dev.lnk p.val).cells = [] →
      ∃ t, exec (.linkFrameReceived p lanes cyc frac) s = .next { s with dev := t } ∧
        t.fld F.LNK_SEQ_RX_NEXT p.val = (s.dev.fld F.LNK_SEQ_RX_NEXT p.val + 1) % 65536 ∧
        (t.lnk p.val).slots = (s.dev.lnk p.val).slots ++ [slotBytes ws 1, slotBytes ws 33] ∧
        t.fld F.LNK_SEQ_TX_NEXT p.val = s.dev.fld F.LNK_SEQ_TX_NEXT p.val) ∧
  (∀ (s : State) (p : Port) (lanes : List (List (BitVec 2))) (cyc : Fin 1025) (frac : Fin 125) (ws : List (BitVec 64)),
      s.dev.col.grps = [] →
      s.dev.linkState p.val = 2 →
      (s.dev.receive p.val lanes).1 = some (1#2, ws) →
      bits (ws.headD 0#64) 48 16 ≠ s.dev.fld F.LNK_SEQ_RX_NEXT p.val →
      ∃ t, exec (.linkFrameReceived p lanes cyc frac) s = .next { s with dev := t } ∧
        t.fld F.LNK_SEQ_RX_NEXT p.val = s.dev.fld F.LNK_SEQ_RX_NEXT p.val ∧
        (t.lnk p.val).slots = (s.dev.lnk p.val).slots)

/-- Replay, read-back of spilled frames, initialisation, the audit window and FLUSH. REPLAY_TIMEOUT past TIMEOUT starts a replay at
the oldest stored frame and keeps the store (R87, R90). SPILL_FETCH_DONE of a read that the arbiter has issued makes the frame
ready with good data (R201); an uncorrectable one increments the own epoch and declares F3 (R93). A good init record of a new
session makes the link ACTIVE, starts both numberings at 0, sets PEER_CHANGED and stores the peer's identity (R101, R102, Table
03-6). The end of an audit window stores the window's minima as DEFICIT, once for each edge that reaches or passes a multiple of
1,024 (R537). FLUSH of a DOWN port at L0 empties the store and increments the own epoch; on a port that is not DOWN it is
refused with STATE_WRITE (R109). The model's own choices in it: assumptions 47, 48, 121. It says of each of REPLAY_TIMEOUT
(replayTimeout), SPILL_FETCH_DONE (spillFetchDone), INIT_FRAME_RECEIVED (initFrameReceived), AUDIT_WINDOW_END (auditWindowEnd)
and LNK_FLUSH (lnkFlush) that exec answers a next state, under conditions on the state and the operands alone. -/
def Obligations.ReplayAndSession : Prop :=
  (∀ (s : State) (p : Port) (n : Nat),
      s.dev.Rested →
      s.dev.col.grps = [] →
      s.dev.linkState p.val = 2 →
      s.dev.fld F.LNK_REPLAY_TO_TIMEOUT p.val < n →
      (s.dev.lnk p.val).store ≠ [] →
      (s.dev.lnk p.val).replays + 1 < max 1 (s.dev.fld F.LNK_CFG_REPLAY_MAX p.val) →
      ∃ t, exec (.replayTimeout p n) s = .next { s with dev := t } ∧
        (t.lnk p.val).replay = some (s.dev.oldestSeq p.val) ∧
        (t.lnk p.val).replays = (s.dev.lnk p.val).replays + 1 ∧
        (t.lnk p.val).store = (s.dev.lnk p.val).store ∧
        t.flag F.LNK_STATUS_REPLAYING p.val = true ∧
        t.flag F.GLB_FAULT_F1 0 = true ∧
        t = { s.dev with regs := t.regs, evr := t.evr, shadow := t.shadow, free := t.free, link := t.link, cnts := t.cnts, col := t.col, mem := t.mem, wr := t.wr, wipe := t.wipe } ∧
        s.dev.KeepsRegs [.LNK_STATUS, .GLB_FAULT] t) ∧
  (∀ (s : State) (p : Port) (ok : Bool),
      s.dev.col.grps = [] →
      (s.dev.lnk p.val).fetching = true →
      s.dev.arbWaits 1 p.val = false →
      s.dev.arbWaits 7 p.val = false →
      ∃ t, exec (.spillFetchDone p ok) s = .next { s with dev := t } ∧
        (ok = true → (t.lnk p.val).fetched = true ∧ (t.lnk p.val).fetching = false ∧ t.regs = s.dev.regs) ∧
        (ok = false → t.fld F.LNK_EPOCH_OWN p.val = (s.dev.fld F.LNK_EPOCH_OWN p.val + 1) % 65536 ∧ t.flag F.GLB_FAULT_F3 0 = true)) ∧
  (∀ (s : State) (p : Port) (lanes : List (List (BitVec 2))) (cyc : Fin 1025) (frac : Fin 125) (ws : List (BitVec 64)),
      s.dev.col.grps = [] →
      s.dev.linkState p.val = 1 →
      s.dev.phyState p.val = 3 →
      s.dev.rxSettled p.val = true →
      (s.dev.lnk p.val).claimed = true →
      (s.dev.receive p.val lanes).1 = some (2#2, ws) →
      bits (ws.headD 0#64) 56 8 = 0xB6 →
      bits (ws.headD 0#64) 24 16 / 2 ^ 12 % 4 = 3 →
      bits (ws.headD 0#64) 24 16 / 8 % 2 = 0 →
      initRecordOk (slotBytes ws 1) = true →
      s.dev.continues p.val (slotBytes ws 1) = false →
      ∃ t, exec (.initFrameReceived p lanes cyc frac) s = .next { s with dev := t } ∧
        t.linkState p.val = 2 ∧
        t.phyState p.val = 4 ∧
        t.fld F.LNK_SEQ_TX_NEXT p.val = 0 ∧
        t.fld F.LNK_SEQ_RX_NEXT p.val = 0 ∧
        t.flag F.LNK_STATUS_PEER_CHANGED p.val = true ∧
        t.flag F.LNK_PEER_VALID p.val = true ∧
        t.fld F.LNK_PEER_DEVICE p.val = recField (slotBytes ws 1) 4 4 % 2 ^ 17 ∧
        t.fld F.LNK_PEER_PORT p.val = recField (slotBytes ws 1) 1 1 ∧
        t.fld F.LNK_EPOCH_PEER p.val = recField (slotBytes ws 1) 2 2 ∧
        (t.lnk p.val).store = []) ∧
  (∀ (s : State) (p : Port),
      s.dev.col.grps = [] →
      s.dev.windowEdge = true →
      (s.dev.lnk p.val).auditAt ≠ some s.dev.clk.edges →
      ∃ t, exec (.auditWindowEnd p) s = .next { s with dev := t } ∧
        (t.lnk p.val).auditEnd = [] ∧
        (∀ v ∈ List.range 12, ∀ x ∈ Tbl.get (s.dev.lnk p.val).auditEnd v, t.fld F.LNK_VC_PEER_DEFICIT (12 * p.val + v) = min x 65535) ∧
        (t.lnk p.val).auditMin = (s.dev.lnk p.val).auditMin ∧
        (t.lnk p.val).auditAt = some s.dev.clk.edges ∧
        (∀ v ∈ List.range 12, t.fld F.LNK_VC_PEER_ALLOC (12 * p.val + v) = s.dev.fld F.LNK_VC_PEER_ALLOC (12 * p.val + v))) ∧
  (∀ (s : State) (src : Src) (p : Port),
      s.dev.Rested →
      s.dev.level src = 0 →
      ∃ t, exec (.lnkFlush src p) s = .next { s with dev := t } ∧
        (s.dev.linkState p.val = 0 → (t.lnk p.val).store = [] ∧ t.rd .LNK_STORE p.val = 0#32 ∧ t.fld F.LNK_EPOCH_OWN p.val = (s.dev.fld F.LNK_EPOCH_OWN p.val + 1) % 65536 ∧ t.flag F.LNK_STATUS_HELD p.val = false) ∧
        (s.dev.linkState p.val ≠ 0 → t.flag F.GLB_ERR_STATE_WRITE src.fn = true ∧ t = { s.dev with regs := t.regs }))

/-- Acceptance of packets at fabric and internal inputs. PACKET_HEADER_ACCEPT of a first cell that passes checks 1 to 4 of Table
04-5 starts the packet with that slot and the slots after it that belong to it, counts their credits as occupied, and notes the
route that the tables of the tick give it (R34, R118, R119); a first cell that fails them is discarded, counted, and starts a
resynchronisation (R119). PACKET_ACCEPTED of a complete packet that is not direct counts it and its cells, and puts it in the
virtual output queue of the internal output, or of the fabric port with a link, that its route names (R120, R126); a direct
packet goes to the port's own unit (R152); a packet with a content failure is counted and freed (R120). INTERNAL_PACKET_INJECT
moves the packet at the head of an internal input to the queue of its output once a permitted part of the buffer has room (R121,
R124). The model's own choices in it: assumptions 46, 54, 121. It says of each of PACKET_HEADER_ACCEPT (packetHeaderAccept),
PACKET_ACCEPTED (packetAccepted) and INTERNAL_PACKET_INJECT (internalPacketInject) that exec answers a next state, under
conditions on the state and the operands alone. -/
def Obligations.SwitchAccepts : Prop :=
  (∀ (s : State) (p : Port) (c : List Byte) (cs : List (List Byte)),
      (s.dev.lnk p.val).cells = [] →
      (s.dev.lnk p.val).slots = c :: cs →
      idleSlot c = false →
      framingOk (parsePkt c) c = true →
      ∃ t, exec (.packetHeaderAccept p) s = .next { s with dev := t } ∧
        (t.lnk p.val).need = (40 + padLen (parsePkt c).len + 255) / 256 ∧
        (t.lnk p.val).cells = c :: cs.take ((40 + padLen (parsePkt c).len + 255) / 256 - 1) ∧
        (t.lnk p.val).slots = cs.drop ((40 + padLen (parsePkt c).len + 255) / 256 - 1) ∧
        (t.lnk p.val).resync = false ∧
        t.occ p.val (parsePkt c).vc = (s.dev.occ p.val (parsePkt c).vc + (t.lnk p.val).cells.length) % 65536 ∧
        (t.lnk p.val).hdrRoute = s.dev.routeOf { parsePkt c with h0 := putBits (parsePkt c).h0 50 5 ((parsePkt c).hops + 1) } none p.val (parsePkt c).rvc ∧
        (t.lnk p.val).hdrTick = s.dev.clk.tick.toNat ∧
        t.swc.queue = s.dev.swc.queue) ∧
  (∀ (s : State) (p : Port) (c : List Byte),
      (s.dev.lnk p.val).cells = [] →
      (s.dev.lnk p.val).slots = [c] →
      idleSlot c = false →
      framingOk (parsePkt c) c = false →
      (s.dev.lnk p.val).resync = false →
      ∃ t, exec (.packetHeaderAccept p) s = .next { s with dev := t } ∧
        (t.lnk p.val).slots = [] ∧
        (t.lnk p.val).cells = [] ∧
        (t.lnk p.val).resync = true ∧
        t.flag F.GLB_FAULT_F1 0 = true ∧
        t.cnt 2 (7 * p.val + 2) = s.dev.cnt 2 (7 * p.val + 2) + 1#48 ∧
        t.swc = s.dev.swc ∧
        s.dev.KeepsRegs [.GLB_FAULT] t) ∧
  (∀ (s : State) (p : Port) (k : Fin 1025) (x : Pkt) (o : Nat),
      s.dev.Rested →
      0 < (s.dev.lnk p.val).need →
      (s.dev.lnk p.val).need ≤ (s.dev.lnk p.val).cells.length →
      (s.dev.lnk p.val).bad = 0 →
      x = parsePkt (s.dev.lnk p.val).cells.flatten →
      x.isDirect = false →
      (s.dev.lnk p.val).hdrRoute = .deliver o →
      128 ≤ o →
      ∃ t, exec (.packetAccepted p k) s = .next { s with dev := t } ∧
        t.cnt 2 (7 * p.val) = s.dev.cnt 2 (7 * p.val) + 1#48 ∧
        t.cnt 2 (7 * p.val + 1) = s.dev.cnt 2 (7 * p.val + 1) + BitVec.ofNat 48 (s.dev.lnk p.val).need ∧
        t.swc.queue.dropLast = s.dev.swc.queue ∧
        (t.swc.queue.getLast?.map (fun q => (q.inp, q.out, q.cls, q.ivc)) = some (p.val, o, schedClass { x with h0 := putBits x.h0 50 5 (x.hops + 1) }, x.vc)) ∧
        (t.lnk p.val).cells = [] ∧ (t.lnk p.val).need = 0) ∧
  (∀ (s : State) (p : Port) (k : Fin 1025) (x : Pkt) (o v : Nat) (nmin : Bool),
      s.dev.Rested →
      0 < (s.dev.lnk p.val).need →
      (s.dev.lnk p.val).need ≤ (s.dev.lnk p.val).cells.length →
      (s.dev.lnk p.val).bad = 0 →
      x = parsePkt (s.dev.lnk p.val).cells.flatten →
      x.isDirect = false →
      (s.dev.lnk p.val).hdrRoute = .out o v nmin →
      s.dev.linkState o ≠ 0 →
      ∃ t, exec (.packetAccepted p k) s = .next { s with dev := t } ∧
        t.cnt 2 (7 * p.val) = s.dev.cnt 2 (7 * p.val) + 1#48 ∧
        t.swc.queue.dropLast = s.dev.swc.queue ∧
        (t.swc.queue.getLast?.map (fun q => (q.pkt, q.inp, q.out)) = some (setHop { x with h0 := putBits x.h0 50 5 (x.hops + 1) } v nmin, p.val, o)) ∧
        (t.lnk p.val).cells = [] ∧ (t.lnk p.val).need = 0) ∧
  (∀ (s : State) (p : Port) (k : Fin 1025) (x : Pkt),
      0 < (s.dev.lnk p.val).need →
      (s.dev.lnk p.val).need ≤ (s.dev.lnk p.val).cells.length →
      (s.dev.lnk p.val).bad = 0 →
      x = parsePkt (s.dev.lnk p.val).cells.flatten →
      x.isDirect = true →
      ∃ t, exec (.packetAccepted p k) s = .next { s with dev := t } ∧
        (t.lnk p.val).inbox = (s.dev.lnk p.val).inbox ++ [x] ∧
        (t.lnk p.val).cells = [] ∧ (t.lnk p.val).need = 0 ∧
        t.swc.queue = s.dev.swc.queue) ∧
  (∀ (s : State) (p : Port) (k : Fin 1025),
      0 < (s.dev.lnk p.val).need →
      (s.dev.lnk p.val).need ≤ (s.dev.lnk p.val).cells.length →
      (s.dev.lnk p.val).bad = 1 →
      ∃ t, exec (.packetAccepted p k) s = .next { s with dev := t } ∧
        t.cnt 2 (7 * p.val + 3) = s.dev.cnt 2 (7 * p.val + 3) + 1#48 ∧
        t.swc.queue = s.dev.swc.queue ∧
        t.flag F.GLB_FAULT_F1 0 = true ∧
        (t.lnk p.val).cells = [] ∧ (t.lnk p.val).need = 0) ∧
  (∀ (s : State) (q : Fin 32) (k : Fin 1025) (x : Pkt) (rest : List (Pkt × Option Nat)) (part o : Nat),
      s.dev.Rested →
      Tbl.getD s.dev.inj (128 + q.val) [] = (x, none) :: rest →
      s.dev.halted = false →
      s.dev.part.hasPort (128 + q.val) = true →
      kindOk x.kind x.tc = true →
      s.dev.partFor (128 + q.val) x = some part →
      x.hops + 1 ≤ s.dev.hopMax →
      s.dev.routeOf x none (128 + q.val) 0 = .deliver o →
      128 ≤ o →
      ∃ t, exec (.internalPacketInject q k) s = .next { s with dev := t } ∧
        Tbl.getD t.inj (128 + q.val) [] = rest ∧
        t.swc.queue.dropLast = s.dev.swc.queue ∧
        (t.swc.queue.getLast?.map (fun y => (y.pkt, y.inp, y.out, y.part)) = some (x, 128 + q.val, o, part)) ∧
        t.cnt 2 (7 * (128 + q.val)) = s.dev.cnt 2 (7 * (128 + q.val)) + 1#48)

/-- Matching dequeues a ready packet, and the statistics are cleared at an edge alone. CELL_TIME_MATCH with one ready packet queued
and no match held moves the packet to the staging of its output, holds input and output for as many cell times as it has cells,
moves both pointers past the pair, and counts the packet (R127 to R130); with nothing queued or held it changes nothing.
SCH_OBS_CLEAR at L0 is staged for its edge, and below L0 it changes nothing (R137, R140). The model's own choices in it:
assumption 50. It says of each of CELL_TIME_MATCH (cellTimeMatch) and SCH_OBS_CLEAR (schObsClear) that exec answers a next
state, under conditions on the state and the operands alone. -/
def Obligations.SwitchMatches : Prop :=
  (∀ (s : State) (k : Fin 1025) (x : QPkt),
      s.dev.Rested →
      s.dev.halted = false →
      s.dev.swc.holds = [] →
      s.dev.swc.queue = [x] →
      x.cls ≤ 4 →
      x.out < 160 →
      s.dev.part.hasPort x.out = true →
      s.dev.ready x = true →
      ∃ t, exec (.cellTimeMatch k) s = .next { s with dev := t } ∧
        t.swc.queue = [] ∧
        t.swc.holds = [{ inp := x.inp, out := x.out, rem := x.pkt.cells }] ∧
        ((Tbl.getD t.swc.stage x.out []).map (fun y => (y.q.inp, y.q.enq, y.arrived)) = (Tbl.getD s.dev.swc.stage x.out []).map (fun y => (y.q.inp, y.q.enq, y.arrived)) ++ [(x.inp, x.enq, 0)]) ∧
        Tbl.getD t.swc.grant x.out 0 = (x.inp + 1) % 160 ∧
        Tbl.getD t.swc.accept x.inp 0 = (x.out + 1) % 160 ∧
        t.cnt 2 (7 * x.out + 5) = s.dev.cnt 2 (7 * x.out + 5) + 1#48 ∧
        t = { s.dev with regs := t.regs, swc := t.swc, cnts := t.cnts, mem := t.mem, wr := t.wr, wipe := t.wipe } ∧
        s.dev.KeepsRegs [.SCH_DEPTH, .SCH_TOKENS] t) ∧
  (∀ (s : State) (k : Fin 1025),
      s.dev.Rested →
      s.dev.swc.holds = [] →
      s.dev.swc.queue = [] →
      ∃ t, exec (.cellTimeMatch k) s = .next { s with dev := t } ∧
        t = s.dev) ∧
  (∀ (s : State) (src : Src) (late : Bool),
      s.dev.Rested →
      ∃ t, exec (.schObsClear src late) s = .next { s with dev := t } ∧
        (s.dev.level src = 0 → ∃ x ∈ t.clk.staged, x.act = .obsClear ∧ x.fn = src.fn) ∧
        (s.dev.level src ≠ 0 → t = s.dev) ∧
        t = { s.dev with regs := t.regs, clk := { s.dev.clk with staged := t.clk.staged, holdAt := t.clk.holdAt } } ∧
        s.dev.KeepsRegs [] t)

/-- Staging, committing, aborting and swapping the route tables. RTE_TBL_COMMIT at L0 with no commit pending makes one pending with
the version and the activation tick of RTE_ACT, or the next tick, LATE, where that is not later than the present one; with one
pending it is refused with STATE_WRITE (R164, R165). RTE_TBL_ABORT cancels a pending commit (R165). RTE_TBL_SWAP at or after the
activation tick makes the staged bank active, shows its version, and starts copying; STAGED_BANK_COPY_DONE makes the staged bank
equal to the active one and ends COPYING (R164). The model's own choices in it: assumption 51. It says of each of RTE_TBL_COMMIT
(rteTblCommit), RTE_TBL_ABORT (rteTblAbort), RTE_TBL_SWAP (rteTblSwap) and STAGED_BANK_COPY_DONE (stagedBankCopyDone) that exec
answers a next state, under conditions on the state and the operands alone. -/
def Obligations.RouteTables : Prop :=
  (∀ (s : State) (src : Src) (v : BitVec 16),
      s.dev.Rested →
      s.dev.level src = 0 →
      s.dev.flag F.RTE_TBL_STATUS_PENDING 0 = false →
      ∃ t, exec (.rteTblCommit src v) s = .next { s with dev := t } ∧
        t.flag F.RTE_TBL_STATUS_PENDING 0 = true ∧
        (t.rte.commit = some (if (s.dev.rd .RTE_ACT_HI 0 ++ s.dev.rd .RTE_ACT_LO 0).toNat ≤ s.dev.clk.tick.toNat then s.dev.clk.tick + 1#64 else s.dev.rd .RTE_ACT_HI 0 ++ s.dev.rd .RTE_ACT_LO 0, v.toNat)) ∧
        ((s.dev.rd .RTE_ACT_HI 0 ++ s.dev.rd .RTE_ACT_LO 0).toNat ≤ s.dev.clk.tick.toNat → t.flag F.RTE_TBL_STATUS_LATE 0 = true) ∧
        t.fld F.RTE_TBL_CTRL_VERSION 0 = v.toNat ∧
        t = { s.dev with regs := t.regs, evr := t.evr, shadow := t.shadow, free := t.free, rte := { s.dev.rte with commit := t.rte.commit } } ∧
        s.dev.KeepsRegs [.RTE_TBL_CTRL, .RTE_TBL_STATUS] t) ∧
  (∀ (s : State) (src : Src) (v : BitVec 16),
      s.dev.Rested →
      s.dev.level src = 0 →
      s.dev.flag F.RTE_TBL_STATUS_PENDING 0 = true →
      ∃ t, exec (.rteTblCommit src v) s = .next { s with dev := t } ∧
        t.flag F.GLB_ERR_STATE_WRITE src.fn = true ∧
        t = { s.dev with regs := t.regs } ∧
        s.dev.KeepsRegs [.RTE_TBL_CTRL, .GLB_ERR, .GLB_ERR_ADDR] t) ∧
  (∀ (s : State) (src : Src),
      s.dev.Rested →
      s.dev.level src = 0 →
      (s.dev.rd .RTE_TBL_CTRL 0).getLsbD 31 = false →
      s.dev.flag F.RTE_TBL_STATUS_PENDING 0 = true →
      ∃ t, exec (.rteTblAbort src) s = .next { s with dev := t } ∧
        t.flag F.RTE_TBL_STATUS_PENDING 0 = false ∧
        t.rte.commit = none ∧
        t = { s.dev with regs := t.regs, rte := { s.dev.rte with commit := none } } ∧
        s.dev.KeepsRegs [.RTE_TBL_CTRL, .RTE_TBL_STATUS] t) ∧
  (∀ (s : State) (n : Tick) (v : Nat),
      s.dev.Rested →
      s.dev.rte.commit = some (n, v) →
      n.toNat ≤ s.dev.clk.tick.toNat →
      ∃ t, exec .rteTblSwap s = .next { s with dev := t } ∧
        t.rte.active = s.dev.rte.staged ∧
        t.rte.before = s.dev.rte.active ∧
        t.rte.commit = none ∧
        t.fld F.RTE_TBL_STATUS_ACTIVE_VER 0 = v % 65536 ∧
        t.flag F.RTE_TBL_STATUS_PENDING 0 = false ∧
        t.flag F.RTE_TBL_STATUS_COPYING 0 = true ∧
        t.flag F.RTE_TBL_STATUS_EMPTY 0 = false ∧
        t = { s.dev with regs := t.regs, evr := t.evr, shadow := t.shadow, free := t.free, rte := t.rte } ∧
        s.dev.KeepsRegs [.RTE_TBL_STATUS] t) ∧
  (∀ (s : State),
      s.dev.Rested →
      s.dev.flag F.RTE_TBL_STATUS_COPYING 0 = true →
      ∃ t, exec .stagedBankCopyDone s = .next { s with dev := t } ∧
        t.rte.staged = s.dev.rte.active ∧
        t.flag F.RTE_TBL_STATUS_COPYING 0 = false ∧
        t = { s.dev with regs := t.regs, rte := { s.dev.rte with staged := s.dev.rte.active, before := [] } } ∧
        s.dev.KeepsRegs [.RTE_TBL_STATUS] t)

/-- Ports return to the live mask, digests are kept, and managers act by term. RTE_PORT_IN puts a removed port that may be live and
has been held down long enough back into the live mask (R150). DIGEST_RECEIVED keeps a consumed digest with its build tick for
the next edge (R154). MANAGER_MESSAGE with an unharmed heartbeat of a higher term stores the term and its sender, and makes a
manager of the same level standby (R161, R162). HEARTBEAT_SEND of an active manager queues one heartbeat for each device named
(R162). RTE_TAKEOVER by a standby that has missed 20 heartbeats raises the term by one, makes it active, keeps both in the role
record (Table 18-8), and declares F3 (R162, Table 16-1). ROUTED that has hops left goes out of the port that its path names with
its position advanced and its arrival port recorded (R439). The model's own choices in it: assumptions 52, 53, 55, 56, 149. It
says of each of RTE_PORT_IN (rtePortIn), DIGEST_RECEIVED (digestReceived), MANAGER_MESSAGE (managerMessage), HEARTBEAT_SEND
(heartbeatSend), RTE_TAKEOVER (rteTakeover) and ROUTED (routed) that exec answers a next state, under conditions on the state
and the operands alone. -/
def Obligations.RoutePortsAndManagers : Prop :=
  (∀ (s : State) (p : Port),
      s.dev.Rested →
      s.dev.rte.removed.contains p.val = true →
      s.dev.mayLive p.val = true →
      s.dev.heldDown p.val = true →
      ∃ t, exec (.rtePortIn p) s = .next { s with dev := t } ∧
        t.isLive p.val = true ∧
        p.val ∉ t.rte.removed ∧
        t = { s.dev with regs := t.regs, evr := t.evr, shadow := t.shadow, free := t.free, rte := { s.dev.rte with removed := t.rte.removed } } ∧
        s.dev.KeepsRegs [.RTE_LIVE] t) ∧
  (∀ (s : State) (p : Port) (x : Pkt),
      s.dev.Rested →
      (s.dev.lnk p.val).inbox = [x] →
      x.subkind = 1 →
      Tbl.get s.dev.rte.kept p.val = none →
      ∃ t, exec (.digestReceived p) s = .next { s with dev := t } ∧
        Tbl.get t.rte.kept p.val = some (x.h2, bits x.h3 0 32) ∧
        (t.lnk p.val).inbox = [] ∧
        t.cnt 3 5 = s.dev.cnt 3 5 + 1#48 ∧
        t = { s.dev with link := t.link, cnts := t.cnts, rte := { s.dev.rte with kept := t.rte.kept } }) ∧
  (∀ (s : State) (q : Fin 32) (x : StPkt),
      s.dev.halted = false →
      s.dev.ccRuns = true →
      Tbl.getD s.dev.swc.stage (128 + q.val) [] = [x] →
      x.q.pkt.cells ≤ x.arrived →
      x.q.pkt.kind = 0x11 →
      x.q.pkt.isDirect = false →
      x.q.pkt.subkind = 4 →
      x.q.pkt.e2e = x.q.pkt.e2eOf →
      s.dev.fld F.RTE_TERM_TERM 0 < x.q.pkt.ta 32 32 →
      ∃ t, exec (.managerMessage q) s = .next { s with dev := t } ∧
        t.fld F.RTE_TERM_TERM 0 = x.q.pkt.ta 32 32 ∧
        t.fld F.RTE_ROLE_MANAGER 0 = devOf x.q.pkt.src ∧
        t.rte.accepted = true ∧ t.rte.hbSeen = s.dev.clk.edges ∧
        (s.dev.ownLevel = x.q.pkt.ta 0 2 → t.flag F.RTE_ROLE_ACTIVE 0 = false) ∧
        Tbl.getD t.swc.stage (128 + q.val) [] = []) ∧
  (∀ (s : State) (ds : List (BitVec 17)),
      s.dev.Rested →
      s.dev.flag F.RTE_ROLE_ACTIVE 0 = true →
      (s.dev.rte.hbSent = 0 ∨ s.dev.rte.hbSent + 15625 ≤ s.dev.clk.edges) →
      ∃ t, exec (.heartbeatSend ds) s = .next { s with dev := t } ∧
        t.rte.hbSent = s.dev.clk.edges ∧
        (Tbl.getD t.inj 156 []).length = (Tbl.getD s.dev.inj 156 []).length + ds.length ∧
        t = { s.dev with inj := t.inj, rte := { s.dev.rte with hbSent := t.rte.hbSent } }) ∧
  (∀ (s : State),
      s.dev.Rested →
      s.dev.ccRuns = true →
      s.dev.fld F.RTE_ROLE_ROLE 0 ≠ 0 →
      s.dev.flag F.RTE_ROLE_ACTIVE 0 = false →
      s.dev.rte.hbSeen + 312500 ≤ s.dev.clk.edges →
      ∃ t, exec .rteTakeover s = .next { s with dev := t } ∧
        t.fld F.RTE_TERM_TERM 0 = (s.dev.fld F.RTE_TERM_TERM 0 + 1) % 2 ^ 32 ∧
        t.flag F.RTE_ROLE_ACTIVE 0 = true ∧
        (s.dev.flag F.RTE_ID_VALID 0 = true → t.fld F.RTE_ROLE_MANAGER 0 = s.dev.fld F.RTE_ID_DEVICE 0) ∧
        (s.dev.flag F.RTE_ID_VALID 0 = true → s.dev.nvs.roleWear < 100000 → Tbl.get t.nvs.role s.dev.ownLevel = some ((s.dev.fld F.RTE_TERM_TERM 0 + 1) % 2 ^ 32, s.dev.fld F.RTE_ID_DEVICE 0)) ∧
        t = { s.dev with regs := t.regs, evr := t.evr, shadow := t.shadow, free := t.free, rte := t.rte, nvs := t.nvs } ∧
        t.flag F.GLB_FAULT_F3 0 = true ∧
        s.dev.KeepsRegs [.RTE_TERM, .RTE_ROLE, .GLB_FAULT, .GLB_FAULT_TICK_LO, .GLB_FAULT_TICK_HI] t) ∧
  (∀ (s : State) (p : Port) (x : Pkt) (n k hops : Nat),
      s.dev.ccRuns = true →
      (s.dev.lnk p.val).inbox = [x] →
      x.subkind = 5 →
      x.data.length = 108 →
      hops = field x.data 0 1 0 8 →
      k = field x.data 1 1 0 8 →
      0 < k →
      k < hops →
      hops ≤ 16 →
      n = field ((x.data.set (24 + k) (BitVec.ofNat 8 p.val))) (8 + k) 1 0 8 →
      n < 128 →
      s.dev.linkState n = 2 →
      (s.dev.lnk n).direct = [] →
      1 ≤ s.dev.avail n 9 →
      ∃ t, exec (.routed (.arrive p)) s = .next { s with dev := t } ∧
        (t.lnk n).direct.map (·.data) = [(x.data.set (24 + k) (BitVec.ofNat 8 p.val)).set 1 (BitVec.ofNat 8 (k + 1))] ∧
        (t.lnk p.val).inbox = [] ∧
        t.mbx = s.dev.mbx) ∧
  (∀ (s : State) (k : Fin 32) (p : Port) (ps : List Port) (n : BitVec 16) (ws : List Word),
      s.dev.ccRuns = true →
      s.dev.peerWaits (2 ^ 17 + k.val) = false →
      ps.length < 16 →
      s.dev.linkState p.val = 2 →
      (s.dev.lnk p.val).direct = [] →
      1 ≤ s.dev.avail p.val 9 →
      ∃ t, exec (.routed (.issue k (p :: ps) n ws)) s = .next { s with dev := t } ∧
        (t.lnk p.val).direct.length = 1 ∧
        (Tbl.get t.mbx.peerOut (2 ^ 17 + k.val)).map (fun r => (r.seq, r.sends, r.at_, r.answer)) = some (n.toNat, 1, s.dev.clk.edges, none) ∧
        t.regs = s.dev.regs)

/-- Opening a connection. An OPEN that a listen entry with a free NOTIFY matches is accepted into a new READY context with the
peer's endpoint, number and incarnation and the listener's queues (R437, R536); one that nobody listens for is answered OPEN_NAK
and takes no context. OPEN_ACK with the incarnation of an OPENING context makes it READY, stores the peer's number and
incarnation and ends the waiting command with them (R536). OPEN_NAK makes it FREE and ends the command with the refusal's code.
OPEN_RESEND sends the OPEN again 1,562 ticks after the last, at most 8 times (Table 06-2). The model's own choices in it:
assumption 57. It says of each of OPEN (openReq), OPEN_ACK (openAck), OPEN_NAK (openNak) and OPEN_RESEND (openResend) that exec
answers a next state, under conditions on the state and the operands alone. -/
def Obligations.ConnectionsOpen : Prop :=
  (∀ (s : State) (q : Fin 32) (x : StPkt) (l : Listen) (idx n : Nat),
      s.dev.Front q x →
      s.dev.ccRuns = true →
      x.q.pkt.kind = 3 →
      ctrlSub x.q.pkt = 0x10 →
      x.q.pkt.e2e = x.q.pkt.e2eOf →
      s.dev.trn.conns = [] →
      (∀ t ∈ List.range 64, s.dev.tunState t = 0) →
      field x.q.pkt.data 5 1 0 5 ≠ 24 →
      s.dev.listenFor (field x.q.pkt.data 5 1 0 5) (BitVec.ofNat 64 (field x.q.pkt.data 8 8 0 64)) = some l →
      s.dev.freeNotify l.rq = some idx →
      s.dev.fld F.WQ_Q_CFG_PD l.sq = s.dev.fld F.WQ_Q_CFG_PD l.rq →
      s.dev.allocConn.map (·.1) = some n →
      ∃ t, exec (.openReq q) s = .next { s with dev := t } ∧
        (t.conn n).state = 2 ∧
        (t.conn n).peerEp = x.q.pkt.src ∧
        (t.conn n).localEp = field x.q.pkt.data 5 1 0 5 ∧
        (t.conn n).peerConn = field x.q.pkt.data 0 3 0 24 ∧
        (t.conn n).peerInc = field x.q.pkt.data 3 1 0 8 ∧
        (t.conn n).sq = l.sq ∧ (t.conn n).rq = l.rq ∧
        (t.conn n).pd = s.dev.fld F.WQ_Q_CFG_PD l.sq) ∧
  (∀ (s : State) (q : Fin 32) (x : StPkt) (o : Nat),
      s.dev.Rested →
      s.dev.Front q x →
      s.dev.ccRuns = true →
      x.q.pkt.kind = 3 →
      ctrlSub x.q.pkt = 0x10 →
      x.q.pkt.e2e = x.q.pkt.e2eOf →
      s.dev.trn.conns = [] →
      (∀ t ∈ List.range 64, s.dev.tunState t = 0) →
      field x.q.pkt.data 5 1 0 5 ≠ 24 →
      s.dev.listenFor (field x.q.pkt.data 5 1 0 5) (BitVec.ofNat 64 (field x.q.pkt.data 8 8 0 64)) = none →
      s.dev.epPort 31 = some o →
      ∃ t, exec (.openReq q) s = .next { s with dev := t } ∧
        (Tbl.getD t.inj o []).dropLast = Tbl.getD s.dev.inj o [] ∧
        ((Tbl.getD t.inj o []).getLast?.map (fun y => (y.1.kind, ctrlSub y.1, ctrlArg y.1, y.1.dst))) = some (3, 0x12, 5, x.q.pkt.src) ∧
        t = { s.dev with swc := { s.dev.swc with stage := t.swc.stage }, inj := t.inj }) ∧
  (∀ (s : State) (q : Fin 32) (x : StPkt),
      s.dev.Front q x →
      x.q.pkt.kind = 3 →
      ctrlSub x.q.pkt = 0x11 →
      x.q.pkt.e2e = x.q.pkt.e2eOf →
      s.dev.usable x.q.pkt.conn = true ∧ s.dev.isResident x.q.pkt.conn = true →
      (s.dev.conn x.q.pkt.conn).opening = true →
      ctrlInc x.q.pkt = (s.dev.conn x.q.pkt.conn).inc →
      (s.dev.conn x.q.pkt.conn).localEp ≠ 24 →
      s.dev.tunOf x.q.pkt.conn = none →
      ∃ t, exec (.openAck q) s = .next { s with dev := t } ∧
        (t.conn x.q.pkt.conn).state = 2 ∧
        (t.conn x.q.pkt.conn).peerConn = field x.q.pkt.data 0 3 0 24 ∧
        (t.conn x.q.pkt.conn).peerInc = field x.q.pkt.data 3 1 0 8 ∧
        (t.conn x.q.pkt.conn).chan = none ∧
        (∀ c ∈ (s.dev.conn x.q.pkt.conn).chan, Tbl.get t.mbx.outcome c = some (0, (t.conn x.q.pkt.conn).openWords x.q.pkt.conn)) ∧
        s.dev.KeepsRegs [] t) ∧
  (∀ (s : State) (q : Fin 32) (x : StPkt),
      s.dev.Front q x →
      x.q.pkt.kind = 3 →
      ctrlSub x.q.pkt = 0x12 →
      x.q.pkt.e2e = x.q.pkt.e2eOf →
      s.dev.usable x.q.pkt.conn = true ∧ s.dev.isResident x.q.pkt.conn = true →
      (s.dev.conn x.q.pkt.conn).opening = true →
      ctrlInc x.q.pkt = (s.dev.conn x.q.pkt.conn).inc →
      (s.dev.conn x.q.pkt.conn).localEp ≠ 24 →
      s.dev.tunOf x.q.pkt.conn = none →
      ∃ t, exec (.openNak q) s = .next { s with dev := t } ∧
        (t.conn x.q.pkt.conn).free = true ∧
        (∀ c ∈ (s.dev.conn x.q.pkt.conn).chan, Tbl.get t.mbx.outcome c = some (ctrlArg x.q.pkt % 256, []))) ∧
  (∀ (s : State) (n : BitVec 24) (o : Nat),
      s.dev.Rested →
      (s.dev.conn n.toNat).opening = true →
      (s.dev.conn n.toNat).triedAt + 1562 ≤ s.dev.clk.edges →
      (s.dev.conn n.toNat).tries < 8 →
      s.dev.epPort (s.dev.conn n.toNat).localEp = some o →
      ∃ t, exec (.openResend n) s = .next { s with dev := t } ∧
        (t.conn n.toNat).tries = (s.dev.conn n.toNat).tries + 1 ∧
        (t.conn n.toNat).triedAt = s.dev.clk.edges ∧
        (t.conn n.toNat).state = 1 ∧
        (Tbl.getD t.inj o []).length = (Tbl.getD s.dev.inj o []).length + 1 ∧
        t = { s.dev with inj := t.inj, trn := { s.dev.trn with conns := t.trn.conns } })

/-- Closing a connection. CLOSE from the peer of a READY, DRAINING or CLOSING context, with its endpoint and incarnation, is
answered with CLOSE_ACK, and the context is FREE; CLOSE_ACK with the incarnation of a CLOSING context makes it FREE, and with
nothing in flight its incarnation rises by one and its number is the last of those freed (R173, R174, Table 06-2). CLOSE_RESEND
sends the CLOSE again 1,562 ticks after the last, at most 8 times, and then the context is FREE. The model's own choices in it:
assumption 58. It says of each of CLOSE (closeReq), CLOSE_ACK (closeAck) and CLOSE_RESEND (closeResend) that exec answers a next
state, under conditions on the state and the operands alone. -/
def Obligations.ConnectionsClose : Prop :=
  (∀ (s : State) (q : Fin 32) (x : StPkt),
      s.dev.Front q x →
      x.q.pkt.kind = 3 →
      ctrlSub x.q.pkt = 0x13 →
      x.q.pkt.e2e = x.q.pkt.e2eOf →
      s.dev.usable x.q.pkt.conn = true ∧ s.dev.isResident x.q.pkt.conn = true →
      ((s.dev.conn x.q.pkt.conn).state = 2 ∨ (s.dev.conn x.q.pkt.conn).state = 3 ∨ (s.dev.conn x.q.pkt.conn).state = 4) →
      ctrlInc x.q.pkt = (s.dev.conn x.q.pkt.conn).inc →
      x.q.pkt.src = (s.dev.conn x.q.pkt.conn).peerEp →
      (s.dev.conn x.q.pkt.conn).localEp ≠ 24 →
      ∃ t, exec (.closeReq q) s = .next { s with dev := t } ∧
        (t.conn x.q.pkt.conn).free = true) ∧
  (∀ (s : State) (q : Fin 32) (x : StPkt),
      s.dev.Front q x →
      x.q.pkt.kind = 3 →
      ctrlSub x.q.pkt = 0x14 →
      x.q.pkt.e2e = x.q.pkt.e2eOf →
      s.dev.usable x.q.pkt.conn = true ∧ s.dev.isResident x.q.pkt.conn = true →
      (s.dev.conn x.q.pkt.conn).closing = true →
      ctrlInc x.q.pkt = (s.dev.conn x.q.pkt.conn).inc →
      (s.dev.conn x.q.pkt.conn).localEp ≠ 24 →
      (s.dev.conn x.q.pkt.conn).ops = [] ∧ (s.dev.conn x.q.pkt.conn).rcvd = [] →
      s.dev.wq = [] ∧ s.dev.mte.resv = [] ∧ s.dev.mte.msgs = [] ∧ s.dev.mte.rdv = [] →
      ∃ t, exec (.closeAck q) s = .next { s with dev := t } ∧
        (t.conn x.q.pkt.conn).free = true ∧
        (t.conn x.q.pkt.conn).inc = ((s.dev.conn x.q.pkt.conn).inc + 1) % 256 ∧
        t.trn.freed = s.dev.trn.freed.filter (· != x.q.pkt.conn) ++ [x.q.pkt.conn]) ∧
  (∀ (s : State) (n : BitVec 24),
      s.dev.Rested →
      (s.dev.conn n.toNat).closing = true →
      (s.dev.conn n.toNat).triedAt + 1562 ≤ s.dev.clk.edges →
      (s.dev.conn n.toNat).localEp ≠ 24 →
      ∃ t, exec (.closeResend n) s = .next { s with dev := t } ∧
        ((s.dev.conn n.toNat).tries < 8 → (t.conn n.toNat).state = 4 ∧ (t.conn n.toNat).tries = (s.dev.conn n.toNat).tries + 1 ∧ (t.conn n.toNat).triedAt = s.dev.clk.edges) ∧
        (8 ≤ (s.dev.conn n.toNat).tries → (t.conn n.toNat).free = true))

/-- A request in sequence is committed, and a PUT stores its data. SCT_DATA_RECEIVED of an expected request without data that passes
the checks commits it: EPSN advances by one and the packet is counted (R179 to R181). A PUT whose region lies under one cached
leaf of host memory stores exactly its data at the address the leaf gives, and no other byte changes (R181, R254, R325). A
request whose end-to-end check fails is counted and changes nothing else of its connection (R180). EVICT_COMMIT_REPORTED frees
the slot of the evicted context (R199). XLT_PROT_EXPIRED takes a packet that has waited 262,144 ticks out of the reorder store
and its map (R261). The model's own choices in it: assumptions 60, 62, 130, 133. It says of each of SCT_DATA_RECEIVED
(sctDataReceived), EVICT_COMMIT_REPORTED (evictCommitReported) and XLT_PROT_EXPIRED (xltProtExpired) that exec answers a next
state, under conditions on the state and the operands alone. -/
def Obligations.RequestsReceived : Prop :=
  (∀ (s : State) (q : Fin 32) (fd : List (BitVec 64)) (no : Bool) (x : StPkt) (r : Region),
      s.dev.Front q x →
      x.q.pkt.kind = 1 →
      x.q.pkt.isResp = false →
      s.dev.Takes x →
      x.q.pkt.len = 0 →
      (s.dev.remoteCheck x.q.pkt.conn x.q.tick (s.dev.conn x.q.pkt.conn).pd x.q.pkt).toOption = some r →
      ∃ t, exec (.sctDataReceived q ⟨fd, no⟩) s = .next { s with dev := t } ∧
        (t.conn x.q.pkt.conn).epsn = ((s.dev.conn x.q.pkt.conn).epsn + 1) % 2 ^ 24 ∧
        (t.conn x.q.pkt.conn).rcvMap = 0#256 ∧
        t.cnt 4 1 = s.dev.cnt 4 1 + 1#48 ∧
        t.cnt 9 0 = s.dev.cnt 9 0 + 1#48) ∧
  (∀ (s : State) (q : Fin 32) (fd : List (BitVec 64)) (x : StPkt) (r : Region) (e : XEnt) (h va a : Nat),
      s.dev.Rested →
      s.dev.Front q x →
      x.q.pkt.kind = 1 →
      x.q.pkt.isResp = false →
      s.dev.Takes x →
      0 < x.q.pkt.len →
      x.q.pkt.data.length = x.q.pkt.len →
      (s.dev.remoteCheck x.q.pkt.conn x.q.tick (s.dev.conn x.q.pkt.conn).pd x.q.pkt).toOption = some r →
      s.dev.Leaf e r.xctx va h a x.q.pkt.len 2 →
      va = r.base + sctOff x.q.pkt →
      ∃ t, exec (.sctDataReceived q ⟨fd, false⟩) s = .next { s with dev := t } ∧
        (∀ i ∈ List.range x.q.pkt.len, Mem.read t.mem (h * 2 ^ 60 + a + i) = some (x.q.pkt.data.getD i 0#8)) ∧
        (t.conn x.q.pkt.conn).epsn = ((s.dev.conn x.q.pkt.conn).epsn + 1) % 2 ^ 24 ∧
        (∀ b, b < h * 2 ^ 60 + a ∨ h * 2 ^ 60 + a + x.q.pkt.len ≤ b → Mem.read t.mem b = Mem.read s.dev.mem b)) ∧
  (∀ (s : State) (q : Fin 32) (fd : List (BitVec 64)) (no : Bool) (x : StPkt),
      s.dev.Rested →
      s.dev.Front q x →
      x.q.pkt.kind = 1 →
      x.q.pkt.isResp = false →
      (s.dev.usable x.q.pkt.conn = true → s.dev.isResident x.q.pkt.conn = true) →
      x.q.pkt.e2e ≠ x.q.pkt.e2eOf →
      ∃ t, exec (.sctDataReceived q ⟨fd, no⟩) s = .next { s with dev := t } ∧
        t.cnt 4 8 = s.dev.cnt 4 8 + 1#48 ∧
        t.trn.conns = s.dev.trn.conns ∧
        t.mem = s.dev.mem ∧
        t.regs = s.dev.regs) ∧
  (∀ (s : State) (n : BitVec 24),
      s.dev.Rested →
      s.dev.trn.evict.contains n.toNat = true →
      s.dev.arbWaits 5 n.toNat = false →
      s.dev.trn.need = [] ∧ s.dev.trn.miss = [] →
      ∃ t, exec (.evictCommitReported n) s = .next { s with dev := t } ∧
        (t.conn n.toNat).resident = false ∧
        t.trn.evict = s.dev.trn.evict.erase n.toNat ∧
        t.cnt 4 12 = s.dev.cnt 4 12 + 1#48 ∧
        t = { s.dev with regs := t.regs, cnts := t.cnts, trn := { s.dev.trn with conns := t.trn.conns, evict := t.trn.evict } } ∧
        s.dev.KeepsRegs [.TRN_CACHE] t) ∧
  (∀ (s : State) (n psn : BitVec 24) (r : Rcvd),
      Tbl.get (s.dev.conn n.toNat).rcvd psn.toNat = some r →
      r.kept = true →
      r.at_ + 262144 ≤ s.dev.clk.edges →
      ∃ t, exec (.xltProtExpired n psn) s = .next { s with dev := t } ∧
        Tbl.get (t.conn n.toNat).rcvd psn.toNat = none ∧
        (t.conn n.toNat).epsn = (s.dev.conn n.toNat).epsn ∧
        (t.conn n.toNat).rcvMap = (s.dev.conn n.toNat).rcvMap &&& ~~~(1#256 <<< ((psn.toNat + 2 ^ 24 - (s.dev.conn n.toNat).epsn) % 2 ^ 24)) ∧
        t.cnt 9 7 = s.dev.cnt 9 7 + 1#48)

/-- Sending packets, acknowledgements and responses. SCT_PACKET_SEND of a connection that may send sends its first unsent packet
under the next PSN and counts it (R187). SCT_ACK_RECEIVED within the window moves SND_UNA to the acknowledged PSN, takes over
the selective map and clears the retry count (R188). ACK_DELAY_EXPIRED sends the pending acknowledgement (R186). GET_READ_DONE
of the last read of a GET queues its response, poisoned where memory refused, on the connection, and ends it (R203, R255).
RESPONSE_RECEIVED with the result of an atomic hands it to the entry that waits for it (R188, R244). The model's own choices in
it: assumptions 59, 61, 64, 127, 146. It says of each of SCT_PACKET_SEND (sctPacketSend), SCT_ACK_RECEIVED (sctAckReceived),
ACK_DELAY_EXPIRED (ackDelayExpired), GET_READ_DONE (getReadDone) and RESPONSE_RECEIVED (responseReceived) that exec answers a
next state, under conditions on the state and the operands alone. -/
def Obligations.SendingAndAcks : Prop :=
  (∀ (s : State) (n : BitVec 24) (k : Fin 1025) (o : Op) (bs : List Byte) (bad : Bool) (q : Nat),
      ((s.dev.conn n.toNat).state = 2 ∨ (s.dev.conn n.toNat).state = 3) →
      (s.dev.conn n.toNat).busy = none →
      (s.dev.conn n.toNat).resps = [] →
      (s.dev.conn n.toNat).resend = [] →
      (s.dev.conn n.toNat).nextNew = some o →
      o.dataOf o.nsent = some (bs, bad) →
      s.dev.paced (s.dev.conn n.toNat) (s.dev.cycles k.val) (o.pktSize o.nsent bs) = true →
      ((match o.own with | .entry _ _ => true | _ => false) = false) →
      s.dev.epPort (s.dev.conn n.toNat).localEp = some q →
      ∃ t, exec (.sctPacketSend n k) s = .next { s with dev := t } ∧
        (t.conn n.toNat).sndNxt = (s.dev.conn n.toNat).sndNxt + 1 ∧
        Tbl.get (t.conn n.toNat).sent (s.dev.conn n.toNat).sndNxt = some (s.dev.cycles k.val) ∧
        t.cnt 4 0 = s.dev.cnt 4 0 + 1#48 ∧
        (Tbl.getD t.inj q []).dropLast = Tbl.getD s.dev.inj q [] ∧
        (Tbl.getD t.inj q []).getLast?.map (fun y => (y.1.kind, y.1.psn)) = some (1, (s.dev.conn n.toNat).sndNxt % 2 ^ 24)) ∧
  (∀ (s : State) (q : Fin 32) (x : StPkt) (una : Nat),
      s.dev.Front q x →
      x.q.pkt.kind = 2 →
      x.q.pkt.e2e = x.q.pkt.e2eOf →
      s.dev.isResident x.q.pkt.conn = true →
      (s.dev.conn x.q.pkt.conn).ready = true →
      (s.dev.conn x.q.pkt.conn).ops = [] →
      x.q.pkt.ta 16 8 = (s.dev.conn x.q.pkt.conn).inc →
      (s.dev.conn x.q.pkt.conn).absPsn x.q.pkt.psn = some una →
      x.q.pkt.h2.getLsbD 31 = false →
      ∃ t, exec (.sctAckReceived q) s = .next { s with dev := t } ∧
        (t.conn x.q.pkt.conn).sndUna = una ∧
        (t.conn x.q.pkt.conn).sackMap = BitVec.ofNat 256 (if x.q.pkt.len = 32 then field x.q.pkt.data 0 32 0 256 else 0) ∧
        (t.conn x.q.pkt.conn).retry = 0 ∧
        (t.conn x.q.pkt.conn).sndNxt = (s.dev.conn x.q.pkt.conn).sndNxt ∧
        (t.conn x.q.pkt.conn).state = 2 ∧
        s.dev.KeepsRegs [] t) ∧
  (∀ (s : State) (n : BitVec 24) (ns q : Nat),
      s.dev.Rested →
      (s.dev.conn n.toNat).acc ≠ 0 →
      s.dev.fld F.TRN_CFG_ACK_DELAY 0 ≤ ns →
      s.dev.epPort (s.dev.conn n.toNat).localEp = some q →
      ∃ t, exec (.ackDelayExpired n ns) s = .next { s with dev := t } ∧
        (t.conn n.toNat).acc = 0 ∧
        (t.conn n.toNat).ece = false ∧ (t.conn n.toNat).marked = 0 ∧
        (Tbl.getD t.inj q []).dropLast = Tbl.getD s.dev.inj q [] ∧
        (Tbl.getD t.inj q []).getLast?.map (fun y => (y.1.kind, y.1.psn)) = some (2, ((s.dev.conn n.toNat).epsn + 2 ^ 24 - 1) % 2 ^ 24) ∧
        t = { s.dev with inj := t.inj, trn := { s.dev.trn with conns := t.trn.conns } }) ∧
  (∀ (s : State) (n psn : BitVec 24) (bs : List Byte) (res : MemRes) (g : GetJob),
      s.dev.Rested →
      s.dev.halted = false →
      s.dev.trn.gets = [g] →
      g.conn = n.toNat →
      g.psn = psn.toNat →
      g.next + 1 = chunks g.len →
      g.segs.any s.dev.segHeld = false →
      ∃ t, exec (.getReadDone n psn bs res) s = .next { s with dev := t } ∧
        t.trn.gets = [] ∧
        (t.conn n.toNat).resps.dropLast = (s.dev.conn n.toNat).resps ∧
        (t.conn n.toNat).resps.getLast?.map (fun y => (y.op, y.psn, y.off, y.data.length, y.poison)) = some (4, psn.toNat, 2048 * g.next, (sliceSegs g.segs (2048 * g.next) (min 2048 (g.len - 2048 * g.next))).foldl (fun k z => k + z.len) 0, res != .ok) ∧
        t = { s.dev with free := t.free, trn := { s.dev.trn with gets := [], conns := t.trn.conns } }) ∧
  (∀ (s : State) (q : Fin 32) (x : StPkt) (o : Op) (w i : Nat) (e : Entry),
      s.dev.Front q x →
      x.q.pkt.isResp = true →
      sctOp x.q.pkt = 6 →
      s.dev.usable x.q.pkt.conn = true ∧ s.dev.isResident x.q.pkt.conn = true →
      x.q.pkt.poison = false →
      x.q.pkt.e2e = x.q.pkt.e2eOf →
      (s.dev.conn x.q.pkt.conn).ready = true →
      x.q.pkt.src = (s.dev.conn x.q.pkt.conn).peerEp →
      sctInc x.q.pkt = (s.dev.conn x.q.pkt.conn).inc →
      (s.dev.conn x.q.pkt.conn).ops = [o] →
      o.kind = 4 ∧ o.nsent = 1 ∧ o.first % 2 ^ 24 = x.q.pkt.psn ∧ o.synd = none ∧ o.fault = 0 ∧ o.got = [] ∧ o.placing = [] →
      o.own = .entry w i →
      (s.dev.queue w).at_ i = some e →
      e.done = none ∧ e.rdv = none →
      s.dev.qState w = 2 →
      ∃ t, exec (.responseReceived q) s = .next { s with dev := t } ∧
        (((t.queue w).at_ i).bind (·.done)).map (fun c => (c.status, c.len, c.val)) = some (0, 8, BitVec.ofNat 64 (field x.q.pkt.data 0 8 0 64)) ∧
        (t.conn x.q.pkt.conn).ops = [] ∧
        i ∈ (t.queue w).kept)

/-- Retries, receiver back-off, link notices and fetched contexts. RTO_EXPIRED below RETRY_MAX counts one retry, declares F1 and
marks everything lost to be sent again, with the timer started anew (R189, R190). RECEIVER_BUSY for a packet in flight suspends
the connection for the ticks it names from the refused PSN (R191); BUSY_BACKOFF_END marks what is lost from that PSN on to be
sent again, beside what was marked already, and counts no retry. LINK_NOTICE_RECEIVED for a connection of neither the bridge nor
the control complex sets a resend for the second edge, and NOTICE_RESEND then marks the unacknowledged packets to be sent again
and counts no retry (R192). CONTEXT_FETCH_DONE with a valid record makes the context resident with the record's state (R195,
R198). The model's own choices in it: assumptions 63, 128, 131. It says of each of RTO_EXPIRED (rtoExpired), RECEIVER_BUSY
(receiverBusy), BUSY_BACKOFF_END (busyBackoffEnd), LINK_NOTICE_RECEIVED (linkNoticeReceived), NOTICE_RESEND (noticeResend) and
CONTEXT_FETCH_DONE (contextFetchDone) that exec answers a next state, under conditions on the state and the operands alone. -/
def Obligations.RetriesAndNotices : Prop :=
  (∀ (s : State) (n : BitVec 24) (k : Fin 1025) (b : Nat),
      (s.dev.conn n.toNat).timerBase = some b →
      ((s.dev.conn n.toNat).state = 2 ∨ (s.dev.conn n.toNat).state = 3) →
      (s.dev.conn n.toNat).busy = none →
      b + (s.dev.conn n.toNat).rtoCycles ≤ s.dev.cycles k.val →
      (s.dev.conn n.toNat).retry < (s.dev.conn n.toNat).retryMax →
      ∃ t, exec (.rtoExpired n k) s = .next { s with dev := t } ∧
        (t.conn n.toNat).retry = (s.dev.conn n.toNat).retry + 1 ∧
        (t.conn n.toNat).resend = (s.dev.conn n.toNat).lost ∧
        (t.conn n.toNat).timer = s.dev.cycles k.val ∧
        (t.conn n.toNat).state = (s.dev.conn n.toNat).state ∧
        t.flag F.GLB_FAULT_F1 0 = true ∧
        t.cnt 4 3 = s.dev.cnt 4 3 + 1#48) ∧
  (∀ (s : State) (q : Fin 32) (x : StPkt),
      s.dev.Front q x →
      x.q.pkt.kind = 3 →
      ctrlSub x.q.pkt = 1 →
      x.q.pkt.e2e = x.q.pkt.e2eOf →
      s.dev.usable x.q.pkt.conn = true ∧ s.dev.isResident x.q.pkt.conn = true →
      ((s.dev.conn x.q.pkt.conn).state = 2 ∨ (s.dev.conn x.q.pkt.conn).state = 3) →
      ctrlInc x.q.pkt = (s.dev.conn x.q.pkt.conn).inc →
      x.q.pkt.src = (s.dev.conn x.q.pkt.conn).peerEp →
      (s.dev.conn x.q.pkt.conn).busy = none →
      ∃ t, exec (.receiverBusy q) s = .next { s with dev := t } ∧
        (t.conn x.q.pkt.conn).busy = some (s.dev.clk.edges + ctrlArg x.q.pkt, (s.dev.conn x.q.pkt.conn).nearPsn x.q.pkt.psn) ∧
        (t.conn x.q.pkt.conn).retry = (s.dev.conn x.q.pkt.conn).retry ∧
        t.cnt 4 10 = s.dev.cnt 4 10 + 1#48 ∧
        t.regs = s.dev.regs) ∧
  (∀ (s : State) (n : BitVec 24) (e p : Nat),
      (s.dev.conn n.toNat).busy = some (e, p) →
      e ≤ s.dev.clk.edges →
      ∃ t, exec (.busyBackoffEnd n) s = .next { s with dev := t } ∧
        (t.conn n.toNat).busy = none ∧
        (∀ y ∈ (s.dev.conn n.toNat).lost, p ≤ y → y ∈ (t.conn n.toNat).resend) ∧
        (∀ y ∈ (s.dev.conn n.toNat).resend, y ∈ (t.conn n.toNat).resend) ∧
        (∀ y ∈ (t.conn n.toNat).resend, y ∈ (s.dev.conn n.toNat).resend ∨ (y ∈ (s.dev.conn n.toNat).lost ∧ p ≤ y)) ∧
        (t.conn n.toNat).retry = (s.dev.conn n.toNat).retry) ∧
  (∀ (s : State) (q : Fin 32) (x : StPkt),
      s.dev.Rested →
      s.dev.Front q x →
      x.q.pkt.kind = 0x10 →
      field x.q.pkt.data 3 1 6 1 = 0 →
      (s.dev.conn (field x.q.pkt.data 0 3 0 24)).free = false →
      (s.dev.conn (field x.q.pkt.data 0 3 0 24)).failed = false →
      (s.dev.conn (field x.q.pkt.data 0 3 0 24)).localEp ≠ 24 →
      (s.dev.conn (field x.q.pkt.data 0 3 0 24)).localEp ≠ 31 →
      s.dev.clk.edges + 2 ∉ (s.dev.conn (field x.q.pkt.data 0 3 0 24)).notice →
      x.q.pkt.e2e = x.q.pkt.e2eOf →
      ∃ t, exec (.linkNoticeReceived q) s = .next { s with dev := t } ∧
        (t.conn (field x.q.pkt.data 0 3 0 24)).notice = (s.dev.conn (field x.q.pkt.data 0 3 0 24)).notice ++ [s.dev.clk.edges + 2] ∧
        (t.conn (field x.q.pkt.data 0 3 0 24)).state = (s.dev.conn (field x.q.pkt.data 0 3 0 24)).state ∧
        t = { s.dev with regs := t.regs, evr := t.evr, shadow := t.shadow, free := t.free, swc := { s.dev.swc with stage := t.swc.stage }, trn := { s.dev.trn with conns := t.trn.conns } } ∧
        s.dev.KeepsRegs [] t) ∧
  (∀ (s : State) (n : BitVec 24) (e : Nat) (es : List Nat),
      (s.dev.conn n.toNat).notice = e :: es →
      e ≤ s.dev.clk.edges →
      ∃ t, exec (.noticeResend n) s = .next { s with dev := t } ∧
        (t.conn n.toNat).notice = es ∧
        (∀ y ∈ (s.dev.conn n.toNat).unacked, y ∈ (t.conn n.toNat).resend) ∧
        (∀ y ∈ (s.dev.conn n.toNat).resend, y ∈ (t.conn n.toNat).resend) ∧
        (∀ y ∈ (t.conn n.toNat).resend, y ∈ (s.dev.conn n.toNat).resend ∨ y ∈ (s.dev.conn n.toNat).unacked) ∧
        (t.conn n.toNat).retry = (s.dev.conn n.toNat).retry ∧
        (t.conn n.toNat).timer = (s.dev.conn n.toNat).timer) ∧
  (∀ (s : State) (n : BitVec 24) (bs : List Byte) (fd : List (BitVec 64)) (h a : Nat),
      s.dev.Rested →
      s.dev.halted = false →
      s.dev.trn.fetch.contains n.toNat = true →
      s.dev.arbWaits 2 n.toNat = false →
      s.dev.trn.evict.contains n.toNat = false →
      s.dev.recordAt n.toNat = (.host h, a) →
      s.dev.heldHier h = false →
      recordOk n.toNat bs = true →
      (∀ m ∈ s.dev.trn.miss, m.conn ≠ n.toNat) →
      ∃ t, exec (.contextFetchDone n (some bs) .ok fd) s = .next { s with dev := t } ∧
        (t.conn n.toNat).resident = true ∧
        (t.conn n.toNat).state = ((s.dev.conn n.toNat).ofRecord bs).state ∧
        (t.conn n.toNat).epsn = ((s.dev.conn n.toNat).ofRecord bs).epsn ∧
        t.trn.fetch = s.dev.trn.fetch.erase n.toNat ∧
        t.mem = s.dev.mem)

/-- Doorbells, ring reads and the start of entries. A doorbell of an ACTIVE send or receive queue starts a scan, or is remembered
for the end of the one under way, and is counted; any other doorbell is counted as discarded and changes nothing else (R219,
R223). RING_FETCH_DONE takes the POSTED entries up to the first that is not: with one NOTIFY entry posted, that entry is taken
with its 64 bytes, CURSOR and INFLIGHT follow, and the scan ends (R220). A failed read puts the queue in ERROR (Table 07-13).
ENTRY_START starts a taken ATOMIC of a READY connection: its operation joins the connection (R225); where the context is not
resident its fetch is started instead (R198). The model's own choices in it: assumptions 65, 67, 132. It says of each of
DOORBELL (doorbell), RING_FETCH_DONE (ringFetchDone), ENTRY_START (entryStart) and SOURCE_DATA_READ_DONE (sourceDataReadDone)
that exec answers a next state, under conditions on the state and the operands alone. -/
def Obligations.DoorbellsAndScans : Prop :=
  (∀ (s : State) (q : BitVec 16),
      s.dev.Rested →
      s.dev.halted = false →
      (s.dev.qState q.toNat = 1 ∧ (s.dev.qKind q.toNat = 1 ∨ s.dev.qKind q.toNat = 2)) →
      ∃ t, exec (.doorbell q) s = .next { s with dev := t } ∧
        ((t.queue q.toNat).scan = true ∨ (s.dev.queue q.toNat).stall = true) ∧
        ((s.dev.queue q.toNat).scan = true ∨ (s.dev.queue q.toNat).stall = true → (t.queue q.toNat).rescan = true) ∧
        t.cnt 5 0 = s.dev.cnt 5 0 + 1#48 ∧
        t = { s.dev with wq := t.wq, cnts := t.cnts } ∧
        (∀ n, n ≠ q.toNat → t.queue n = s.dev.queue n)) ∧
  (∀ (s : State) (q : BitVec 16),
      s.dev.Rested →
      s.dev.halted = false →
      (¬(s.dev.qState q.toNat = 1 ∧ (s.dev.qKind q.toNat = 1 ∨ s.dev.qKind q.toNat = 2))) →
      ∃ t, exec (.doorbell q) s = .next { s with dev := t } ∧
        t.cnt 5 7 = s.dev.cnt 5 7 + 1#48 ∧
        t = { s.dev with cnts := t.cnts }) ∧
  (∀ (s : State) (q : BitVec 16) (data : List Byte),
      s.dev.Rested →
      s.dev.halted = false →
      s.dev.qState q.toNat = 1 ∧ s.dev.qKind q.toNat = 2 →
      s.dev.flag F.WQ_Q_CFG_MEM q.toNat = false →
      s.dev.queueSlot q.toNat = none →
      (s.dev.queue q.toNat).scan = true ∧ (s.dev.queue q.toNat).rescan = false ∧ (s.dev.queue q.toNat).stall = false →
      (s.dev.queue q.toNat).taken = [] ∧ (s.dev.queue q.toNat).kept = [] →
      s.dev.fld F.WQ_Q_STATUS_CURSOR q.toNat + 1 < s.dev.qSize q.toNat →
      field data 0 1 0 8 = 0x11 →
      field data 63 1 6 2 = 1 →
      field (data.drop 64) 63 1 6 2 = 0 →
      ∃ t, exec (.ringFetchDone q data .ok) s = .next { s with dev := t } ∧
        ((t.queue q.toNat).taken.map (fun e => (e.idx, e.desc, e.tick, e.reserved, e.done)) = [(s.dev.fld F.WQ_Q_STATUS_CURSOR q.toNat, data.take 64, s.dev.tickNow, false, none)]) ∧
        (t.queue q.toNat).scan = false ∧
        t.fld F.WQ_Q_STATUS_CURSOR q.toNat = s.dev.fld F.WQ_Q_STATUS_CURSOR q.toNat + 1 ∧
        t.fld F.WQ_Q_INFLIGHT_COUNT q.toNat = 1 ∧
        t.qState q.toNat = 1 ∧
        t.cnt 5 1 = s.dev.cnt 5 1 + 1#48 ∧
        t = { s.dev with regs := t.regs, wq := t.wq, cnts := t.cnts } ∧
        s.dev.KeepsRegs [.WQ_Q_STATUS, .WQ_Q_INFLIGHT] t ∧
        (∀ n, n ≠ q.toNat → t.queue n = s.dev.queue n)) ∧
  (∀ (s : State) (q : BitVec 16) (data : List Byte) (res : MemRes),
      s.dev.halted = false →
      s.dev.qState q.toNat = 1 →
      (s.dev.queue q.toNat).scan = true →
      s.dev.flag F.WQ_Q_CFG_EQ_EN q.toNat = false →
      res ≠ .ok →
      ∃ t, exec (.ringFetchDone q data res) s = .next { s with dev := t } ∧
        t.qState q.toNat = 4 ∧
        (t.queue q.toNat).scan = false ∧ (t.queue q.toNat).taken = (s.dev.queue q.toNat).taken ∧
        t.flag F.WQ_STATUS_RING_FAULT (s.dev.queueFn q.toNat) = true ∧
        t.flag F.GLB_FAULT_F2 0 = true ∧
        s.dev.KeepsRegs [.WQ_Q_STATUS, .WQ_STATUS, .GLB_FAULT] t ∧
        s.dev.FabricKept t ∧ s.dev.MapKept t ∧ s.dev.HostKept t) ∧
  (∀ (s : State) (q : BitVec 16) (e : Entry),
      s.dev.Rested →
      s.dev.halted = false →
      s.dev.qState q.toNat = 1 →
      s.dev.queueSlot q.toNat = none →
      (s.dev.queue q.toNat).taken = [e] ∧ e.started = false ∧ e.done = none →
      e.opc = 4 →
      (s.dev.conn e.conn).ready = true ∧ s.dev.isResident e.conn = true →
      (s.dev.conn e.conn).ops = [] →
      ∃ t, exec (.entryStart q) s = .next { s with dev := t } ∧
        (t.queue q.toNat).taken = [{ e with started := true }] ∧
        (t.conn e.conn).ops = [{ s.dev.opOf q.toNat e with id := s.dev.trn.nextOp }] ∧
        t.trn.nextOp = s.dev.trn.nextOp + 1 ∧
        t = { s.dev with wq := t.wq, trn := t.trn } ∧
        (∀ n, n ≠ q.toNat → t.queue n = s.dev.queue n) ∧
        (∀ n, n ≠ e.conn → t.conn n = s.dev.conn n)) ∧
  (∀ (s : State) (q : BitVec 16) (e : Entry),
      s.dev.Rested →
      s.dev.halted = false →
      s.dev.qState q.toNat = 1 →
      s.dev.queueSlot q.toNat = none →
      (s.dev.queue q.toNat).taken = [e] ∧ e.started = false ∧ e.done = none →
      e.onConn = true →
      s.dev.isResident e.conn = false →
      s.dev.trn.fetch.contains e.conn = false →
      s.dev.trn.need = [] ∧ s.dev.slotsUsed < 65536 →
      ∃ t, exec (.entryStart q) s = .next { s with dev := t } ∧
        t.trn.fetch = s.dev.trn.fetch ++ [e.conn] ∧
        t.cnt 4 11 = s.dev.cnt 4 11 + 1#48 ∧
        (s.dev.arb = [] → s.dev.tierHbm e.conn = false → t = { s.dev with cnts := t.cnts, trn := { s.dev.trn with fetch := t.trn.fetch } }) ∧
        s.dev.KeepsRegs [.PWR_STATUS] t) ∧
  (∀ (s : State) (c : BitVec 24) (id k : Nat) (data : List Byte) (o : Op) (h a : Nat),
      s.dev.Rested →
      s.dev.halted = false →
      (s.dev.conn c.toNat).ops = [o] ∧ o.id = id →
      Tbl.get o.reading k = some (some [⟨.host h, a, data.length⟩]) →
      s.dev.heldHier h = false →
      ∃ t, exec (.sourceDataReadDone (.op c id k) data .ok) s = .next { s with dev := t } ∧
        (t.conn c.toNat).ops = [{ o with reading := Tbl.erase o.reading k, data := Tbl.set o.data k (data, false) }] ∧
        t = { s.dev with trn := { s.dev.trn with conns := t.trn.conns } } ∧
        (∀ n, n ≠ c.toNat → t.conn n = s.dev.conn n))

/-- Event queues. EQ_COAL_DELAY, when DELAY has passed with completions pending, writes one COMPLETIONS entry of 16 bytes to the
event queue of the queue, with its pending count, and no other byte; the count is 0 and the producer position is one further
(R232, R233). EQ_CONSUMED stores a possible consumer position and ignores an impossible one (R234). EQ_CLEAR_OVF clears the
overflow flag (R235). EQ_ARM arms the event queue; where entries are unconsumed and it is not HELD it signals at once and is not
armed (R236, R392). It says of each of EQ_COAL_DELAY (eqCoalDelay), EQ_CONSUMED (eqConsumed), EQ_CLEAR_OVF (eqClearOvf) and
EQ_ARM (eqArm) that exec answers a next state, under conditions on the state and the operands alone. -/
def Obligations.EventQueues : Prop :=
  (∀ (s : State) (q : BitVec 16) (ns eq a : Nat),
      s.dev.Rested →
      s.dev.halted = false →
      eq = s.dev.fld F.WQ_Q_BIND_EQ q.toNat ∧ eq ≠ q.toNat →
      s.dev.flag F.WQ_Q_CFG_EQ_EN q.toNat = true →
      s.dev.fld F.WQ_EQ_COAL_DELAY eq ≠ 0 ∧ s.dev.fld F.WQ_EQ_COAL_DELAY eq ≤ ns →
      (s.dev.queue q.toNat).pend ≠ 0 ∧ (s.dev.queue q.toNat).pend < 2 ^ 32 →
      s.dev.qKind eq = 3 ∧ s.dev.qState eq = 1 ∧ s.dev.flag F.WQ_Q_STATUS_OVF eq = false ∧ s.dev.eqFull eq = false →
      a = (s.dev.qSpace eq).base + s.dev.qAddr eq (s.dev.eqPos eq % s.dev.qSize eq) →
      ∃ t, exec (.eqCoalDelay q ns) s = .next { s with dev := t } ∧
        (∀ i ∈ List.range 12, Mem.read t.mem (a + i) = (leBytes 2 q.toNat ++ [0#8, 0#8] ++ leBytes 4 s.dev.tickNow ++ leBytes 4 (s.dev.queue q.toNat).pend)[i]?) ∧
        (Mem.read t.mem (a + 15) = some (if s.dev.eqPos eq / s.dev.qSize eq % 2 = 0 then 0x80#8 else 0#8)) ∧
        (t.queue q.toNat).pend = 0 ∧
        t.eqPos eq = (s.dev.eqPos eq + 1) % 2 ^ 17 ∧
        t.cnt 5 5 = s.dev.cnt 5 5 + 1#48 ∧
        t = { s.dev with regs := t.regs, wq := t.wq, cnts := t.cnts, out := t.out, mem := t.mem } ∧
        (∀ b, b < a ∨ a + 16 ≤ b → Mem.read t.mem b = Mem.read s.dev.mem b) ∧
        s.dev.KeepsRegs [.WQ_Q_STATUS] t) ∧
  (∀ (s : State) (q : BitVec 16) (v : Word),
      s.dev.Rested →
      s.dev.halted = false →
      s.dev.qKind q.toNat = 3 →
      ∃ t, exec (.eqConsumed q v) s = .next { s with dev := t } ∧
        ((s.dev.eqPos q.toNat + 2 ^ 17 - v.toNat % 2 ^ 17) % 2 ^ 17 ≤ s.dev.qSize q.toNat → (t.queue q.toNat).cons = v.toNat % 2 ^ 17) ∧
        (s.dev.qSize q.toNat < (s.dev.eqPos q.toNat + 2 ^ 17 - v.toNat % 2 ^ 17) % 2 ^ 17 → t = s.dev) ∧
        t = { s.dev with wq := t.wq } ∧
        (∀ n, n ≠ q.toNat → t.queue n = s.dev.queue n)) ∧
  (∀ (s : State) (q : BitVec 16),
      s.dev.Rested →
      s.dev.halted = false →
      s.dev.qKind q.toNat = 3 →
      s.dev.boundTo q.toNat = [] →
      ∃ t, exec (.eqClearOvf q 2#32) s = .next { s with dev := t } ∧
        t.flag F.WQ_Q_STATUS_OVF q.toNat = false ∧
        t = { s.dev with regs := t.regs } ∧
        s.dev.KeepsRegs [.WQ_Q_STATUS] t) ∧
  (∀ (s : State) (q : BitVec 16),
      s.dev.Rested →
      s.dev.halted = false →
      s.dev.qKind q.toNat = 3 →
      ∃ t, exec (.eqArm q 1#32) s = .next { s with dev := t } ∧
        (s.dev.eqPos q.toNat = (s.dev.queue q.toNat).cons → (t.queue q.toNat).armed = true ∧ t.out = s.dev.out) ∧
        (s.dev.qState q.toNat = 2 → (t.queue q.toNat).armed = true ∧ t.out = s.dev.out) ∧
        (s.dev.eqPos q.toNat ≠ (s.dev.queue q.toNat).cons → s.dev.qState q.toNat ≠ 2 → (t.queue q.toNat).armed = false ∧ t.out = .msix (s.dev.queueFn q.toNat) (s.dev.fld F.WQ_EQ_COAL_VECTOR q.toNat) :: s.dev.out) ∧
        t = { s.dev with wq := t.wq, out := t.out } ∧
        (∀ n, n ≠ q.toNat → t.queue n = s.dev.queue n))

/-- Enabling, resetting, disabling and holding queues. WQ_ENABLE of a DISABLED queue with a kind and a ring of 2^6 to 2^16 entries
makes it ACTIVE with nothing in flight (R237); with neither it is refused with STATE_WRITE. WQ_RESET of an ACTIVE queue makes it
ABORTING, to be ACTIVE again; WQ_DISABLE the same, to be DISABLED (R237, R238). BUS_MASTER_DISABLE marks the function and holds
the queue whose ring it reaches; BUS_MASTER_ENABLE lets it go on in the state it left (R239, R392). The model's own choices in
it: assumptions 66, 132. It says of each of WQ_ENABLE (wqEnable), WQ_RESET (wqReset), WQ_DISABLE (wqDisable), BUS_MASTER_DISABLE
(busMasterDisable) and BUS_MASTER_ENABLE (busMasterEnable) that exec answers a next state, under conditions on the state and the
operands alone. -/
def Obligations.QueueStates : Prop :=
  (∀ (s : State) (src : Src) (v : Word) (q : Nat),
      s.dev.Rested →
      s.dev.level src ≠ 3 →
      s.dev.selValid src.fn .WQ_SEL = true ∧ q = s.dev.fld F.WQ_SEL_QUEUE src.fn →
      v.getLsbD 31 = true ∧ v.getLsbD 30 = false →
      s.dev.qState q = 0 →
      s.dev.qKind q ≠ 0 ∧ 6 ≤ s.dev.fld F.WQ_Q_CFG_LOG_SIZE q ∧ s.dev.fld F.WQ_Q_CFG_LOG_SIZE q ≤ 16 →
      s.dev.queueHeld q = false →
      ∃ t, exec (.wqEnable src v) s = .next { s with dev := t } ∧
        t.qState q = 1 ∧
        t.flag F.WQ_Q_CTRL_ENABLE q = true ∧
        t.fld F.WQ_Q_STATUS_CURSOR q = 0 ∧ t.rd .WQ_Q_INFLIGHT q = 0#32 ∧
        (t.queue q).taken = [] ∧ (t.queue q).kept = [] ∧ (t.queue q).pend = 0 ∧ (t.queue q).cons = 0 ∧
        t = { s.dev with regs := t.regs, wq := t.wq } ∧
        s.dev.KeepsRegs [.WQ_Q_CTRL, .WQ_Q_STATUS, .WQ_Q_INFLIGHT] t ∧
        (∀ n, n ≠ q → t.queue n = s.dev.queue n)) ∧
  (∀ (s : State) (src : Src) (v : Word) (q : Nat),
      s.dev.Rested →
      s.dev.level src ≠ 3 →
      s.dev.selValid src.fn .WQ_SEL = true ∧ q = s.dev.fld F.WQ_SEL_QUEUE src.fn →
      v.getLsbD 31 = true ∧ v.getLsbD 30 = false →
      s.dev.qState q = 0 →
      (s.dev.qKind q = 0 ∨ s.dev.fld F.WQ_Q_CFG_LOG_SIZE q < 6 ∨ 16 < s.dev.fld F.WQ_Q_CFG_LOG_SIZE q) →
      ∃ t, exec (.wqEnable src v) s = .next { s with dev := t } ∧
        t.flag F.GLB_ERR_STATE_WRITE src.fn = true ∧
        t = { s.dev with regs := t.regs } ∧
        s.dev.KeepsRegs [.GLB_ERR, .GLB_ERR_ADDR] t) ∧
  (∀ (s : State) (src : Src) (v : Word) (q : Nat),
      s.dev.level src ≠ 3 →
      s.dev.selValid src.fn .WQ_SEL = true ∧ q = s.dev.fld F.WQ_SEL_QUEUE src.fn →
      v.getLsbD 31 = true ∧ v.getLsbD 30 = true →
      (s.dev.qState q = 1 ∧ (s.dev.qKind q = 1 ∨ s.dev.qKind q = 2)) →
      s.dev.col.grps = [] →
      ∃ t, exec (.wqReset src v) s = .next { s with dev := t } ∧
        t.qState q = 3 ∧
        (t.queue q).abort = some { left := s.dev.qSize q, found := [], disable := false } ∧
        (t.queue q).taken = (s.dev.queue q).taken ∧
        s.dev.KeepsRegs [.WQ_Q_STATUS] t) ∧
  (∀ (s : State) (src : Src) (v : Word) (q : Nat),
      s.dev.level src ≠ 3 →
      s.dev.selValid src.fn .WQ_SEL = true ∧ q = s.dev.fld F.WQ_SEL_QUEUE src.fn →
      v.getLsbD 31 = false →
      (s.dev.qState q = 1 ∧ (s.dev.qKind q = 1 ∨ s.dev.qKind q = 2)) →
      s.dev.col.grps = [] →
      ∃ t, exec (.wqDisable src v) s = .next { s with dev := t } ∧
        t.qState q = 3 ∧
        t.flag F.WQ_Q_CTRL_ENABLE q = false ∧
        (t.queue q).abort = some { left := s.dev.qSize q, found := [], disable := true } ∧
        s.dev.KeepsRegs [.WQ_Q_STATUS, .WQ_Q_CTRL] t) ∧
  (∀ (s : State) (src : Src) (v : Word) (q : Nat),
      s.dev.Rested →
      s.dev.level src ≠ 3 →
      s.dev.selValid src.fn .WQ_SEL = true ∧ q = s.dev.fld F.WQ_SEL_QUEUE src.fn →
      v.getLsbD 31 = false →
      s.dev.qState q = 1 ∧ s.dev.qKind q = 3 →
      ∃ t, exec (.wqDisable src v) s = .next { s with dev := t } ∧
        t.qState q = 0 ∧
        t.eqPos q = 0 ∧ (t.queue q).cons = 0 ∧ (t.queue q).keptEv = [] ∧
        t = { s.dev with regs := t.regs, wq := t.wq } ∧
        s.dev.KeepsRegs [.WQ_Q_STATUS, .WQ_Q_CTRL] t) ∧
  (∀ (s : State) (h : Fin 24) (q : Nat) (x : Queue),
      s.dev.Rested →
      s.dev.wq = [(q, x)] →
      s.dev.qState q = 1 ∧ s.dev.flag F.WQ_Q_CFG_MEM q = false ∧ s.dev.queueFn q = 4096 + h.val →
      ∃ t, exec (.busMasterDisable (.pf h)) s = .next { s with dev := t } ∧
        t.hsw.held.contains (4096 + h.val) = true ∧
        t.qState q = 2 ∧
        t.queue q = { x with prior := 1 } ∧
        t = { s.dev with regs := t.regs, wq := t.wq, hsw := { s.dev.hsw with held := t.hsw.held } } ∧
        s.dev.KeepsRegs [.WQ_Q_STATUS] t) ∧
  (∀ (s : State) (h : Fin 24) (q : Nat) (x : Queue),
      s.dev.Rested →
      s.dev.wq = [(q, x)] ∧ x.prior = 1 ∧ x.taken = [] ∧ x.kept = [] ∧ x.keptEv = [] →
      s.dev.qState q = 2 ∧ s.dev.qKind q = 2 ∧ s.dev.queueFn q = 4096 + h.val →
      s.dev.hsw.unreach = [] →
      s.dev.xlt.wait = [] →
      ∃ t, exec (.busMasterEnable (.pf h)) s = .next { s with dev := t } ∧
        t.hsw.held.contains (4096 + h.val) = false ∧
        t.qState q = 1 ∧
        (x.rescan = true → x.stall = false → (t.queue q).scan = true) ∧
        t = { s.dev with regs := t.regs, wq := t.wq, hsw := { s.dev.hsw with held := t.hsw.held } } ∧
        s.dev.KeepsRegs [.WQ_Q_STATUS] t)

/-- Staging and loading protection entries. XLT_RGN_STAGE by a function that may write the selected entry, with a slot free, stages
the entry that its field registers spell for the next tick boundary, or the one after when it comes late, after what is staged
already, and changes nothing else (R257, R258). An entry outside the function's range is refused with REFUSED, and one that
finds no slot with STAGE_FULL; neither stages anything (R258, R259). A command for entry 0 is ignored (R252). XLT_RGN_LOAD fills
the field registers with the version in force (R258). It says of each of XLT_RGN_STAGE (xltRgnStage) and XLT_RGN_LOAD
(xltRgnLoad) that exec answers a next state, under conditions on the state and the operands alone. -/
def Obligations.ProtectionStaging : Prop :=
  (∀ (s : State) (src : Src) (v : Word) (late : Bool),
      s.dev.Rested →
      s.dev.level src = 0 →
      F.XLT_RGN_CMD_STAGE.ofWord v = 1 ∧ F.XLT_RGN_CMD_LOAD.ofWord v = 0 →
      s.dev.fld F.XLT_RGN_SEL_INDEX src.fn ≠ 0 →
      s.dev.inRange src.fn (s.dev.fld F.XLT_RGN_SEL_INDEX src.fn) = true →
      s.dev.protSlots < 4096 →
      Tbl.get s.dev.clk.holdAt src.fn = none →
      ∃ t, exec (.xltRgnStage src v late) s = .next { s with dev := t } ∧
        (t.clk.staged.getLast? = some { due := some (s.dev.clk.edges + (if late then 2 else 1)), fn := src.fn, act := .prot (s.dev.fld F.XLT_RGN_SEL_INDEX src.fn) (s.dev.fieldVer src.fn) }) ∧
        (∀ x ∈ t.clk.staged.dropLast, x ∈ s.dev.clk.staged) ∧
        (∀ x ∈ s.dev.clk.staged, x ∈ t.clk.staged ∨ x.act.sameTarget (.prot (s.dev.fld F.XLT_RGN_SEL_INDEX src.fn) (s.dev.fieldVer src.fn)) = true) ∧
        t = { s.dev with clk := { s.dev.clk with staged := t.clk.staged } }) ∧
  (∀ (s : State) (src : Src) (v : Word) (late : Bool),
      s.dev.Rested →
      s.dev.level src = 1 →
      F.XLT_RGN_CMD_STAGE.ofWord v = 1 ∧ F.XLT_RGN_CMD_LOAD.ofWord v = 0 →
      s.dev.fld F.XLT_RGN_SEL_INDEX src.fn ≠ 0 →
      s.dev.inRange src.fn (s.dev.fld F.XLT_RGN_SEL_INDEX src.fn) = false →
      ∃ t, exec (.xltRgnStage src v late) s = .next { s with dev := t } ∧
        t.flag F.XLT_PROT_STATUS_REFUSED 0 = true ∧
        t = { s.dev with regs := t.regs } ∧
        s.dev.KeepsRegs [.XLT_PROT_STATUS] t) ∧
  (∀ (s : State) (src : Src) (v : Word) (late : Bool),
      s.dev.Rested →
      s.dev.level src = 0 →
      F.XLT_RGN_CMD_STAGE.ofWord v = 1 ∧ F.XLT_RGN_CMD_LOAD.ofWord v = 0 →
      s.dev.fld F.XLT_RGN_SEL_INDEX src.fn ≠ 0 →
      s.dev.inRange src.fn (s.dev.fld F.XLT_RGN_SEL_INDEX src.fn) = true →
      4096 ≤ s.dev.protSlots →
      ∃ t, exec (.xltRgnStage src v late) s = .next { s with dev := t } ∧
        t.flag F.XLT_PROT_STATUS_STAGE_FULL 0 = true ∧
        t.clk = s.dev.clk ∧ t.prot = s.dev.prot ∧
        s.dev.KeepsRegs [.XLT_PROT_STATUS] t) ∧
  (∀ (s : State) (src : Src) (v : Word) (late : Bool),
      s.dev.Rested →
      s.dev.level src ≤ 1 →
      F.XLT_RGN_CMD_STAGE.ofWord v = 1 ∧ F.XLT_RGN_CMD_LOAD.ofWord v = 0 →
      s.dev.fld F.XLT_RGN_SEL_INDEX src.fn = 0 →
      ∃ t, exec (.xltRgnStage src v late) s = .next { s with dev := t } ∧
        t = s.dev) ∧
  (∀ (s : State) (src : Src) (v : Word) (e : ProtVer),
      s.dev.Rested →
      s.dev.level src ≤ 1 →
      F.XLT_RGN_CMD_STAGE.ofWord v = 0 ∧ F.XLT_RGN_CMD_LOAD.ofWord v = 1 →
      e = s.dev.protAt s.dev.tickNow (s.dev.fld F.XLT_RGN_SEL_INDEX src.fn) →
      ∃ t, exec (.xltRgnLoad src v) s = .next { s with dev := t } ∧
        t.rd .XLT_RGN_ATTR src.fn = e.attr ∧ t.rd .XLT_RGN_OWNER src.fn = e.owner ∧ t.rd .XLT_RGN_PARENT src.fn = e.parent ∧
        t.fld F.XLT_RGN_BASE_LO_BASE src.fn = e.base % 2 ^ 32 ∧ t.fld F.XLT_RGN_LEN_LO_LENGTH src.fn = e.len % 2 ^ 32 ∧
        (e.base < 2 ^ 57 → e.len < 2 ^ 57 → (t.fieldVer src.fn).base = e.base ∧ (t.fieldVer src.fn).len = e.len) ∧
        t = { s.dev with regs := t.regs } ∧
        s.dev.KeepsRegs [.XLT_RGN_ATTR, .XLT_RGN_OWNER, .XLT_RGN_PARENT, .XLT_RGN_BASE_LO, .XLT_RGN_BASE_HI, .XLT_RGN_LEN_LO, .XLT_RGN_LEN_HI] t)

/-- Arrivals and postings of a matching context. MTE_ARRIVAL of a message that no posted RECV fits appends it to the unexpected list
and writes the data it has into its slot, and no other byte (R274, R276); the entry is held on die while its hedgerow has fewer
than 4,096 (R283). A rendezvous message that fits the one posted RECV takes that RECV off the list, starts the pull of the bytes
wanted on its connection, and is counted as matched (R272, R274, R278). MTE_POSTING with no unexpected message and a free entry
within the limit appends the RECV to the posted list and holds it as an entry on die (R274, R283, R285); with none free, or at
the limit, it waits and the queue stalls, and STORE_FULL is set if none is free (R285). The model's own choices in it:
assumptions 68, 129, 133, 134. It says of each of MTE_ARRIVAL (mteArrival) and MTE_POSTING (mtePosting) that exec answers a next
state, under conditions on the state and the operands alone. -/
def Obligations.MessageMatching : Prop :=
  (∀ (s : State) (m : BitVec 16) (i : Nat) (x : Msg) (rest : List MteIn) (a : Nat),
      s.dev.Rested →
      s.dev.mctxState m.toNat = 1 ∧ s.dev.hrAwake m.toNat = true →
      (s.dev.mctx m.toNat).input = .arrival i :: rest →
      (s.dev.mctx m.toNat).posted = [] ∧ (s.dev.mctx m.toNat).reads = [] →
      Tbl.get s.dev.mte.msgs i = some x →
      s.dev.fld F.MTE_HR_OCC_ENTRIES (m.toNat % 64) < 4096 →
      a = (s.dev.slotAt x.ctx (x.slot.getD 0)).1.base + (s.dev.slotAt x.ctx (x.slot.getD 0)).2 →
      ∃ t, exec (.mteArrival m) s = .next { s with dev := t } ∧
        (t.mctx m.toNat).unexpected = (s.dev.mctx m.toNat).unexpected ++ [i] ∧
        (t.mctx m.toNat).input = rest ∧
        (x.slot ≠ none → ∀ k ∈ List.range x.data.length, Mem.read t.mem (a + k) = x.data[k]?) ∧
        (x.slot = none → t.mem = s.dev.mem) ∧
        t.cnt 6 0 = s.dev.cnt 6 0 + 1#48 ∧
        t.fld F.MTE_CTX_STATUS_ENTRIES m.toNat = (s.dev.fld F.MTE_CTX_STATUS_ENTRIES m.toNat + 1) % 2 ^ 32 ∧
        t.fld F.MTE_HR_OCC_ENTRIES (m.toNat % 64) = s.dev.fld F.MTE_HR_OCC_ENTRIES (m.toNat % 64) + 1 ∧
        t = { s.dev with regs := t.regs, cnts := t.cnts, mte := { s.dev.mte with ctxs := t.mte.ctxs }, mem := t.mem } ∧
        s.dev.KeepsRegs [.MTE_CTX_STATUS, .MTE_HR_OCC] t ∧
        (∀ b, b < a ∨ a + x.data.length ≤ b → Mem.read t.mem b = Mem.read s.dev.mem b) ∧
        (∀ n, n ≠ m.toNat → t.mctx n = s.dev.mctx n)) ∧
  (∀ (s : State) (m : BitVec 16) (i : Nat) (x : Msg) (c : MCtx) (p : Posted) (e : Entry) (r : Region),
      s.dev.Rested →
      s.dev.mctxState m.toNat = 1 ∧ s.dev.hrAwake m.toNat = true →
      s.dev.mte.ctxs = [(m.toNat, c)] ∧ c.input = [.arrival i] ∧ c.posted = [p] ∧ c.unexpected = [] ∧ c.reads = [] ∧ s.dev.mte.spilled = [] →
      Tbl.get s.dev.mte.msgs i = some x ∧ x.rts = true ∧ x.slot = none ∧ 0 < min x.len e.len →
      s.dev.fits x p.q p.idx = true ∧ (s.dev.queue p.q).at_ p.idx = some e →
      (s.dev.localCheck s.dev.tickNow (s.dev.fld F.WQ_Q_CFG_PD p.q) e.lkey 2 e.laddr e.len).toOption = some r →
      ∃ t, exec (.mteArrival m) s = .next { s with dev := t } ∧
        (t.mctx m.toNat).posted = [] ∧ (t.mctx m.toNat).input = [] ∧
        (t.conn x.conn).ops = (s.dev.conn x.conn).ops ++ [{ Op.blank (.pull p.q p.idx) 3 with id := s.dev.trn.nextOp, len := min x.len e.len, laddr := e.laddr, xctx := r.xctx, roff := x.roff, rkey := x.rkey, rgen := x.rgen, tick := some s.dev.tickNow }] ∧
        t.mte.recvs = s.dev.mte.recvs ++ [{ q := p.q, idx := p.idx, msg := i, want := min x.len e.len, handed := 0, placed := 0, status := 0 }] ∧
        t.cnt 6 1 = s.dev.cnt 6 1 + 1#48 ∧ t.cnt 6 4 = s.dev.cnt 6 4 + 1#48 ∧
        t.mem = s.dev.mem ∧
        s.dev.KeepsRegs [.MTE_CTX_STATUS, .MTE_HR_OCC] t) ∧
  (∀ (s : State) (m : BitVec 16) (q idx : Nat) (rest : List MteIn),
      s.dev.Rested →
      s.dev.mctxState m.toNat = 1 ∧ s.dev.hrAwake m.toNat = true →
      (s.dev.mctx m.toNat).input = .posting q idx :: rest →
      (s.dev.mctx m.toNat).unexpected = [] ∧ (s.dev.mctx m.toNat).reads = [] →
      s.dev.mteFree (m.toNat % 64) = true ∧ s.dev.atLimit m.toNat = false →
      s.dev.fld F.MTE_HR_OCC_ENTRIES (m.toNat % 64) < 4096 →
      (s.dev.queue q).stall = false →
      ∃ t, exec (.mtePosting m) s = .next { s with dev := t } ∧
        (t.mctx m.toNat).posted = (s.dev.mctx m.toNat).posted ++ [{ q := q, idx := idx }] ∧
        (t.mctx m.toNat).input = rest ∧
        t.fld F.MTE_CTX_STATUS_ENTRIES m.toNat = (s.dev.fld F.MTE_CTX_STATUS_ENTRIES m.toNat + 1) % 2 ^ 32 ∧
        t.fld F.MTE_HR_OCC_ENTRIES (m.toNat % 64) = s.dev.fld F.MTE_HR_OCC_ENTRIES (m.toNat % 64) + 1 ∧
        t = { s.dev with regs := t.regs, cnts := t.cnts, mte := { s.dev.mte with ctxs := t.mte.ctxs } } ∧
        s.dev.KeepsRegs [.MTE_CTX_STATUS, .MTE_HR_OCC] t ∧
        (∀ n, n ≠ m.toNat → t.mctx n = s.dev.mctx n)) ∧
  (∀ (s : State) (m : BitVec 16) (q idx : Nat) (rest : List MteIn),
      s.dev.mctxState m.toNat = 1 ∧ s.dev.hrAwake m.toNat = true →
      (s.dev.mctx m.toNat).input = .posting q idx :: rest →
      (s.dev.mctx m.toNat).unexpected = [] ∧ (s.dev.mctx m.toNat).reads = [] ∧ (s.dev.mctx m.toNat).waited = false →
      (s.dev.mteFree (m.toNat % 64) = false ∨ s.dev.atLimit m.toNat = true) →
      ∃ t, exec (.mtePosting m) s = .next { s with dev := t } ∧
        (t.mctx m.toNat).input = .posting q idx :: rest ∧ (t.mctx m.toNat).posted = (s.dev.mctx m.toNat).posted ∧
        (t.queue q).stall = true ∧
        (s.dev.mteFree (m.toNat % 64) = false → t.flag F.MTE_STATUS_STORE_FULL 0 = true) ∧
        (s.dev.mteFree (m.toNat % 64) = true → t.flag F.MTE_STATUS_STORE_FULL 0 = s.dev.flag F.MTE_STATUS_STORE_FULL 0) ∧
        t.cnt 6 8 = s.dev.cnt 6 8 + 1#48 ∧
        s.dev.KeepsRegs [.MTE_STATUS] t)

/-- Matching contexts, spill reads and rendezvous. MTE_CTX_ENABLE of a DISABLED context makes it ACTIVE and empty but for slots that
messages not yet consumed hold, and wakes its hedgerow if that is parked (R267, R422); MTE_CTX_DISABLE makes it DISABLED, and a
RECV that was posted falls due ABORTED (R267, Table 09-1). MTE_SPILL_READ_DONE that brings a spilled entry lets the search at
hand go on, and one that fails puts a context with nothing in it in FAILED with SPILL_BAD (R286, R287). FIN completes the
rendezvous SEND that its cookie names with the status it carries, once that SEND is acknowledged; one that names none is counted
as stale (R280). CANCEL of an unmatched RTS removes it and sends a FIN with ABORTED (R281). The model's own choices in it:
assumption 69. It says of each of MTE_CTX_ENABLE (mteCtxEnable), MTE_CTX_DISABLE (mteCtxDisable), MTE_SPILL_READ_DONE
(mteSpillReadDone), FIN (fin) and CANCEL (cancel) that exec answers a next state, under conditions on the state and the operands
alone. -/
def Obligations.MatchingContexts : Prop :=
  (∀ (s : State) (src : Src) (m : BitVec 16),
      s.dev.Rested →
      s.dev.part.hasHbm = true ∧ s.dev.mayReach src (Tbl.get s.dev.own.mctx m.toNat) = true →
      s.dev.mctxState m.toNat = 0 →
      ∃ t, exec (.mteCtxEnable src m) s = .next { s with dev := t } ∧
        t.mctxState m.toNat = 1 ∧ t.flag F.MTE_CTX_CTRL_ENABLE m.toNat = true ∧
        t.mctx m.toNat = { MCtx.reset with slots := (t.mctx m.toNat).slots } ∧
        ((∀ x ∈ s.dev.mte.msgs, x.2.ctx ≠ m.toNat) → (∀ x ∈ s.dev.mte.resv, x.2.1 ≠ m.toNat) → (t.mctx m.toNat).slots = []) ∧
        t.fld F.MTE_CTX_UX_USED_SLOTS_USED m.toNat = (t.mctx m.toNat).slots.length % 65536 ∧
        (s.dev.fld F.PWR_HR_STATE (m.toNat % 64) = 0 → Tbl.get t.pwr.wake (m.toNat % 64) ≠ none) ∧
        t = { s.dev with regs := t.regs, pwr := { s.dev.pwr with wake := t.pwr.wake }, mte := { s.dev.mte with ctxs := t.mte.ctxs } } ∧
        s.dev.KeepsRegs [.MTE_CTX_CTRL, .MTE_CTX_STATUS, .MTE_CTX_UX_USED] t) ∧
  (∀ (s : State) (src : Src) (m : BitVec 16) (c : MCtx) (p : Posted) (e : Entry),
      s.dev.mayReach src (Tbl.get s.dev.own.mctx m.toNat) = true →
      s.dev.mctxState m.toNat ≠ 0 →
      s.dev.mte.ctxs = [(m.toNat, c)] ∧ c.posted = [p] ∧ c.unexpected = [] ∧ c.input = [] ∧ s.dev.mte.spilled = [] →
      s.dev.qState p.q = 2 ∧ (s.dev.queue p.q).at_ p.idx = some e ∧ e.done = none →
      ∃ t, exec (.mteCtxDisable src m) s = .next { s with dev := t } ∧
        t.mctxState m.toNat = 0 ∧ t.flag F.MTE_CTX_CTRL_ENABLE m.toNat = false ∧
        (t.mctx m.toNat).posted = [] ∧
        ((t.queue p.q).at_ p.idx).bind (·.done) = some { s.dev.compl 1 with started := e.started, retried := e.retried } ∧
        s.dev.KeepsRegs [.MTE_CTX_CTRL, .MTE_CTX_STATUS, .MTE_HR_OCC] t) ∧
  (∀ (s : State) (m : BitVec 16) (i : Nat) (rest : List (Nat × Bool)),
      s.dev.Rested →
      (s.dev.mctx m.toNat).reads = (i, false) :: rest →
      (s.dev.arbWaits 4 i = false ∧ (s.dev.spillHbm = true ∨ s.dev.heldHier (s.dev.fld F.MTE_SPILL_LO_HIER 0) = false)) →
      ∃ t, exec (.mteSpillReadDone m true) s = .next { s with dev := t } ∧
        t.mctx m.toNat = { s.dev.mctx m.toNat with reads := rest, seen := (s.dev.mctx m.toNat).seen + 1 } ∧
        t = { s.dev with mte := { s.dev.mte with ctxs := t.mte.ctxs } } ∧
        (∀ n, n ≠ m.toNat → t.mctx n = s.dev.mctx n)) ∧
  (∀ (s : State) (m : BitVec 16) (i : Nat) (mv : Bool),
      s.dev.arbWaits 4 i = false →
      (s.dev.mctx m.toNat).reads = [(i, mv)] ∧ (s.dev.mctx m.toNat).posted = [] ∧ (s.dev.mctx m.toNat).unexpected = [] ∧ (s.dev.mctx m.toNat).input = [] →
      ∃ t, exec (.mteSpillReadDone m false) s = .next { s with dev := t } ∧
        t.mctxState m.toNat = 2 ∧ t.flag F.MTE_STATUS_SPILL_BAD 0 = true ∧ t.flag F.GLB_FAULT_F2 0 = true ∧
        (t.mctx m.toNat).reads = [] ∧
        s.dev.KeepsRegs [.MTE_CTX_STATUS, .MTE_STATUS, .GLB_FAULT] t) ∧
  (∀ (s : State) (n cookie st : Nat) (rest : List (Nat × Nat × Nat)) (r : Rdv) (e : Entry),
      s.dev.mte.fins = (n, cookie, st) :: rest →
      Tbl.get s.dev.mte.rdv (cookie % 65536) = some r ∧ s.dev.cookie (cookie % 65536) = cookie →
      (s.dev.conn r.conn).ops = [] →
      s.dev.qState r.q = 2 ∧ (s.dev.queue r.q).at_ r.idx = some e ∧ e.done = none →
      ∃ t, exec .fin s = .next { s with dev := t } ∧
        t.mte.fins = rest ∧ Tbl.get t.mte.rdv (cookie % 65536) = none ∧
        (((t.queue r.q).at_ r.idx).bind (·.done) = some { s.dev.compl st with len := if st = 0 then e.len else 0, started := e.started, retried := e.retried }) ∧
        s.dev.KeepsRegs [.MTE_RDV] t) ∧
  (∀ (s : State) (n cookie st : Nat) (rest : List (Nat × Nat × Nat)),
      s.dev.mte.fins = (n, cookie, st) :: rest →
      Tbl.get s.dev.mte.rdv (cookie % 65536) = none →
      ∃ t, exec .fin s = .next { s with dev := t } ∧
        t.mte = { s.dev.mte with fins := rest } ∧
        t.cnt 6 6 = s.dev.cnt 6 6 + 1#48 ∧
        s.dev.KeepsRegs [] t) ∧
  (∀ (s : State) (n cookie i : Nat) (rest : List (Nat × Nat)) (x : Msg),
      s.dev.mte.cancels = (n, cookie) :: rest →
      (s.dev.mte.msgs.find? (fun x => x.2.rts && x.2.conn == n && x.2.cookie == cookie) = some (i, x)) →
      s.dev.mte.recvs = [] →
      ∃ t, exec .cancel s = .next { s with dev := t } ∧
        t.mte.cancels = rest ∧ Tbl.get t.mte.msgs x.id = none ∧
        (t.conn n).ops = (s.dev.conn n).ops ++ [{ Op.blank .msg 5 with id := s.dev.trn.nextOp, hdr := matchHeader 0 0 0 2 1 cookie 0 0 0 }] ∧
        t.cnt 6 5 = s.dev.cnt 6 5 + 1#48 ∧
        s.dev.KeepsRegs [.MTE_CTX_STATUS, .MTE_HR_OCC, .MTE_SPILL_OCC, .MTE_CTX_UX_USED] t)

/-- Blocks at the reduction units and packets of the tree. COL_STEP takes the next block of its unit within its intake and Topiary's
grant: the block leaves the inputs that wait, joins those combined with the operation of the group, and its cost and its intake
are charged (R304, R311, R312, R420). COL_UP of the last packet of an up block from a child port offers that block to its unit
(R296, R301); a packet of a FREE or BROKEN group is counted as stale (R301). COL_DOWN with END ends a barrier that is closed
here: the group goes on to the next operation (R314). WINDOW raises the limit of its operation and never lowers it (R302). The
model's own choices in it: assumptions 70, 72, 73, 145. It says of each of COL_STEP (colStep), COL_UP (colUp), COL_DOWN
(colDown) and WINDOW (windowMsg) that exec answers a next state, under conditions on the state and the operands alone. -/
def Obligations.CollectiveUnits : Prop :=
  (∀ (s : State) (u : Fin 4) (g seq cost : Nat) (p : ColPar) (x : ColOffer) (o : ColOp) (ins : List Nat) (old es : List El) (limbs : Nat),
      s.dev.Rested →
      s.dev.col.stall.contains u.val = false →
      s.dev.colNext u.val = some (g, seq, p, x) →
      Tbl.getD s.dev.col.cells u.val 0 + x.cells ≤ 1024 →
      Tbl.getD s.dev.col.share u.val 0 + p.els x.block * p.share ≤ 131072 →
      cost = s.dev.fld F.PWR_COST_COST p.kind ∧ cost ≤ Tbl.getD s.dev.pwr.cap 0 0 ∧ cost ≤ Tbl.getD s.dev.pwr.grant p.kind 0 →
      s.dev.colOp g seq = some o →
      Tbl.get o.acc x.block = some (ins, old) →
      p.take x = some (es, limbs) →
      (s.dev.colInputs g).all (x.inp :: ins).contains = false →
      ∃ t, exec (.colStep u) s = .next { s with dev := t } ∧
        ((t.colOp g seq).bind fun o => Tbl.get o.acc x.block) = some (x.inp :: ins, p.merge old es) ∧
        ((t.colOp g seq).map fun o => o.offers) = some (o.offers.filter fun y => !(y.inp == x.inp && y.block == x.block)) ∧
        Tbl.getD t.col.cells u.val 0 = Tbl.getD s.dev.col.cells u.val 0 + x.cells ∧
        Tbl.getD t.col.turn u.val 0 = x.inp ∧
        Tbl.getD t.pwr.grant p.kind 0 = Tbl.getD s.dev.pwr.grant p.kind 0 - cost ∧ Tbl.getD t.pwr.cap 0 0 = Tbl.getD s.dev.pwr.cap 0 0 - cost ∧ t.pwr.charged = s.dev.pwr.charged + cost ∧
        t.cnt 7 7 = s.dev.cnt 7 7 + BitVec.ofNat 48 limbs ∧
        t = { s.dev with cnts := t.cnts, col := t.col, pwr := t.pwr }) ∧
  (∀ (s : State) (u : Fin 4) (x : StPkt) (g : Nat) (o : ColOp),
      s.dev.halted = false →
      s.dev.col.stall.contains u.val = false →
      (Tbl.getD s.dev.swc.stage (152 + u.val) []).head? = some x ∧ x.q.pkt.cells ≤ x.arrived ∧ x.q.pkt.kind = 8 →
      g = x.q.pkt.conn % 4096 ∧ s.dev.colOpen g = true ∧ (s.dev.colChildren g).contains x.q.inp = true →
      (s.dev.colGrp g).ops = [o] ∧ (s.dev.colGrp g).tail = [] ∧ (s.dev.colGrp g).base = x.q.pkt.ta 40 16 ∧ o.seq = x.q.pkt.ta 40 16 →
      o.par = some (ColPar.ofPkt x.q.pkt) ∧ o.mems = [] ∧ o.parts = [] ∧ o.closed = false →
      ((∀ z ∈ o.offers, (z.inp == x.q.inp && z.block == x.q.pkt.psn) = false) ∧ Tbl.get o.acc x.q.pkt.psn = none) →
      x.q.pkt.e2e = x.q.pkt.e2eOf ∧ x.q.pkt.ta 56 8 ≠ 1 →
      (ColPar.ofPkt x.q.pkt).cop < 2 ∧ (ColPar.ofPkt x.q.pkt).mode = 0 →
      x.q.pkt.psn < (ColPar.ofPkt x.q.pkt).blocks ∧ x.q.pkt.tb 16 1 = 1 ∧ (x.q.pkt.data.take x.q.pkt.len).length = (ColPar.ofPkt x.q.pkt).bytes x.q.pkt.psn →
      ∃ t, exec (.colUp u) s = .next { s with dev := t } ∧
        ((t.colOp g o.seq).map fun o => o.offers) = some (o.offers ++ [{ inp := x.q.inp, block := x.q.pkt.psn, cells := (x.q.pkt.len + 255) / 256, data := x.q.pkt.data.take x.q.pkt.len }]) ∧
        Tbl.getD t.swc.stage (152 + u.val) [] = (Tbl.getD s.dev.swc.stage (152 + u.val) []).tail ∧
        s.dev.KeepsRegs [.COL_GRP_STATUS, .COL_GRP_FLOW] t) ∧
  (∀ (s : State) (u : Fin 4) (x : StPkt),
      s.dev.halted = false →
      s.dev.col.stall.contains u.val = false →
      (Tbl.getD s.dev.swc.stage (152 + u.val) []).head? = some x ∧ x.q.pkt.cells ≤ x.arrived ∧ x.q.pkt.kind = 8 →
      s.dev.colOpen (x.q.pkt.conn % 4096) = false →
      ∃ t, exec (.colUp u) s = .next { s with dev := t } ∧
        t.cnt 7 4 = s.dev.cnt 7 4 + 1#48 ∧ t.flag F.COL_STATUS_STALE 0 = true ∧
        t.col = s.dev.col ∧
        Tbl.getD t.swc.stage (152 + u.val) [] = (Tbl.getD s.dev.swc.stage (152 + u.val) []).tail ∧
        s.dev.KeepsRegs [.COL_STATUS] t) ∧
  (∀ (s : State) (u : Fin 4) (x : StPkt) (g : Nat) (o : ColOp) (p : ColPar),
      s.dev.halted = false →
      (Tbl.getD s.dev.swc.stage (152 + u.val) []).head? = some x ∧ x.q.pkt.cells ≤ x.arrived ∧ x.q.pkt.kind = 9 →
      g = x.q.pkt.conn % 4096 ∧ s.dev.colOpen g = true ∧ s.dev.colRoot g = false ∧ x.q.inp = s.dev.fld F.COL_GRP_CFG_PARENT g →
      (s.dev.colGrp g).ops = [o] ∧ (s.dev.colGrp g).tail = [] ∧ (s.dev.colGrp g).base = o.seq ∧ o.seq = x.q.pkt.ta 40 16 →
      o.par = some p ∧ p.cop = 3 ∧ o.mems = [] ∧ o.closed = true ∧ o.ended = false →
      x.q.pkt.psn ∉ o.downs →
      x.q.pkt.e2e = x.q.pkt.e2eOf ∧ x.q.pkt.ta 56 8 = 1 →
      ∃ t, exec (.colDown u) s = .next { s with dev := t } ∧
        (t.colGrp g).ops = [] ∧ (t.colGrp g).base = (o.seq + 1) % 65536 ∧
        t.colState g = 1 ∧
        t.cnt 7 2 = s.dev.cnt 7 2 + 1#48 ∧
        s.dev.KeepsRegs [.COL_GRP_STATUS, .COL_GRP_FLOW] t) ∧
  (∀ (s : State) (x : StPkt) (g : Nat) (o : ColOp) (p : ColPar),
      s.dev.halted = false →
      (Tbl.getD s.dev.swc.stage 159 []).head? = some x ∧ x.q.pkt.cells ≤ x.arrived ∧ x.q.pkt.kind = 0xA ∧ x.q.pkt.ta 56 8 = 1 →
      g = x.q.pkt.conn % 4096 ∧ s.dev.colOpen g = true ∧ s.dev.colRoot g = false ∧ x.q.inp = s.dev.fld F.COL_GRP_CFG_PARENT g →
      (s.dev.colGrp g).ops = [o] ∧ (s.dev.colGrp g).tail = [] ∧ o.seq = x.q.pkt.ta 40 16 →
      o.par = some p ∧ p.cop < 2 ∧ o.mems = [] ∧ o.ready = [] ∧ o.closed = false ∧ o.combined ≠ p.blocks →
      x.q.pkt.e2e = x.q.pkt.e2eOf →
      ∃ t, exec .windowMsg s = .next { s with dev := t } ∧
        ((t.colOp g o.seq).map fun o => (o.upto, o.ready, o.combined)) = some (max o.upto (x.q.pkt.tb 24 24), [], o.combined) ∧
        Tbl.getD t.swc.stage 159 [] = (Tbl.getD s.dev.swc.stage 159 []).tail ∧
        s.dev.KeepsRegs [.COL_GRP_STATUS, .COL_GRP_FLOW] t)

/-- Forming, dissolving and failing groups. COL_GRP_FORM of a FREE group whose configuration passes the checks and finds its slots
makes it READY at the OPSEQ written, with its slots reserved on every unit (R294, R303, Table 10-1); one that fails the checks
is refused with FORM_REFUSED. COL_GRP_DISSOLVE of a READY group makes it FREE and gives its slots back (R320). FAIL from a tree
port and the watchdog at the root make a group without local members BROKEN with their reason (R315, R317). The model's own
choices in it: assumptions 70, 71, 74. It says of each of COL_GRP_FORM (colGrpForm), COL_GRP_DISSOLVE (colGrpDissolve), FAIL
(failMsg) and COL_WATCHDOG (colWatchdog) that exec answers a next state, under conditions on the state and the operands alone. -/
def Obligations.CollectiveGroups : Prop :=
  (∀ (s : State) (src : Src) (v w : Word) (g : Nat),
      s.dev.Rested →
      s.dev.level src = 0 →
      g = s.dev.fld F.COL_GRP_SEL_GROUP src.fn ∧ s.dev.colState g = 0 →
      F.COL_GRP_CTRL_FORM.ofWord v = 1 ∧ F.COL_GRP_CTRL_DISSOLVE.ofWord v = 0 →
      w = Reg.merge .COL_GRP_CTRL (s.dev.rd .COL_GRP_CTRL g) v 0xFFFFFFFF#32 →
      (s.dev.setReg .COL_GRP_CTRL g w).colChecks g = true →
      s.dev.colRoom g (s.dev.colHeld g) = true →
      ∃ t, exec (.colGrpForm src v) s = .next { s with dev := t } ∧
        t.colState g = 1 ∧
        t.rd .COL_GRP_CTRL g = w ∧
        t.fld F.COL_GRP_STATUS_OPSEQ g = F.COL_GRP_CTRL_OPSEQ.ofWord w ∧
        (t.colGrp g).ops = [] ∧ (t.colGrp g).base = F.COL_GRP_CTRL_OPSEQ.ofWord w ∧
        t.colHeld g = s.dev.colSlots g ∧
        (∀ u ∈ List.range 4, t.fld F.COL_UNIT_RESERVED u = s.dev.colReserved - s.dev.colHeld g + s.dev.colSlots g) ∧
        t = { s.dev with regs := t.regs, col := { s.dev.col with grps := t.col.grps, slots := t.col.slots } } ∧
        s.dev.KeepsRegs [.COL_GRP_CTRL, .COL_GRP_STATUS, .COL_GRP_FLOW, .COL_UNIT] t) ∧
  (∀ (s : State) (src : Src) (v w : Word) (g : Nat),
      s.dev.level src = 0 →
      g = s.dev.fld F.COL_GRP_SEL_GROUP src.fn ∧ s.dev.colState g = 0 →
      F.COL_GRP_CTRL_FORM.ofWord v = 1 ∧ F.COL_GRP_CTRL_DISSOLVE.ofWord v = 0 →
      w = Reg.merge .COL_GRP_CTRL (s.dev.rd .COL_GRP_CTRL g) v 0xFFFFFFFF#32 →
      (s.dev.setReg .COL_GRP_CTRL g w).colChecks g = false →
      ∃ t, exec (.colGrpForm src v) s = .next { s with dev := t } ∧
        t.colState g = 0 ∧ t.flag F.COL_STATUS_FORM_REFUSED 0 = true ∧
        t.col = s.dev.col ∧
        s.dev.KeepsRegs [.COL_GRP_CTRL, .COL_STATUS] t) ∧
  (∀ (s : State) (src : Src) (v : Word) (g : Nat),
      s.dev.Rested →
      s.dev.level src = 0 →
      g = s.dev.fld F.COL_GRP_SEL_GROUP src.fn ∧ s.dev.colState g = 1 →
      F.COL_GRP_CTRL_FORM.ofWord v = 0 ∧ F.COL_GRP_CTRL_DISSOLVE.ofWord v = 1 →
      ∃ t, exec (.colGrpDissolve src v) s = .next { s with dev := t } ∧
        t.colState g = 0 ∧ t.fld F.COL_GRP_FLOW_F g = 0 ∧
        Tbl.get t.col.slots g = none ∧
        (s.dev.colReserved < 2 ^ 13 → ∀ u ∈ List.range 4, t.fld F.COL_UNIT_RESERVED u = s.dev.colReserved - s.dev.colHeld g) ∧
        t = { s.dev with regs := t.regs, col := { s.dev.col with slots := t.col.slots } } ∧
        s.dev.KeepsRegs [.COL_GRP_STATUS, .COL_GRP_FLOW, .COL_UNIT, .GLB_ERR, .GLB_ERR_ADDR] t) ∧
  (∀ (s : State) (x : StPkt) (g : Nat),
      s.dev.halted = false →
      (Tbl.getD s.dev.swc.stage 159 []).head? = some x ∧ x.q.pkt.cells ≤ x.arrived ∧ x.q.pkt.kind = 0xA ∧ x.q.pkt.ta 56 8 = 2 →
      g = x.q.pkt.conn % 4096 ∧ s.dev.colOpen g = true ∧ (s.dev.colPorts g).contains x.q.inp = true →
      ((s.dev.colGrp g).place (x.q.pkt.ta 40 16) < 32768 ∧ ∀ o ∈ (s.dev.colGrp g).ops, o.mems = []) →
      x.q.pkt.e2e = x.q.pkt.e2eOf →
      ∃ t, exec .failMsg s = .next { s with dev := t } ∧
        t.colState g = 3 ∧ t.fld F.COL_GRP_STATUS_REASON g = x.q.pkt.tb 24 8 ∧
        t.flag F.COL_STATUS_FAILED 0 = true ∧ t.flag F.GLB_FAULT_F2 0 = true ∧
        (t.colGrp g).ops = [] ∧
        s.dev.KeepsRegs [.COL_GRP_STATUS, .COL_GRP_FLOW, .COL_STATUS, .GLB_FAULT] t) ∧
  (∀ (s : State) (g : BitVec 12) (o : ColOp) (p : ColPar),
      s.dev.colRoot g.toNat = true ∧ s.dev.colOpen g.toNat = true →
      s.dev.fld F.COL_GRP_CFG_TIMEOUT g.toNat ≠ 0 →
      (s.dev.colGrp g.toNat).ops = [o] ∧ o.par = some p ∧ o.mems = [] ∧ o.decided = false →
      o.start + 1024 * s.dev.fld F.COL_GRP_CFG_TIMEOUT g.toNat ≤ s.dev.clk.edges →
      ∃ t, exec (.colWatchdog g) s = .next { s with dev := t } ∧
        t.colState g.toNat = 3 ∧ t.fld F.COL_GRP_STATUS_REASON g.toNat = 5 ∧
        t.flag F.COL_STATUS_FAILED 0 = true ∧ t.flag F.GLB_FAULT_F2 0 = true ∧
        s.dev.KeepsRegs [.COL_GRP_STATUS, .COL_GRP_FLOW, .COL_STATUS, .GLB_FAULT] t)

/-- Walks, invalidations and translation contexts. WALK_READ_DONE of a table entry caches it and takes the walk one level down; of a
good leaf it caches the leaf and ends the walk (R326, R330); of an entry that is not valid it ends the walk in a fault of cause
3, which the fault record shows (R327, R329). XLT_INV_ISSUE of TYPE 0 or 1 takes the next token and drops every unlocked cached
entry of its context in its range, leaving locked ones (R334, R335). INV_TOKEN_DONE shows the token once its conditions hold; of
a disable it makes the context DISABLED (R335, R337). XLT_CTX_DISABLE of an ACTIVE context makes it DRAINING and drops its
entries, locked or not (R337). XLT_HR_MODE changes the mode of a parked hedgerow alone and frees its locked slots (R331). The
model's own choices in it: assumptions 75, 77, 78, 129. It says of each of WALK_READ_DONE (walkReadDone), XLT_INV_ISSUE
(xltInvIssue), INV_TOKEN_DONE (invTokenDone), XLT_CTX_DISABLE (xltCtxDisable) and XLT_HR_MODE (xltHrMode) that exec answers a
next state, under conditions on the state and the operands alone. -/
def Obligations.WalksAndInvalidations : Prop :=
  (∀ (s : State) (k : Fin 256) (e : BitVec 64) (w : Walk),
      s.dev.Rested →
      s.dev.halted = false →
      s.dev.arbWaits 3 w.seq = false →
      s.dev.xlt.walks = [w] ∧ k = 0 ∧ w.lock = none ∧ w.drop = [] →
      s.dev.flag F.XLT_CTX_CFG_MEM w.ctx = false ∧ s.dev.heldHier (s.dev.fld F.XLT_CTX_CFG_HIER w.ctx) = false →
      s.dev.xctxState w.ctx = 1 →
      s.dev.xlt.cache.length < 8 →
      entV e = true ∧ entRsvOk e = true ∧ entTbl e = true ∧ w.level ≠ 0 →
      s.dev.tableLegal w.ctx (entAddr e) = true →
      ∃ t, exec (.walkReadDone k e .ok) s = .next { s with dev := t } ∧
        t.xlt.walks = [{ w with level := w.level - 1, table := entAddr e }] ∧
        (∃ x ∈ t.xlt.cache, x.ctx = w.ctx ∧ x.level = w.level ∧ x.ent = e ∧ x.covers w.ctx w.va = true ∧ x.locked = false) ∧
        t.cnt 8 3 = s.dev.cnt 8 3 + 1#48 ∧
        (s.dev.arb = [] → t = { s.dev with cnts := t.cnts, xlt := { s.dev.xlt with cache := t.xlt.cache, walks := t.xlt.walks, seq := t.xlt.seq } })) ∧
  (∀ (s : State) (k : Fin 256) (e : BitVec 64) (w : Walk),
      s.dev.Rested →
      s.dev.halted = false →
      s.dev.arbWaits 3 w.seq = false →
      s.dev.xlt.walks = [w] ∧ k = 0 ∧ w.lock = none ∧ w.drop = [] →
      s.dev.flag F.XLT_CTX_CFG_MEM w.ctx = false ∧ s.dev.heldHier (s.dev.fld F.XLT_CTX_CFG_HIER w.ctx) = false →
      s.dev.xctxState w.ctx = 1 →
      s.dev.xlt.cache.length < 8 ∧ s.dev.xlt.wait = [] →
      s.dev.NoLockWalk →
      entTbl e = false ∧ w.level < 4 →
      s.dev.leafCause w.ctx w.level e = 0 →
      ∃ t, exec (.walkReadDone k e .ok) s = .next { s with dev := t } ∧
        t.xlt.walks = [] ∧
        (∃ x ∈ t.xlt.cache, x.ctx = w.ctx ∧ x.level = w.level ∧ x.ent = e ∧ x.covers w.ctx w.va = true ∧ x.isLeaf = true ∧ x.locked = false) ∧
        t = { s.dev with xlt := { s.dev.xlt with cache := t.xlt.cache, walks := [], seq := t.xlt.seq } }) ∧
  (∀ (s : State) (k : Fin 256) (e : BitVec 64) (w : Walk) (fn : Nat),
      s.dev.halted = false →
      s.dev.arbWaits 3 w.seq = false →
      s.dev.xlt.walks = [w] ∧ k = 0 ∧ w.lock = none →
      s.dev.flag F.XLT_CTX_CFG_MEM w.ctx = false ∧ s.dev.heldHier (s.dev.fld F.XLT_CTX_CFG_HIER w.ctx) = false →
      s.dev.xlt.wait = [] →
      s.dev.NoLockWalk →
      entV e = false →
      Tbl.get s.dev.own.xctx w.ctx = none ∧ fn = 4224 →
      s.dev.flag F.XLT_FAULT_INFO_VALID fn = false →
      ∃ t, exec (.walkReadDone k e .ok) s = .next { s with dev := t } ∧
        t.xlt.walks = [] ∧ t.xlt.cache = s.dev.xlt.cache ∧
        t.flag F.XLT_FAULT_INFO_VALID fn = true ∧ t.fld F.XLT_FAULT_INFO_CAUSE fn = 3 ∧
        t.fld F.XLT_FAULT_INFO_CTX fn = w.ctx % 2 ^ 16 ∧ t.rd .XLT_FAULT_VA_LO fn = BitVec.ofNat 32 w.va ∧
        t.cnt 8 4 = s.dev.cnt 8 4 + 1#48 ∧
        s.dev.KeepsRegs [.XLT_FAULT_INFO, .XLT_FAULT_VA_LO, .XLT_FAULT_VA_HI, .XLT_FAULT_TBL_LO, .XLT_FAULT_TBL_HI] t) ∧
  (∀ (s : State) (src : Src) (v : Word) (c ty span lo : Nat),
      s.dev.Rested →
      s.dev.level src ≤ 1 →
      F.XLT_INV_CTRL_ISSUE.ofWord v = 1 →
      c = F.XLT_INV_CTRL_CTX.ofWord v ∧ s.dev.mayReach src (Tbl.get s.dev.own.xctx c) = true →
      ty = F.XLT_INV_CTRL_TYPE.ofWord v ∧ ty ≤ 1 →
      ((s.dev.xlt.invals.filter fun i => i.fn.isSome).length < 64) →
      span = 2 ^ (12 + min 45 (F.XLT_INV_CTRL_LOG_PAGES.ofWord v)) ∧ lo = s.dev.addr57 F.XLT_INV_ADDR_LO_ADDR F.XLT_INV_ADDR_HI_ADDR src.fn / span * span →
      ∃ t, exec (.xltInvIssue src v) s = .next { s with dev := t } ∧
        t.fld F.XLT_INV_TOKEN_ISSUED src.fn = (s.dev.fld F.XLT_INV_TOKEN_ISSUED src.fn + 1) % 2 ^ 16 ∧
        (t.xlt.invals.getLast?.map fun i => (i.fn, i.token, i.ctx)) = some (some src.fn, t.fld F.XLT_INV_TOKEN_ISSUED src.fn, some c) ∧
        t.xlt.invals.dropLast = s.dev.xlt.invals ∧
        (∀ x ∈ s.dev.xlt.cache, x ∈ t.xlt.cache ∨ (x.locked = false ∧ x.ctx = c ∧ (ty = 0 → lo < x.va + 2 ^ spanBits x.level ∧ x.va < lo + span))) ∧
        (∀ x ∈ t.xlt.cache, x ∈ s.dev.xlt.cache ∧ (x.locked = true ∨ x.ctx ≠ c ∨ 2 ^ 57 ≤ x.va ∨ (ty = 0 ∧ (x.va + 2 ^ spanBits x.level ≤ lo ∨ lo + span ≤ x.va)))) ∧
        t.xlt.slots = s.dev.xlt.slots ∧
        t.cnt 8 6 = s.dev.cnt 8 6 + 1#48 ∧
        t = { s.dev with regs := t.regs, cnts := t.cnts, xlt := t.xlt } ∧
        s.dev.KeepsRegs [.XLT_INV_CTRL, .XLT_INV_TOKEN, .XLT_STATUS] t) ∧
  (∀ (s : State) (k : Nat) (i : Inval) (fn : Nat),
      s.dev.Rested →
      s.dev.xlt.invals[k]? = some i ∧ i.fn = some fn →
      s.dev.tokenReady k i = true →
      ∃ t, exec (.invTokenDone k) s = .next { s with dev := t } ∧
        t.fld F.XLT_INV_TOKEN_DONE fn = i.token % 2 ^ 16 ∧
        t.xlt.invals = s.dev.xlt.invals.eraseIdx k ∧
        t = { s.dev with regs := t.regs, xlt := { s.dev.xlt with invals := t.xlt.invals } } ∧
        s.dev.KeepsRegs [.XLT_INV_TOKEN] t) ∧
  (∀ (s : State) (k : Nat) (i : Inval) (c : Nat),
      s.dev.Rested →
      s.dev.xlt.invals[k]? = some i ∧ i.fn = none ∧ i.ctx = some c →
      s.dev.tokenReady k i = true →
      ∃ t, exec (.invTokenDone k) s = .next { s with dev := t } ∧
        t.xctxState c = 0 ∧
        t.xlt.invals = s.dev.xlt.invals.eraseIdx k ∧
        t = { s.dev with regs := t.regs, xlt := { s.dev.xlt with invals := t.xlt.invals } } ∧
        s.dev.KeepsRegs [.XLT_CTX_STATUS] t) ∧
  (∀ (s : State) (src : Src) (v : Word) (c : Nat),
      s.dev.Rested →
      s.dev.level src ≤ 1 →
      c = s.dev.fld F.XLT_CTX_SEL_CTX src.fn ∧ s.dev.selValid src.fn .XLT_CTX_SEL = true →
      F.XLT_CTX_CFG_ENABLE.ofWord v = 0 →
      s.dev.xctxState c = 1 →
      ∃ t, exec (.xltCtxDisable src v) s = .next { s with dev := t } ∧
        t.xctxState c = 2 ∧
        t.flag F.XLT_CTX_CFG_ENABLE c = false ∧
        (∀ x ∈ t.xlt.cache, x ∈ s.dev.xlt.cache ∧ (x.ctx ≠ c ∨ 2 ^ 57 ≤ x.va)) ∧
        (∀ e ∈ t.xlt.slots, ∀ x ∈ e.2, x.ctx ≠ c ∨ 2 ^ 57 ≤ x.va) ∧
        (∀ x ∈ s.dev.xlt.cache, x ∈ t.xlt.cache ∨ x.ctx = c) ∧
        (t.xlt.invals.getLast?.map fun i => (i.fn, i.ctx)) = some (none, some c) ∧
        t = { s.dev with regs := t.regs, xlt := t.xlt } ∧
        s.dev.KeepsRegs [.XLT_CTX_CFG, .XLT_CTX_STATUS, .XLT_HR_MODE, .GLB_ERR, .GLB_ERR_ADDR] t) ∧
  (∀ (s : State) (src : Src) (h : Hedge) (v : Word),
      s.dev.Rested →
      s.dev.level src = 0 →
      s.dev.fld F.PWR_HR_STATE h.val = 0 →
      F.XLT_HR_MODE_MODE.ofWord v ≠ s.dev.fld F.XLT_HR_MODE_MODE h.val →
      ∃ t, exec (.xltHrMode src h v) s = .next { s with dev := t } ∧
        t.fld F.XLT_HR_MODE_MODE h.val = F.XLT_HR_MODE_MODE.ofWord v ∧ t.fld F.XLT_HR_MODE_SLOTS_USED h.val = 0 ∧
        (t.xlt.slots = s.dev.xlt.slots.filter fun x => x.1 / 16 != h.val) ∧
        t = { s.dev with regs := t.regs, xlt := { s.dev.xlt with slots := t.xlt.slots } } ∧
        s.dev.KeepsRegs [.XLT_HR_MODE] t) ∧
  (∀ (s : State) (src : Src) (h : Hedge) (v : Word),
      s.dev.Rested →
      s.dev.level src = 0 →
      s.dev.fld F.PWR_HR_STATE h.val ≠ 0 →
      ∃ t, exec (.xltHrMode src h v) s = .next { s with dev := t } ∧
        t.flag F.GLB_ERR_STATE_WRITE src.fn = true ∧
        t = { s.dev with regs := t.regs } ∧
        s.dev.KeepsRegs [.GLB_ERR, .GLB_ERR_ADDR] t)

/-- Locking and unlocking translation entries. LOCK_WALK starts a walk of the given address for its function, keeps the context and
the address for it, and shows RESULT 1 (R332). LOCK_LOAD of a legal leaf value places it in the large cache as locked, with room
there, counts it in LOCKED and shows RESULT 0; with no leaf value that may stand there it shows RESULT 3 and places nothing.
UNLOCK takes the locked entry that covers the address out and shows RESULT 0, or 4 where there is none (R332, Table 11-6). The
model's own choices in it: assumption 76. It says of each of LOCK_WALK (lockWalk), LOCK_LOAD (lockLoad) and UNLOCK (unlock) that
exec answers a next state, under conditions on the state and the operands alone. -/
def Obligations.LockedEntries : Prop :=
  (∀ (s : State) (src : Src) (v : Word) (c va : Nat),
      s.dev.Rested →
      s.dev.level src ≤ 1 →
      F.XLT_LOCK_CTRL_GO.ofWord v = 1 ∧ F.XLT_LOCK_CTRL_OP.ofWord v = 0 ∧ F.XLT_LOCK_CTRL_DEST.ofWord v = 0 →
      c = F.XLT_LOCK_CTRL_CTX_ENG.ofWord v ∧ s.dev.mayReach src (Tbl.get s.dev.own.xctx c) = true →
      s.dev.fld F.XLT_LOCK_CTRL_RESULT src.fn ≠ 1 →
      s.dev.xctxState c = 1 →
      va = s.dev.lockVa src.fn ∧ va < 2 ^ (12 + 9 * s.dev.xctxLevels c) →
      s.dev.xlt.walks = [] →
      s.dev.tableLegal c (s.dev.walkStart c va).2 = true →
      ∃ t, exec (.lockWalk src v) s = .next { s with dev := t } ∧
        t.fld F.XLT_LOCK_CTRL_RESULT src.fn = 1 ∧
        t.xlt.walks = [{ ctx := c, va := va, level := (s.dev.walkStart c va).1, table := (s.dev.walkStart c va).2, user := s.dev.xctxKind c, lock := some src.fn, drop := [], seq := s.dev.xlt.seq }] ∧
        t.cnt 8 2 = s.dev.cnt 8 2 + 1#48 ∧
        Tbl.get t.xlt.locks src.fn = some (c, va, none) ∧
        (s.dev.arb = [] → t = { s.dev with regs := t.regs, cnts := t.cnts, pwr := t.pwr, arb := t.arb, xlt := { s.dev.xlt with walks := t.xlt.walks, seq := t.xlt.seq, locks := t.xlt.locks } }) ∧
        s.dev.KeepsRegs [.XLT_LOCK_CTRL, .PWR_STATUS] t) ∧
  (∀ (s : State) (src : Src) (v : Word) (c va l : Nat) (e : BitVec 64),
      s.dev.Rested →
      s.dev.level src ≤ 1 →
      F.XLT_LOCK_CTRL_GO.ofWord v = 1 ∧ F.XLT_LOCK_CTRL_OP.ofWord v = 1 ∧ F.XLT_LOCK_CTRL_DEST.ofWord v = 0 →
      c = F.XLT_LOCK_CTRL_CTX_ENG.ofWord v ∧ s.dev.mayReach src (Tbl.get s.dev.own.xctx c) = true →
      l = F.XLT_LOCK_CTRL_SIZE.ofWord v →
      e = s.dev.rd .XLT_LOCK_ENTRY_HI src.fn ++ s.dev.rd .XLT_LOCK_ENTRY_LO src.fn →
      s.dev.fld F.XLT_LOCK_CTRL_RESULT src.fn ≠ 1 →
      s.dev.xctxState c = 1 →
      va = s.dev.lockVa src.fn ∧ va < 2 ^ (12 + 9 * s.dev.xctxLevels c) →
      s.dev.leafCause c l e = 0 →
      s.dev.xlt.cache.length < 4 →
      ∃ t, exec (.lockLoad src v) s = .next { s with dev := t } ∧
        t.fld F.XLT_LOCK_CTRL_RESULT src.fn = 0 ∧
        (∃ x ∈ t.xlt.cache, x.ctx = c ∧ x.level = l ∧ x.ent = e ∧ x.locked = true ∧ x.covers c va = true) ∧
        (t.fld F.XLT_CTX_STATUS_LOCKED c = (t.xlt.cache.filter fun x => x.locked && x.ctx == c).length) ∧
        t = { s.dev with regs := t.regs, xlt := { s.dev.xlt with cache := t.xlt.cache } } ∧
        s.dev.KeepsRegs [.XLT_LOCK_CTRL, .XLT_CTX_STATUS, .XLT_HR_MODE] t) ∧
  (∀ (s : State) (src : Src) (v : Word) (c : Nat),
      s.dev.Rested →
      s.dev.level src ≤ 1 →
      F.XLT_LOCK_CTRL_GO.ofWord v = 1 ∧ F.XLT_LOCK_CTRL_OP.ofWord v = 1 ∧ F.XLT_LOCK_CTRL_DEST.ofWord v = 0 →
      c = F.XLT_LOCK_CTRL_CTX_ENG.ofWord v ∧ s.dev.mayReach src (Tbl.get s.dev.own.xctx c) = true →
      s.dev.fld F.XLT_LOCK_CTRL_RESULT src.fn ≠ 1 →
      s.dev.xctxState c ≠ 1 →
      ∃ t, exec (.lockLoad src v) s = .next { s with dev := t } ∧
        t.fld F.XLT_LOCK_CTRL_RESULT src.fn = 3 ∧
        t.flag F.XLT_STATUS_LOCK_REFUSED src.fn = true ∧
        t.xlt = s.dev.xlt ∧
        s.dev.KeepsRegs [.XLT_LOCK_CTRL, .XLT_STATUS, .XLT_FAULT_INFO, .XLT_FAULT_VA_LO, .XLT_FAULT_VA_HI, .XLT_FAULT_TBL_LO, .XLT_FAULT_TBL_HI] t) ∧
  (∀ (s : State) (src : Src) (v : Word) (c va : Nat) (y : XEnt),
      s.dev.Rested →
      s.dev.level src ≤ 1 →
      F.XLT_LOCK_CTRL_GO.ofWord v = 1 ∧ F.XLT_LOCK_CTRL_OP.ofWord v = 2 ∧ F.XLT_LOCK_CTRL_DEST.ofWord v = 0 →
      c = F.XLT_LOCK_CTRL_CTX_ENG.ofWord v ∧ s.dev.mayReach src (Tbl.get s.dev.own.xctx c) = true →
      s.dev.fld F.XLT_LOCK_CTRL_RESULT src.fn ≠ 1 →
      va = s.dev.lockVa src.fn →
      (s.dev.xlt.cache.find? (fun y => y.locked && y.covers c va) = some y) →
      ∃ t, exec (.unlock src v) s = .next { s with dev := t } ∧
        t.fld F.XLT_LOCK_CTRL_RESULT src.fn = 0 ∧
        t.xlt.cache = s.dev.xlt.cache.erase y ∧
        t = { s.dev with regs := t.regs, xlt := { s.dev.xlt with cache := t.xlt.cache } } ∧
        s.dev.KeepsRegs [.XLT_LOCK_CTRL, .XLT_CTX_STATUS, .XLT_HR_MODE] t) ∧
  (∀ (s : State) (src : Src) (v : Word) (c va : Nat),
      s.dev.Rested →
      s.dev.level src ≤ 1 →
      F.XLT_LOCK_CTRL_GO.ofWord v = 1 ∧ F.XLT_LOCK_CTRL_OP.ofWord v = 2 ∧ F.XLT_LOCK_CTRL_DEST.ofWord v = 0 →
      c = F.XLT_LOCK_CTRL_CTX_ENG.ofWord v ∧ s.dev.mayReach src (Tbl.get s.dev.own.xctx c) = true →
      s.dev.fld F.XLT_LOCK_CTRL_RESULT src.fn ≠ 1 →
      va = s.dev.lockVa src.fn →
      (s.dev.xlt.cache.find? (fun y => y.locked && y.covers c va) = none) →
      ∃ t, exec (.unlock src v) s = .next { s with dev := t } ∧
        t.fld F.XLT_LOCK_CTRL_RESULT src.fn = 4 ∧
        t = { s.dev with regs := t.regs } ∧
        s.dev.KeepsRegs [.XLT_LOCK_CTRL] t)

/-- Host requests at the memory bridge. MEM_RD of a line that no earlier request holds back and that translates to a pool address
whose extent is valid and not FAILED sends one GET of 64 B, at the offset of the entry, on the READY connection of its path set;
MEM_WR answers Cmp at once and sends one PUT of the line (R342, R345, R350, R359). A request to a line with an earlier write
outstanding waits behind it (R352). MEM_WR_PTL with no byte enabled is answered Cmp and sends nothing; MEM_INV is answered Cmp;
MEM_SPEC_RD has no effect (R341, R350). The model's own choices in it: assumptions 79, 148. It says of each of MEM_RD (memRd),
MEM_WR (memWr), MEM_WR_PTL (memWrPtl), MEM_SPEC_RD (memSpecRd) and MEM_INV (memInv) that exec answers a next state, under
conditions on the state and the operands alone. -/
def Obligations.BridgeRequests : Prop :=
  (∀ (s : State) (h : Hier) (off : BitVec 52) (tag : BitVec 16) (c va pool n : Nat) (e : XEnt) (de : DirEnt),
      s.dev.Rested →
      s.dev.halted = false ∧ s.dev.brTakes h.val false = true →
      s.dev.PoolHit h c off va pool e 1 →
      Tbl.get s.dev.mbr.dir (pool / 2 ^ 30) = some de ∧ de.valid = true ∧ de.failed = false ∧ s.dev.psetReady de.pset = [n] →
      ∃ t, exec (.memRd h off tag) s = .next { s with dev := t } ∧
        (t.conn n).ops = (s.dev.conn n).ops ++ [{ Op.blank (.bridge s.dev.mbr.nextReq) 3 with id := s.dev.trn.nextOp, len := 64, roff := de.offset + pool % 2 ^ 30, rkey := de.key, rgen := de.gen }] ∧
        t.mbr.reqs = [{ id := s.dev.mbr.nextReq, hier := h.val, write := false, off := va, tag := tag.toNat, runs := [], poison := false, stage := 3, pool := pool, ent := some de, conn := n, left := 1, at_ := s.dev.clk.edges, told := false }] ∧
        t.cnt 10 0 = s.dev.cnt 10 0 + 1#48 ∧
        t = { s.dev with cnts := t.cnts, mbr := t.mbr, trn := t.trn, xlt := t.xlt }) ∧
  (∀ (s : State) (h : Hier) (off : BitVec 52) (tag : BitVec 16) (data : List Byte) (poison : Bool) (c va pool n : Nat) (e : XEnt) (de : DirEnt),
      s.dev.Rested →
      s.dev.halted = false ∧ s.dev.brTakes h.val true = true →
      s.dev.PoolHit h c off va pool e 2 →
      Tbl.get s.dev.mbr.dir (pool / 2 ^ 30) = some de ∧ de.valid = true ∧ de.failed = false ∧ de.writable = true ∧ s.dev.psetReady de.pset = [n] →
      data.length = 64 →
      ∃ t, exec (.memWr h off tag data poison) s = .next { s with dev := t } ∧
        (t.conn n).ops = (s.dev.conn n).ops ++ [{ Op.blank (.bridge s.dev.mbr.nextReq) 1 with id := s.dev.trn.nextOp, len := 64, roff := de.offset + pool % 2 ^ 30, rkey := de.key, rgen := de.gen, inl := some data, poison := poison, ackReq := true }] ∧
        t.out = .cmp h.val tag.toNat :: s.dev.out ∧
        t.cnt 10 1 = s.dev.cnt 10 1 + 1#48 ∧
        t = { s.dev with cnts := t.cnts, mbr := t.mbr, trn := t.trn, xlt := t.xlt, out := t.out }) ∧
  (∀ (s : State) (h : Hier) (off : BitVec 52) (tag : BitVec 16) (data : List Byte) (poison : Bool),
      s.dev.Rested →
      s.dev.halted = false ∧ s.dev.brTakes h.val true = true →
      ∃ t, exec (.memWrPtl h off tag data 0#64 poison) s = .next { s with dev := t } ∧
        t.out = .cmp h.val tag.toNat :: s.dev.out ∧
        t.cnt 10 1 = s.dev.cnt 10 1 + 1#48 ∧
        t = { s.dev with cnts := t.cnts, out := t.out }) ∧
  (∀ (s : State) (h : Hier) (off : BitVec 52) (tag : BitVec 16) (data : List Byte) (mask : BitVec 64) (poison : Bool) (r : BrReq),
      s.dev.Rested →
      s.dev.halted = false ∧ s.dev.brTakes h.val true = true →
      s.dev.mbr.reqs = [r] ∧ r.hier = h.val ∧ r.off / 64 = off.toNat / 64 ∧ r.id ≠ s.dev.mbr.nextReq →
      mask ≠ 0#64 →
      ∃ t, exec (.memWrPtl h off tag data mask poison) s = .next { s with dev := t } ∧
        t.mbr.reqs = [r, { id := s.dev.mbr.nextReq, hier := h.val, write := true, off := off.toNat / 64 * 64, tag := tag.toNat, runs := runsOf mask data, poison := poison, stage := 0, pool := 0, ent := none, conn := 0, left := 0, at_ := s.dev.clk.edges, told := false }] ∧
        t.out = .cmp h.val tag.toNat :: s.dev.out ∧
        t.cnt 10 1 = s.dev.cnt 10 1 + 1#48 ∧ t.cnt 10 2 = s.dev.cnt 10 2 + 1#48 ∧
        t = { s.dev with cnts := t.cnts, out := t.out, mbr := { s.dev.mbr with reqs := t.mbr.reqs, nextReq := s.dev.mbr.nextReq + 1 } }) ∧
  (∀ (s : State) (h : Hier) (off : BitVec 52),
      s.dev.Rested →
      ∃ t, exec (.memSpecRd h off) s = .next { s with dev := t } ∧
        t = s.dev) ∧
  (∀ (s : State) (h : Hier) (off : BitVec 52) (tag : BitVec 16),
      s.dev.Rested →
      s.dev.halted = false ∧ s.dev.part.hasMbr = true ∧ s.dev.brState h.val = 1 →
      ∃ t, exec (.memInv h off tag) s = .next { s with dev := t } ∧
        t = { s.dev with out := .cmp h.val tag.toNat :: s.dev.out })

/-- Directory reads, deadlines and re-pathing. EXTENT_DIRECTORY_READ_DONE with a good entry caches it and sends the read that waits
for it; when the read of the directory fails, the request ends in a map fault: poisoned data, MAP_FAULT and a class F2 fault
(R348, R355). MBR_DEADLINE answers a read that has waited DEADLINE ticks with poisoned data and sets DEADLINE (R353). MBR_REPATH
at the second edge after a link notice issues the reads of the connection anew on another READY connection of their path set
(R356). The model's own choices in it: assumptions 79, 80, 81. It says of each of EXTENT_DIRECTORY_READ_DONE
(extentDirectoryReadDone), MBR_DEADLINE (mbrDeadline) and MBR_REPATH (mbrRepath) that exec answers a next state, under
conditions on the state and the operands alone. -/
def Obligations.BridgeProgress : Prop :=
  (∀ (s : State) (x n : Nat) (r : BrReq) (de : DirEnt),
      s.dev.Rested →
      s.dev.halted = false →
      s.dev.mbr.reqs = [r] ∧ r.stage = 2 ∧ r.pool / 2 ^ 30 = x ∧ r.write = false ∧ s.dev.mbr.past = [] ∧ s.dev.mbr.dir = [] ∧ s.dev.mbr.order = [] →
      dirOfBytes x (s.dev.load .hbm (s.dev.dirAt x) 32).1 = some de →
      de.valid = true ∧ de.failed = false ∧ s.dev.psetReady de.pset = [n] →
      ∃ t, exec (.extentDirectoryReadDone x true) s = .next { s with dev := t } ∧
        Tbl.get t.mbr.dir x = some de ∧
        t.mbr.reqs = [{ r with ent := some de, stage := 3, conn := n, left := 1 }] ∧
        (t.conn n).ops = (s.dev.conn n).ops ++ [{ Op.blank (.bridge r.id) 3 with id := s.dev.trn.nextOp, len := 64, roff := de.offset + r.pool % 2 ^ 30, rkey := de.key, rgen := de.gen }] ∧
        t = { s.dev with mbr := t.mbr, trn := t.trn, free := t.free }) ∧
  (∀ (s : State) (x : Nat) (r : BrReq),
      s.dev.halted = false →
      s.dev.mbr.reqs = [r] ∧ r.stage = 2 ∧ r.pool / 2 ^ 30 = x ∧ r.write = false →
      s.dev.part.hasMbr = true →
      ∃ t, exec (.extentDirectoryReadDone x false) s = .next { s with dev := t } ∧
        t.mbr.reqs = [] ∧
        t.out = .memData r.hier r.tag (List.replicate 64 0#8) true :: .mediaEvent r.hier r.off false :: s.dev.out ∧
        t.flag F.MBR_STATUS_MAP_FAULT 0 = true ∧ t.flag F.GLB_FAULT_F2 0 = true ∧
        t.cnt 10 9 = s.dev.cnt 10 9 + 1#48 ∧
        s.dev.KeepsRegs [.MBR_STATUS, .MBR_HIER_STATUS, .GLB_FAULT] t) ∧
  (∀ (s : State) (h : Hier) (tag : BitVec 16) (r : BrReq),
      s.dev.halted = false →
      s.dev.mbr.reqs = [r] ∧ r.hier = h.val ∧ r.tag = tag.toNat ∧ r.write = false →
      r.at_ + max 1 (s.dev.fld F.MBR_CFG_DEADLINE 0) ≤ s.dev.clk.edges →
      s.dev.part.hasMbr = true →
      ∃ t, exec (.mbrDeadline h tag) s = .next { s with dev := t } ∧
        t.mbr.reqs = [] ∧
        t.out = .memData h.val tag.toNat (List.replicate 64 0#8) true :: s.dev.out ∧
        t.flag F.MBR_STATUS_DEADLINE 0 = true ∧
        t.cnt 10 8 = s.dev.cnt 10 8 + 1#48 ∧
        s.dev.KeepsRegs [.MBR_STATUS, .MBR_HIER_STATUS] t) ∧
  (∀ (s : State) (n : BitVec 24) (at_ m : Nat) (r : BrReq) (de : DirEnt),
      (s.dev.mbr.repath.find? (fun x => x.1 == n.toNat) = some (n.toNat, at_) ∧ at_ ≤ s.dev.clk.edges) →
      s.dev.mbr.reqs = [r] ∧ r.write = false ∧ r.stage = 3 ∧ r.conn = n.toNat ∧ r.ent = some de →
      s.dev.psetReady de.pset = [n.toNat, m] ∧ m ≠ n.toNat →
      s.dev.part.hasMbr = true →
      ∃ t, exec (.mbrRepath n) s = .next { s with dev := t } ∧
        t.mbr.reqs = [{ r with conn := m, left := 1 }] ∧
        (t.conn m).ops = (s.dev.conn m).ops ++ [{ Op.blank (.bridge r.id) 3 with id := s.dev.trn.nextOp, len := 64, roff := de.offset + r.pool % 2 ^ 30, rkey := de.key, rgen := de.gen }] ∧
        t.mbr.repath = s.dev.mbr.repath.erase (n.toNat, at_) ∧
        t.cnt 10 4 = s.dev.cnt 10 4 + 1#48 ∧
        s.dev.KeepsRegs [] t)

/-- Hierarchies coming up, resets and requests to functions. HIERARCHY_UP of a hierarchy that an UPSTREAM port names makes it ACTIVE
behind that port, ready as boot allows, and presents its bridge with the window size that its registers show (R340, R374, R376,
R396); with a second such port CONFLICT is set (R374). HIERARCHY_RESET makes it inactive, FUNCTION_LEVEL_RESET leaves the
hierarchy as it is; both disable the queues of the function without a completion (R389, R397). CONFIG_REQUEST is answered with
Request Retry Status until the hierarchy is ready, and then performed (R396). UNSUPPORTED_REQUEST is counted and answered
(R391). The model's own choices in it: assumptions 86, 92. It says of each of HIERARCHY_UP (hierarchyUp), HIERARCHY_RESET
(hierarchyReset), FUNCTION_LEVEL_RESET (functionLevelReset), CONFIG_REQUEST (configRequest) and UNSUPPORTED_REQUEST
(unsupportedRequest) that exec answers a next state, under conditions on the state and the operands alone. -/
def Obligations.HierarchiesAndResets : Prop :=
  (∀ (s : State) (h : Hier) (n : Nat),
      s.dev.Rested →
      s.dev.upstreams h.val = [n] ∧ s.dev.hierActive h.val = false ∧ n < 48 →
      s.dev.part.hasMbr = true ∧ s.dev.flag F.MBR_CFG_EN 0 = true ∧ s.dev.flag F.MBR_HIER_WIN_ENABLE h.val = true ∧ s.dev.brState h.val = 0 →
      ∃ t, exec (.hierarchyUp h) s = .next { s with dev := t } ∧
        t.hierActive h.val = true ∧ t.fld F.HSW_HIER_USP h.val = n ∧
        t.flag F.HSW_HIER_READY h.val = (s.dev.sec.step == 6) ∧
        t.fld F.HSW_PORT_STATUS_STATE n = 3 ∧ t.flag F.HSW_PORT_STATUS_PERST n = false ∧
        t.brState h.val = 1 ∧ Tbl.getD t.mbr.shown h.val 0 = min 262144 (s.dev.fld F.MBR_HIER_WIN_GIB h.val) ∧
        t = { s.dev with regs := t.regs, hsw := { s.dev.hsw with bar := t.hsw.bar }, mbr := { s.dev.mbr with shown := t.mbr.shown } } ∧
        s.dev.KeepsRegs [.HSW_HIER, .HSW_PORT_STATUS, .MBR_HIER_STATUS] t) ∧
  (∀ (s : State) (h : Hier) (n m : Nat) (rest : List Nat),
      s.dev.upstreams h.val = n :: m :: rest ∧ s.dev.hierActive h.val = false ∧ n < 48 →
      ∃ t, exec (.hierarchyUp h) s = .next { s with dev := t } ∧
        t.hierActive h.val = true ∧ t.fld F.HSW_HIER_USP h.val = n ∧
        t.flag F.HSW_STATUS_CONFLICT 0 = true ∧
        s.dev.KeepsRegs [.HSW_HIER, .HSW_PORT_STATUS, .HSW_STATUS, .MBR_HIER_STATUS] t) ∧
  (∀ (s : State) (h : Hier) (q : Nat),
      s.dev.Rested →
      s.dev.own.queue = [(q, 4096 + h.val)] ∧ s.dev.own.vfHier = [] ∧ s.dev.hsw.vdsp = [] →
      s.dev.qKind q = 1 ∧ s.dev.trn.conns = [] ∧ s.dev.locks = [] ∧ s.dev.col.grps = [] ∧ s.dev.mte.rdv = [] →
      s.dev.brState h.val ≠ 1 →
      ∃ t, exec (.hierarchyReset h) s = .next { s with dev := t } ∧
        t.hierActive h.val = false ∧ t.flag F.HSW_HIER_READY h.val = false ∧
        t.qState q = 0 ∧ (t.queue q).taken = [] ∧ t.flag F.WQ_Q_CTRL_ENABLE q = false ∧
        t.mem = s.dev.mem ∧
        s.dev.KeepsRegs [.HSW_HIER, .WQ_Q_CTRL, .WQ_Q_STATUS, .WQ_Q_INFLIGHT] t) ∧
  (∀ (s : State) (f : Func) (q : Nat),
      s.dev.Rested →
      s.dev.own.queue = [(q, f.num)] ∧ s.dev.own.vfHier = [] →
      s.dev.qKind q = 1 ∧ s.dev.trn.conns = [] ∧ s.dev.locks = [] ∧ s.dev.col.grps = [] ∧ s.dev.mte.rdv = [] →
      ∃ t, exec (.functionLevelReset f) s = .next { s with dev := t } ∧
        t.qState q = 0 ∧ (t.queue q).taken = [] ∧ t.flag F.WQ_Q_CTRL_ENABLE q = false ∧
        t.mem = s.dev.mem ∧ t.own = s.dev.own ∧
        s.dev.KeepsRegs [.WQ_Q_CTRL, .WQ_Q_STATUS, .WQ_Q_INFLIGHT] t) ∧
  (∀ (s : State) (f : Func) (w : CfgAct),
      s.dev.Rested →
      s.dev.funcOn f.num = true ∧ s.dev.flag F.HSW_HIER_READY (s.dev.hierOf f.num) = false →
      s.dev.part.hostPorts ≠ 0 →
      ∃ t, exec (.configRequest f w) s = .next { s with dev := t } ∧
        t.cnt 11 8 = s.dev.cnt 11 8 + 1#48 ∧
        t = { s.dev with cnts := t.cnts, out := .config f.num true :: s.dev.out }) ∧
  (∀ (s : State) (f : Func) (v : BitVec 4),
      s.dev.Rested →
      s.dev.funcOn f.num = true ∧ s.dev.flag F.HSW_HIER_READY (s.dev.hierOf f.num) = true →
      ∃ t, exec (.configRequest f (.timeout v)) s = .next { s with dev := t } ∧
        Tbl.get t.hsw.cto f.num = some v.toNat ∧
        t = { s.dev with hsw := { s.dev.hsw with cto := t.hsw.cto }, out := .config f.num false :: s.dev.out }) ∧
  (∀ (s : State) (f : Func) (w : Bool),
      s.dev.Rested →
      s.dev.part.hostPorts ≠ 0 →
      ∃ t, exec (.unsupportedRequest f w) s = .next { s with dev := t } ∧
        t.cnt 11 0 = s.dev.cnt 11 0 + 1#48 ∧
        t = { s.dev with cnts := t.cnts, out := .unsupported f.num w :: s.dev.out })

/-- Peer requests and completion timeouts. P2P_REQUEST within its hierarchy goes to the other virtual port, or to the host where its
port redirects; through the peer BAR it passes with its address in a usable window, and outside one it is counted as blocked,
with ACL_BLOCK (R380). COMPLETION_TIMEOUT of a ring read reports the timeout, puts the tag in quarantine for twice the timeout
and puts the queue in ERROR (R394, R395). LATE_COMPLETION for such a tag is counted and reported; TAG_QUARANTINE_END lets the
tag go once that time has passed (R395). The model's own choices in it: assumptions 87, 88. It says of each of P2P_REQUEST
(p2pRequest), COMPLETION_TIMEOUT (completionTimeout), LATE_COMPLETION (lateCompletion) and TAG_QUARANTINE_END (tagQuarantineEnd)
that exec answers a next state, under conditions on the state and the operands alone. -/
def Obligations.PeersAndTimeouts : Prop :=
  (∀ (s : State) (h : Hier) (v w : Fin 32) (a : BitVec 64) (wr : Bool),
      s.dev.Rested →
      s.dev.halted = false →
      s.dev.part.hostPorts ≠ 0 →
      ∃ t, exec (.p2pRequest h v (.inside w a) wr) s = .next { s with dev := t } ∧
        (t = { s.dev with out := (if s.dev.hsw.redirect.contains (32 * h.val + v.val) then .peerHost h.val wr else .peer h.val w.val a.toNat wr) :: s.dev.out })) ∧
  (∀ (s : State) (h : Hier) (v : Fin 32) (off : BitVec 40) (wr : Bool) (k : Nat) (w : PeerWin),
      s.dev.Rested →
      s.dev.halted = false →
      s.dev.hsw.windows = [(k, w)] ∧ k / 16 = h.val ∧ w.off ≤ off.toNat ∧ off.toNat < w.off + w.len →
      s.dev.p2pBit h.val w.port = true ∧ s.dev.part.hostPorts ≠ 0 →
      ∃ t, exec (.p2pRequest h v (.bar off) wr) s = .next { s with dev := t } ∧
        t = { s.dev with out := .peerWin h.val w.port (w.target + (off.toNat - w.off)) wr :: s.dev.out }) ∧
  (∀ (s : State) (h : Hier) (v : Fin 32) (off : BitVec 40) (wr : Bool),
      s.dev.halted = false →
      s.dev.hsw.windows = [] →
      s.dev.part.hostPorts ≠ 0 →
      ∃ t, exec (.p2pRequest h v (.bar off) wr) s = .next { s with dev := t } ∧
        t.out = .unsupported (4096 + h.val) wr :: s.dev.out ∧
        t.cnt 11 3 = s.dev.cnt 11 3 + 1#48 ∧ t.cnt 11 0 = s.dev.cnt 11 0 + 1#48 ∧ t.flag F.HSW_STATUS_ACL_BLOCK 0 = true ∧
        s.dev.KeepsRegs [.HSW_STATUS] t) ∧
  (∀ (s : State) (f : Func) (tag : BitVec 14) (q : BitVec 16),
      s.dev.halted = false →
      s.dev.qState q.toNat = 1 ∧ (s.dev.queue q.toNat).scan = true ∧ s.dev.flag F.WQ_Q_CFG_EQ_EN q.toNat = false →
      s.dev.part.hostPorts ≠ 0 →
      ∃ t, exec (.completionTimeout f tag (.ring q)) s = .next { s with dev := t } ∧
        t.hsw.quarantine = s.dev.hsw.quarantine ++ [(s.dev.hierOf f.num, tag.toNat, s.dev.clk.edges + twiceTimeout (Tbl.getD s.dev.hsw.cto f.num 0))] ∧
        t.out = .aer (s.dev.hierOf f.num) false :: s.dev.out ∧
        t.cnt 11 1 = s.dev.cnt 11 1 + 1#48 ∧ t.flag F.HSW_STATUS_CTO 0 = true ∧
        t.qState q.toNat = 4 ∧ (t.queue q.toNat).scan = false ∧
        s.dev.KeepsRegs [.HSW_STATUS, .WQ_Q_STATUS, .WQ_STATUS, .GLB_FAULT] t) ∧
  (∀ (s : State) (h : Hier) (tag : BitVec 14) (e : Nat),
      (h.val, tag.toNat, e) ∈ s.dev.hsw.quarantine →
      s.dev.part.hostPorts ≠ 0 →
      ∃ t, exec (.lateCompletion h tag) s = .next { s with dev := t } ∧
        t.out = .aer h.val true :: s.dev.out ∧
        t.cnt 11 2 = s.dev.cnt 11 2 + 1#48 ∧ t.flag F.HSW_STATUS_LATE_CPL 0 = true ∧
        t.hsw = s.dev.hsw ∧
        s.dev.KeepsRegs [.HSW_STATUS] t) ∧
  (∀ (s : State) (h : Hier) (tag : BitVec 14),
      s.dev.Rested →
      ∃ t, exec (.tagQuarantineEnd h tag) s = .next { s with dev := t } ∧
        (∀ x ∈ t.hsw.quarantine, x ∈ s.dev.hsw.quarantine ∧ ¬(x.1 = h.val ∧ x.2.1 = tag.toNat ∧ x.2.2 ≤ s.dev.clk.edges)) ∧
        (∀ x ∈ s.dev.hsw.quarantine, x ∈ t.hsw.quarantine ∨ (x.1 = h.val ∧ x.2.1 = tag.toNat ∧ x.2.2 ≤ s.dev.clk.edges)) ∧
        t = { s.dev with hsw := { s.dev.hsw with quarantine := t.hsw.quarantine } })

/-- Tunnels, containment and host-lane links. TUNNEL_TLP_SEND on an OPEN tunnel with room sends the record of Table 13-4 in one
PUT_IMM at the end of its area (R382, R383). TUNNEL_RECORD of a report releases bytes of the peer's area, and of a data
immediate hands the record on (R383, R384). TUNNEL_REPORT sends the bytes freed since the last report (R383).
SECONDARY_BUS_RESET resets the device behind a virtual port, or disables its link (R385). HSW_DPC contains a virtual port or a
DOWNSTREAM port, counts it and sets DPC; DPC_STATUS_CLEAR ends it (R387). HSW_LINK shows the new state of a link and raises an
event when it goes up or down (R388); a hierarchy is not ACTIVE while the link of its port is down (R374). The model's own
choices in it: assumptions 89, 90, 91. It says of each of TUNNEL_TLP_SEND (tunnelTlpSend), TUNNEL_RECORD (tunnelRecord),
TUNNEL_REPORT (tunnelReport), SECONDARY_BUS_RESET (secondaryBusReset), HSW_DPC (hswDpc), DPC_STATUS_CLEAR (dpcStatusClear) and
HSW_LINK (hswLink) that exec answers a next state, under conditions on the state and the operands alone. -/
def Obligations.TunnelsAndContainment : Prop :=
  (∀ (s : State) (k : Fin 64) (area : Fin 3) (tlp : List Byte) (w : Nat),
      s.dev.Rested →
      s.dev.halted = false ∧ s.dev.tunState k.val = 2 ∧ (s.dev.tun k.val).waiting = [] →
      s.dev.tunRoom k.val area.val (tunBytes 0 0 tlp).length = true ∧ s.dev.tunPad k.val area.val (tunBytes 0 0 tlp).length = 0 →
      w = Tbl.getD (s.dev.tun k.val).written area.val 0 →
      s.dev.part.hostPorts ≠ 0 →
      ∃ t, exec (.tunnelTlpSend k area tlp) s = .next { s with dev := t } ∧
        (t.conn (s.dev.fld F.HSW_TUN_CONN_CONN k.val)).ops = (s.dev.conn (s.dev.fld F.HSW_TUN_CONN_CONN k.val)).ops ++ [{ Op.blank (.tunnel k.val) 2 with id := s.dev.trn.nextOp, len := (tunBytes 0 0 tlp).length, roff := area.val * 65536 + w % 65536, rkey := (s.dev.tun k.val).peerKey, rgen := (s.dev.tun k.val).peerGen, imm := area.val * 2 ^ 30 + (w + (tunBytes 0 0 tlp).length) % 2 ^ 30, inl := some (tunBytes 0 0 tlp) }] ∧
        Tbl.getD (t.tun k.val).written area.val 0 = w + (tunBytes 0 0 tlp).length ∧
        t.cnt 11 5 = s.dev.cnt 11 5 + 1#48 ∧
        t = { s.dev with cnts := t.cnts, hsw := { s.dev.hsw with tuns := t.hsw.tuns }, trn := t.trn }) ∧
  (∀ (s : State) (k : Fin 64) (imm area was : Nat) (rest : List Nat),
      s.dev.Rested →
      s.dev.halted = false ∧ (s.dev.tun k.val).imms = imm :: rest ∧ (s.dev.tun k.val).waiting = [] →
      imm / 2 ^ 30 % 4 = 3 ∧ area = imm / 2 ^ 28 % 4 ∧ was = Tbl.getD (s.dev.tun k.val).released area 0 →
      ∃ t, exec (.tunnelRecord k) s = .next { s with dev := t } ∧
        (t.tun k.val).imms = rest ∧
        Tbl.getD (t.tun k.val).released area 0 = was + (imm % 2 ^ 28 + 2 ^ 28 - was % 2 ^ 28) % 2 ^ 28 ∧
        t = { s.dev with hsw := { s.dev.hsw with tuns := t.hsw.tuns } }) ∧
  (∀ (s : State) (k : Fin 64) (imm area was n : Nat) (rest : List Nat) (head : List Byte),
      s.dev.Rested →
      s.dev.halted = false ∧ (s.dev.tun k.val).imms = imm :: rest →
      area = imm / 2 ^ 30 % 4 ∧ area < 3 ∧ was = Tbl.getD (s.dev.tun k.val).announced area 0 ∧ Tbl.getD (s.dev.tun k.val).freed area 0 = was →
      n = (imm % 2 ^ 30 + 2 ^ 30 - was % 2 ^ 30) % 2 ^ 30 →
      head = (s.dev.load .hbm ((s.dev.tun k.val).base + 65536 * area + was % 65536) 8).1 →
      field head 2 1 0 8 = 0 ∧ n = 8 + (field head 0 2 0 16 + 7) / 8 * 8 →
      s.dev.part.hostPorts ≠ 0 →
      ∃ t, exec (.tunnelRecord k) s = .next { s with dev := t } ∧
        (t.tun k.val).imms = rest ∧ Tbl.getD (t.tun k.val).announced area 0 = was + n ∧ Tbl.getD (t.tun k.val).freed area 0 = was + n ∧
        t.out.tail = s.dev.out ∧ t.out.length = s.dev.out.length + 1 ∧
        t.cnt 11 6 = s.dev.cnt 11 6 + 1#48 ∧
        t = { s.dev with cnts := t.cnts, hsw := { s.dev.hsw with tuns := t.hsw.tuns }, out := t.out, free := t.free }) ∧
  (∀ (s : State) (k : Fin 64) (area : Fin 3) (f : Nat),
      s.dev.Rested →
      s.dev.halted = false ∧ s.dev.tunState k.val = 2 →
      f = Tbl.getD (s.dev.tun k.val).freed area.val 0 ∧ Tbl.getD (s.dev.tun k.val).reported area.val 0 < f →
      ∃ t, exec (.tunnelReport k area) s = .next { s with dev := t } ∧
        Tbl.getD (t.tun k.val).reported area.val 0 = f ∧
        (t.conn (s.dev.fld F.HSW_TUN_CONN_CONN k.val)).ops = (s.dev.conn (s.dev.fld F.HSW_TUN_CONN_CONN k.val)).ops ++ [{ Op.blank (.tunnel k.val) 2 with id := s.dev.trn.nextOp, imm := 3 * 2 ^ 30 + area.val * 2 ^ 28 + f % 2 ^ 28 }] ∧
        t = { s.dev with hsw := { s.dev.hsw with tuns := t.hsw.tuns }, trn := t.trn }) ∧
  (∀ (s : State) (h : Hier) (v : Fin 32) (dis : Bool) (x : Vdsp),
      s.dev.Rested →
      Tbl.get s.dev.hsw.vdsp (32 * h.val + v.val) = some x ∧ x.kind = 1 →
      ∃ t, exec (.secondaryBusReset h v dis) s = .next { s with dev := t } ∧
        (t = { s.dev with out := (if dis then .linkDisable x.a else .portReset x.a) :: s.dev.out })) ∧
  (∀ (s : State) (h : Hier) (v : Fin 32),
      2 ≤ v.val ∧ s.dev.hsw.contained.contains (32 * h.val + v.val) = false →
      s.dev.part.hostPorts ≠ 0 →
      ∃ t, exec (.hswDpc (.virt h v)) s = .next { s with dev := t } ∧
        t.hsw.contained = (32 * h.val + v.val) :: s.dev.hsw.contained ∧
        t.cnt 11 4 = s.dev.cnt 11 4 + 1#48 ∧ t.flag F.HSW_STATUS_DPC 0 = true ∧ t.flag F.GLB_FAULT_F2 0 = true ∧
        s.dev.KeepsRegs [.HSW_STATUS, .GLB_FAULT] t) ∧
  (∀ (s : State) (n : Fin 48),
      F.HSW_PORT_CFG_ROLE.ofWord (s.dev.portCfg n.val) = 2 ∧ s.dev.fld F.HSW_PORT_STATUS_STATE n.val ≠ 4 →
      s.dev.part.hostPorts ≠ 0 →
      ∃ t, exec (.hswDpc (.port n)) s = .next { s with dev := t } ∧
        t.fld F.HSW_PORT_STATUS_STATE n.val = 4 ∧
        t.cnt 11 4 = s.dev.cnt 11 4 + 1#48 ∧ t.flag F.HSW_STATUS_DPC 0 = true ∧ t.flag F.GLB_FAULT_F2 0 = true ∧
        s.dev.KeepsRegs [.HSW_PORT_STATUS, .HSW_STATUS, .GLB_FAULT] t) ∧
  (∀ (s : State) (h : Hier) (v : Fin 32),
      s.dev.Rested →
      Tbl.get s.dev.hsw.vdsp (32 * h.val + v.val) = none →
      ∃ t, exec (.dpcStatusClear (.virt h v)) s = .next { s with dev := t } ∧
        t.hsw.contained = s.dev.hsw.contained.filter (· != 32 * h.val + v.val) ∧
        t = { s.dev with hsw := { s.dev.hsw with contained := t.hsw.contained } }) ∧
  (∀ (s : State) (n : Fin 48),
      s.dev.Rested →
      s.dev.fld F.HSW_PORT_STATUS_STATE n.val = 4 →
      ∃ t, exec (.dpcStatusClear (.port n)) s = .next { s with dev := t } ∧
        t.fld F.HSW_PORT_STATUS_STATE n.val = 1 ∧
        t = { s.dev with regs := t.regs } ∧
        s.dev.KeepsRegs [.HSW_PORT_STATUS] t) ∧
  (∀ (s : State) (n : Fin 48) (l : HostLink) (h : Nat),
      (s.dev.hlRole n.val = 1 ∧ s.dev.fld F.HSW_PORT_STATUS_STATE n.val = 3 ∧ (l.state.val = 1 ∨ l.state.val = 2)) →
      F.HSW_PORT_CFG_HIER.ofWord (s.dev.portCfg n.val) = h ∧ (s.dev.upstreams h).head? = some n.val →
      s.dev.fld F.HSW_PORT_STATUS_TUNNEL n.val = 0x7F ∧ s.dev.sharers n.val = [] →
      ∃ t, exec (.hswLink n l) s = .next { s with dev := t } ∧
        t.fld F.HSW_PORT_STATUS_STATE n.val = l.state.val ∧
        t.hierActive h = false ∧ t.flag F.HSW_HIER_READY h = false ∧
        t.hsw = s.dev.hsw ∧
        s.dev.KeepsRegs [.HSW_PORT_STATUS, .HSW_HIER] t) ∧
  (∀ (s : State) (n : Fin 48) (l : HostLink),
      s.dev.hlRole n.val = 2 ∧ s.dev.fld F.HSW_PORT_STATUS_STATE n.val ≠ 4 ∧ l.state.val ≠ 0 →
      s.dev.tunState (s.dev.fld F.HSW_PORT_STATUS_TUNNEL n.val) ≠ 2 ∧ s.dev.sharers n.val = [] →
      ∃ t, exec (.hswLink n l) s = .next { s with dev := t } ∧
        t.fld F.HSW_PORT_STATUS_STATE n.val = l.state.val ∧ t.fld F.HSW_PORT_STATUS_RATE n.val = l.rate.toNat ∧ t.fld F.HSW_PORT_STATUS_WIDTH n.val = l.width.toNat ∧
        t.flag F.HSW_PORT_STATUS_CXL n.val = l.cxl ∧ t.flag F.HSW_PORT_STATUS_FLIT n.val = l.flit ∧ t.flag F.HSW_PORT_STATUS_REVERSED n.val = l.reversed ∧
        t.hsw = s.dev.hsw ∧
        s.dev.KeepsRegs [.HSW_PORT_STATUS] t)

/-- Dispatches, engine faults and resets. DISPATCH_START starts the first ready item of a hedgerow that is not parked on its
lowest-numbered idle engine when the grant covers its cost: the engine is BUSY, the cost is charged and the dispatch counted;
without the grant the item stays and its wait is counted once (R404, R420). What packages declare retained stays in the local
memory of that engine (R406). DISPATCH_END of a handler that has stored one byte in local memory and makes no memory access
leaves that byte there, and no other, and frees the engine (R405, R406). ENG_FAULT and DISPATCH_WATCHDOG stop the engine, record
the fault, and put it in reset (R405, R408, R409); a corrected error of local memory is a class F1 fault and stops nothing
(R406). ENGINE_RESET_DONE counts the reset, clears local memory and the unlocked translation entries of the engine, and lets it
take work (R409). HANDLER_TIMER queues a work item of an ENABLED package (R403). The model's own choices in it: assumptions 94,
95, 96. It says of each of DISPATCH_START (dispatchStart), DISPATCH_END (dispatchEnd), ENG_FAULT (engFault), DISPATCH_WATCHDOG
(dispatchWatchdog), ENGINE_RESET_DONE (engineResetDone) and HANDLER_TIMER (handlerTimer) that exec answers a next state, under
conditions on the state and the operands alone. -/
def Obligations.EngineDispatches : Prop :=
  (∀ (s : State) (h : Hedge) (cls : Fin 16) (i e cost : Nat) (x : Item),
      s.dev.Rested →
      (s.dev.dispatchQ h.val).findIdx? (·.ready) = some i ∧ (s.dev.dispatchQ h.val)[i]? = some x →
      s.dev.idleEngine h.val = some e →
      s.dev.fld F.PWR_HR_STATE h.val ≠ 0 →
      Tbl.get s.dev.pwr.hrCap h.val = none →
      cost = s.dev.dispatchCost h.val x.slot cls.val ∧ cost ≤ Tbl.getD s.dev.pwr.cap 0 0 ∧ cost ≤ Tbl.getD s.dev.pwr.grant 8 0 →
      ∃ t, exec (.dispatchStart h cls) s = .next { s with dev := t } ∧
        t.dispatchQ h.val = (s.dev.dispatchQ h.val).eraseIdx i ∧
        Tbl.get t.eng.running e = some (x, 0) ∧
        t.engBit e 0 = true ∧
        Tbl.getD t.pwr.grant 8 0 = Tbl.getD s.dev.pwr.grant 8 0 - cost ∧ t.pwr.charged = s.dev.pwr.charged + cost ∧
        t.cnt 12 0 = s.dev.cnt 12 0 + 1#48 ∧
        t = { s.dev with regs := t.regs, cnts := t.cnts, eng := t.eng, pwr := t.pwr, free := t.free } ∧
        (∀ a, s.dev.retained a = true → t.lmByte e a = s.dev.lmByte e a) ∧
        s.dev.KeepsRegs [.PWR_HR, .ENG_HR_ENG] t) ∧
  (∀ (s : State) (h : Hedge) (cls : Fin 16) (i e : Nat) (x : Item),
      s.dev.Rested →
      (s.dev.dispatchQ h.val).findIdx? (·.ready) = some i ∧ (s.dev.dispatchQ h.val)[i]? = some x ∧ x.waited = false →
      s.dev.idleEngine h.val = some e →
      s.dev.fld F.PWR_HR_STATE h.val ≠ 0 →
      s.dev.spendDispatch h.val (s.dev.dispatchCost h.val x.slot cls.val) = none →
      ∃ t, exec (.dispatchStart h cls) s = .next { s with dev := t } ∧
        t.dispatchQ h.val = (s.dev.dispatchQ h.val).set i { x with waited := true } ∧
        t.cnt 12 1 = s.dev.cnt 12 1 + 1#48 ∧
        t.eng.running = s.dev.eng.running ∧ t.pwr = s.dev.pwr ∧
        s.dev.KeepsRegs [.PWR_HR] t) ∧
  (∀ (s : State) (e : Fin 1024) (st : Byte) (a : BitVec 16) (b : Byte) (x : Item) (at_ : Nat),
      s.dev.Rested →
      Tbl.get s.dev.eng.running e.val = some (x, at_) ∧ x.src ≠ 1 ∧ Tbl.get s.dev.eng.ending e.val = none →
      s.dev.pkgState x.slot ≠ 3 →
      ∃ t, exec (.dispatchEnd e ⟨st, [(a, b)], []⟩) s = .next { s with dev := t } ∧
        Tbl.get t.eng.running e.val = none ∧ t.engBit e.val 0 = false ∧
        t.lmByte e.val a.toNat = b ∧
        t = { s.dev with regs := t.regs, eng := { s.dev.eng with running := t.eng.running, ending := t.eng.ending, lm := t.eng.lm }, xlt := { s.dev.xlt with wait := t.xlt.wait } } ∧
        s.dev.KeepsRegs [.ENG_HR_ENG] t ∧
        (∀ n, n ≠ a.toNat → t.lmByte e.val n = s.dev.lmByte e.val n)) ∧
  (∀ (s : State) (e : Fin 1024) (cause : Fin 7) (x : Item) (at_ : Nat),
      Tbl.get s.dev.eng.running e.val = some (x, at_) ∧ x.src = 2 ∧ x.slot < 6 ∧ cause.val ≠ 0 →
      s.dev.locks = [] ∧ s.dev.pkgState x.slot ≠ 3 ∧ s.dev.engBit e.val 16 = false →
      Tbl.getD s.dev.eng.faults e.val [] = [] ∧ 2 ≤ s.dev.fld F.ENG_CFG_RETIRE_AFTER 0 →
      s.dev.flag F.ENG_FAULT_INFO_VALID 0 = false →
      ∃ t, exec (.engFault e cause) s = .next { s with dev := t } ∧
        Tbl.get t.eng.running e.val = none ∧ t.engBit e.val 0 = false ∧ t.engBit e.val 16 = false ∧
        t.eng.resets = s.dev.eng.resets ++ [e.val] ∧
        t.rd .ENG_FAULT_INFO 0 = BitVec.ofNat 32 (2 ^ 31 + x.slot * 2 ^ 24 + cause.val * 2 ^ 20 + e.val) ∧
        t.cnt 12 2 = s.dev.cnt 12 2 + 1#48 ∧ t.flag F.ENG_STATUS_FAULT 0 = true ∧ t.flag F.GLB_FAULT_F2 0 = true ∧
        s.dev.KeepsRegs [.ENG_HR_ENG, .ENG_FAULT_INFO, .ENG_FAULT_TICK_LO, .ENG_FAULT_TICK_HI, .ENG_STATUS, .GLB_FAULT] t) ∧
  (∀ (s : State) (e : Fin 1024),
      s.dev.Rested →
      ∃ t, exec (.engFault e 0) s = .next { s with dev := t } ∧
        t.flag F.GLB_FAULT_F1 0 = true ∧
        t.eng = s.dev.eng ∧
        s.dev.KeepsRegs [.GLB_FAULT] t) ∧
  (∀ (s : State) (e : Fin 1024) (x : Item) (at_ : Nat),
      Tbl.get s.dev.eng.running e.val = some (x, at_) ∧ x.src = 2 ∧ x.slot < 6 →
      1024 * max 1 (s.dev.fld F.ENG_CFG_CYCLE_MAX 0) < at_ + s.dev.hrCycles (e.val / 16) →
      s.dev.locks = [] ∧ s.dev.pkgState x.slot ≠ 3 ∧ s.dev.engBit e.val 16 = false →
      Tbl.getD s.dev.eng.faults e.val [] = [] ∧ 2 ≤ s.dev.fld F.ENG_CFG_RETIRE_AFTER 0 →
      s.dev.flag F.ENG_FAULT_INFO_VALID 0 = false →
      ∃ t, exec (.dispatchWatchdog e) s = .next { s with dev := t } ∧
        Tbl.get t.eng.running e.val = none ∧ t.engBit e.val 0 = false ∧
        t.eng.resets = s.dev.eng.resets ++ [e.val] ∧
        t.rd .ENG_FAULT_INFO 0 = BitVec.ofNat 32 (2 ^ 31 + x.slot * 2 ^ 24 + 2 ^ 20 + e.val) ∧
        t.cnt 12 2 = s.dev.cnt 12 2 + 1#48 ∧
        s.dev.KeepsRegs [.ENG_HR_ENG, .ENG_FAULT_INFO, .ENG_FAULT_TICK_LO, .ENG_FAULT_TICK_HI, .ENG_STATUS, .GLB_FAULT] t) ∧
  (∀ (s : State) (e : Fin 1024),
      s.dev.Rested →
      s.dev.eng.resets.contains e.val = true →
      ∃ t, exec (.engineResetDone e) s = .next { s with dev := t } ∧
        t.eng.resets = s.dev.eng.resets.filter (· != e.val) ∧
        t.cnt 12 3 = s.dev.cnt 12 3 + 1#48 ∧
        Tbl.get t.xlt.itlb e.val = none ∧ Tbl.get t.xlt.dtlb e.val = none ∧
        t = { s.dev with cnts := t.cnts, eng := { s.dev.eng with resets := t.eng.resets, lm := t.eng.lm }, xlt := { s.dev.xlt with itlb := t.xlt.itlb, dtlb := t.xlt.dtlb } } ∧
        (∀ a, t.lmByte e.val a = 0#8)) ∧
  (∀ (s : State) (k : Fin 6) (h : Nat),
      s.dev.Rested →
      s.dev.pkgState k.val = 2 ∧ s.dev.itemHr k.val = some h ∧ (s.dev.dispatchQ h).length < 256 →
      ∃ t, exec (.handlerTimer k) s = .next { s with dev := t } ∧
        t.dispatchQ h = s.dev.dispatchQ h ++ [{ slot := k.val, src := 2, a := 0, b := 0, ready := true, waited := false }] ∧
        t.fld F.PWR_HR_QUEUE h = (s.dev.dispatchQ h).length + 1 ∧
        t = { s.dev with regs := t.regs, eng := { s.dev.eng with queues := t.eng.queues }, pwr := { s.dev.pwr with wake := t.pwr.wake } } ∧
        s.dev.KeepsRegs [.PWR_HR] t)

/-- Hedgerows ramping, waking and parking. RAMP_DONE after 8 ticks in RAMP puts the hedgerow in F16 (R421). HEDGEROW_WAKE of a
parked hedgerow that is wanted makes it run at F12 (R422). FORCE_PARK by a function at L0 on a hedgerow that nothing needs is
stored, to park it at the next edge; on one that is needed it is refused with STATE_WRITE (R422). The model's own choices in it:
assumption 35. It says of each of RAMP_DONE (rampDone), HEDGEROW_WAKE (hedgerowWake) and FORCE_PARK (forcePark) that exec
answers a next state, under conditions on the state and the operands alone. -/
def Obligations.HedgerowStates : Prop :=
  (∀ (s : State) (h : Hedge),
      s.dev.Rested →
      s.dev.fld F.PWR_HR_STATE h.val = 3 ∧ Tbl.getD s.dev.pwr.ramp h.val 0 + 8 ≤ s.dev.clk.edges →
      ∃ t, exec (.rampDone h) s = .next { s with dev := t } ∧
        t.fld F.PWR_HR_STATE h.val = 2 ∧
        t = { s.dev with regs := t.regs, pwr := { s.dev.pwr with ramp := Tbl.erase s.dev.pwr.ramp h.val } } ∧
        s.dev.KeepsRegs [.PWR_HR] t) ∧
  (∀ (s : State) (h : Hedge),
      s.dev.Rested →
      s.dev.fld F.PWR_HR_STATE h.val = 0 ∧ Tbl.get s.dev.pwr.wake h.val ≠ none →
      ∃ t, exec (.hedgerowWake h) s = .next { s with dev := t } ∧
        t.fld F.PWR_HR_STATE h.val = 1 ∧
        Tbl.get t.pwr.wake h.val = none ∧
        t = { s.dev with regs := t.regs, pwr := { s.dev.pwr with wake := t.pwr.wake, idle := t.pwr.idle } } ∧
        s.dev.KeepsRegs [.PWR_HR] t) ∧
  (∀ (s : State) (src : Src) (h : Hedge),
      s.dev.Rested →
      s.dev.level src = 0 →
      s.dev.hrNeeded h.val = false →
      ∃ t, exec (.forcePark src h) s = .next { s with dev := t } ∧
        t.flag F.PWR_HR_FORCE_PARK h.val = true ∧
        t.pwr.force.contains h.val = true ∧
        t.fld F.PWR_HR_STATE h.val = s.dev.fld F.PWR_HR_STATE h.val ∧ t.fld F.PWR_HR_MAX_STATE h.val = s.dev.fld F.PWR_HR_MAX_STATE h.val ∧
        t = { s.dev with regs := t.regs, pwr := { s.dev.pwr with force := t.pwr.force } } ∧
        s.dev.KeepsRegs [.PWR_HR] t) ∧
  (∀ (s : State) (src : Src) (h : Hedge),
      s.dev.Rested →
      s.dev.level src = 0 →
      s.dev.hrNeeded h.val = true →
      ∃ t, exec (.forcePark src h) s = .next { s with dev := t } ∧
        t.flag F.GLB_ERR_STATE_WRITE src.fn = true ∧
        t.flag F.PWR_HR_FORCE_PARK h.val = s.dev.flag F.PWR_HR_FORCE_PARK h.val ∧
        t = { s.dev with regs := t.regs } ∧
        s.dev.KeepsRegs [.PWR_HR, .GLB_ERR, .GLB_ERR_ADDR] t)

/-- The queued locks. ACQUIRE grants a free lock at once, and puts the requester among the waiters of a held one while fewer than 32
wait (R441, Table 15-12). RELEASE by the holder passes the lock to the waiter of the highest priority, the lowest number among
those, or frees it (R442). FORCE_RELEASE takes the lock from the named holder and passes it on; CLEAR_POISON clears POISON
(R441). It says of each of ACQUIRE (acquire), RELEASE (release), FORCE_RELEASE (forceRelease) and CLEAR_POISON (clearPoison)
that exec answers a next state, under conditions on the state and the operands alone. -/
def Obligations.QueuedLocks : Prop :=
  (∀ (s : State) (src : Src) (l : Fin 4096) (prio : Fin 8),
      s.dev.Rested →
      s.dev.mayLock src l.val = true →
      (s.dev.lockOf l.val).holder = none →
      ∃ t, exec (.acquire src l prio) s = .next { s with dev := t } ∧
        (t.lockOf l.val).holder = some (lockRequester src) ∧
        (Tbl.getD (t.lockOf l.val).last (lockRequester src) 0 = if (s.dev.lockOf l.val).poison then 4 else 1) ∧
        t = { s.dev with locks := t.locks } ∧
        (∀ k, k ≠ l.val → t.lockOf k = s.dev.lockOf k)) ∧
  (∀ (s : State) (src : Src) (l : Fin 4096) (prio : Fin 8) (h : Nat),
      s.dev.Rested →
      s.dev.mayLock src l.val = true →
      (s.dev.lockOf l.val).holder = some h ∧ h ≠ lockRequester src →
      (∀ w ∈ (s.dev.lockOf l.val).waiters, w.1 ≠ lockRequester src) →
      (s.dev.lockOf l.val).waiters.length < 32 →
      ∃ t, exec (.acquire src l prio) s = .next { s with dev := t } ∧
        (t.lockOf l.val).holder = some h ∧
        (t.lockOf l.val).waiters = (s.dev.lockOf l.val).waiters ++ [(lockRequester src, prio.val)] ∧
        Tbl.getD (t.lockOf l.val).last (lockRequester src) 0 = 2 ∧
        t = { s.dev with locks := t.locks } ∧
        (∀ k, k ≠ l.val → t.lockOf k = s.dev.lockOf k)) ∧
  (∀ (s : State) (src : Src) (l : Fin 4096) (w : Nat × Nat),
      s.dev.Rested →
      s.dev.mayLock src l.val = true →
      (s.dev.lockOf l.val).holder = some (lockRequester src) →
      (w ∈ (s.dev.lockOf l.val).waiters ∧ ∀ x ∈ (s.dev.lockOf l.val).waiters, x = w ∨ x.2 < w.2 ∨ (x.2 = w.2 ∧ w.1 < x.1)) →
      ∃ t, exec (.release src l) s = .next { s with dev := t } ∧
        (t.lockOf l.val).holder = some w.1 ∧
        (∀ x ∈ (t.lockOf l.val).waiters, x.1 ≠ w.1) ∧
        Tbl.getD (t.lockOf l.val).last (lockRequester src) 0 = 0 ∧
        t = { s.dev with locks := t.locks } ∧
        (∀ k, k ≠ l.val → t.lockOf k = s.dev.lockOf k)) ∧
  (∀ (s : State) (src : Src) (l : Fin 4096),
      s.dev.Rested →
      s.dev.mayLock src l.val = true →
      (s.dev.lockOf l.val).holder = some (lockRequester src) ∧ (s.dev.lockOf l.val).waiters = [] →
      ∃ t, exec (.release src l) s = .next { s with dev := t } ∧
        (t.lockOf l.val).holder = none ∧
        Tbl.getD (t.lockOf l.val).last (lockRequester src) 0 = 0 ∧
        t = { s.dev with locks := t.locks } ∧
        (∀ k, k ≠ l.val → t.lockOf k = s.dev.lockOf k)) ∧
  (∀ (s : State) (src : Src) (l : Fin 4096) (target : BitVec 13),
      s.dev.mayLock src l.val = true ∧ s.dev.mayForce src target.toNat = true →
      (s.dev.lockOf l.val).holder = some target.toNat ∧ (s.dev.lockOf l.val).waiters = [] →
      ∃ t, exec (.forceRelease src l target) s = .next { s with dev := t } ∧
        (t.lockOf l.val).holder = none ∧
        Tbl.getD (t.lockOf l.val).last (lockRequester src) 0 = 0 ∧
        (∀ k, k ≠ l.val → t.lockOf k = s.dev.lockOf k) ∧
        s.dev.KeepsRegs [] t) ∧
  (∀ (s : State) (src : Src) (l : Fin 4096),
      s.dev.Rested →
      s.dev.mayLock src l.val = true ∧ s.dev.level src ≤ 1 →
      ∃ t, exec (.clearPoison src l) s = .next { s with dev := t } ∧
        (t.lockOf l.val).poison = false ∧ (t.lockOf l.val).holder = (s.dev.lockOf l.val).holder ∧ (t.lockOf l.val).waiters = (s.dev.lockOf l.val).waiters ∧
        t = { s.dev with locks := t.locks } ∧
        (∀ k, k ≠ l.val → t.lockOf k = s.dev.lockOf k))

/-- The states of a mailbox channel. A doorbell on an IDLE channel with a window takes the first NWORDS request words (0 and above
16 act as 16) as the snapshot, clears the acknowledgement and makes the channel PENDING; while the control complex does not run
it is answered BUSY at once; on a channel that is not IDLE it is refused with STATE_WRITE (R429, R432). CONSUME with the
result's SEQ makes the channel IDLE, and with another SEQ it is refused with STATE_WRITE (R431). COMMAND_FINISH writes the
result of a command that has ended: RESULT_VALID, its code and its words (R429). MBX_BULK_OWN by a physical function hands pages
to firmware and takes none back (R434). The model's own choices in it: assumptions 100, 101. It says of each of MBX_DOORBELL
(mbxDoorbell), MBX_CONSUME (mbxConsume), COMMAND_FINISH (commandFinish) and MBX_BULK_OWN (mbxBulkOwn) that exec answers a next
state, under conditions on the state and the operands alone. -/
def Obligations.MailboxChannels : Prop :=
  (∀ (s : State) (ch : Chan) (v : Word) (n : Nat),
      s.dev.hasWindow ch.val = true →
      s.dev.ccRuns = true →
      s.dev.mbxState ch.val = 0 →
      (n = (if v.toNat % 32 = 0 ∨ 16 < v.toNat % 32 then 16 else v.toNat % 32)) →
      ∃ t, exec (.mbxDoorbell ch v) s = .next { s with dev := t } ∧
        t.mbxState ch.val = 1 ∧
        t.mbxSeq ch.val = v.toNat / 2 ^ 16 % 2 ^ 16 ∧
        (Tbl.get t.mbx.req ch.val = some (((List.range 16).map fun i => s.dev.rd .MBX_A (16 * ch.val + i)).take n)) ∧
        t.flag F.MBX_ACK_VALID ch.val = false ∧
        t.fld F.MBX_RESULT_RESULT_VALID ch.val = 0 ∧
        s.dev.KeepsRegs [.MBX_ACK, .MBX_RESULT] t) ∧
  (∀ (s : State) (ch : Chan) (v : Word),
      s.dev.hasWindow ch.val = true →
      s.dev.ccRuns = false →
      s.dev.mbxState ch.val = 0 →
      ∃ t, exec (.mbxDoorbell ch v) s = .next { s with dev := t } ∧
        t.mbxState ch.val = 3 ∧ t.fld F.MBX_RESULT_RC ch.val = 2 ∧ t.fld F.MBX_RESULT_SEQ ch.val = v.toNat / 2 ^ 16) ∧
  (∀ (s : State) (ch : Chan) (v : Word),
      s.dev.Rested →
      s.dev.hasWindow ch.val = true →
      s.dev.mbxState ch.val ≠ 0 →
      ∃ t, exec (.mbxDoorbell ch v) s = .next { s with dev := t } ∧
        t.flag F.GLB_ERR_STATE_WRITE ch.val = true ∧
        t = { s.dev with regs := t.regs } ∧
        s.dev.KeepsRegs [.GLB_ERR, .GLB_ERR_ADDR] t) ∧
  (∀ (s : State) (ch : Chan) (v : Word),
      s.dev.Rested →
      s.dev.hasWindow ch.val = true →
      s.dev.mbxState ch.val = 3 →
      ∃ t, exec (.mbxConsume ch v) s = .next { s with dev := t } ∧
        (v.toNat / 2 ^ 16 = s.dev.mbxSeq ch.val → t.rd .MBX_RESULT ch.val = 0#32 ∧ t.mbxState ch.val = 0) ∧
        (v.toNat / 2 ^ 16 ≠ s.dev.mbxSeq ch.val → t.mbxState ch.val = 3 ∧ t.flag F.GLB_ERR_STATE_WRITE ch.val = true) ∧
        t = { s.dev with regs := t.regs } ∧
        s.dev.KeepsRegs [.MBX_RESULT, .GLB_ERR, .GLB_ERR_ADDR] t) ∧
  (∀ (s : State) (ch : Chan) (rc : Nat) (ws : List Word),
      s.dev.Rested →
      s.dev.ccRuns = true →
      ch.val < 4160 →
      s.dev.mbxState ch.val = 2 →
      Tbl.get s.dev.mbx.outcome ch.val = some (rc, ws) →
      rc < 256 →
      s.dev.mbxSeq ch.val < 65536 →
      ∃ t, exec (.commandFinish ch) s = .next { s with dev := t } ∧
        t.mbxState ch.val = 3 ∧
        t.fld F.MBX_RESULT_RC ch.val = rc ∧
        t.fld F.MBX_RESULT_SEQ ch.val = s.dev.mbxSeq ch.val ∧
        (∀ i ∈ List.range 16, t.rd .MBX_B (16 * ch.val + i) = ws.getD i 0#32) ∧
        Tbl.get t.mbx.outcome ch.val = none ∧
        t = { s.dev with regs := t.regs, mbx := { s.dev.mbx with outcome := t.mbx.outcome } } ∧
        s.dev.KeepsRegs [.MBX_RESULT, .MBX_B] t) ∧
  (∀ (s : State) (h : Fin 24) (i : Fin 8) (v : Word),
      s.dev.Rested →
      s.dev.level (.pf h) ≠ 3 →
      ∃ t, exec (.mbxBulkOwn (.pf h) i v) s = .next { s with dev := t } ∧
        t.rd .MBX_BULK_OWN (8 * (4096 + h.val) + i.val) = s.dev.rd .MBX_BULK_OWN (8 * (4096 + h.val) + i.val) ||| v ∧
        t = { s.dev with regs := t.regs } ∧
        s.dev.KeepsRegs [.MBX_BULK_OWN] t)

/-- The BMC and peer control complexes. A BMC request on the channel bound to its endpoint makes that channel PENDING with its words
(R427, R428). PEER_REQ as a request of this device is sent once and remembered; as an arriving one with a higher term it makes
the channel bound to its device PENDING and stores the term (R161, R440). PEER_RESULT with the awaited SEQ stores the answer,
and PEER_REQ_RESEND sends an unanswered request again 1,562 ticks after the last send, and after 8 sends answers it BUSY (R440).
The model's own choices in it: assumptions 101, 102, 103, 149. It says of each of BMC_MESSAGE (bmcMessage), PEER_REQ (peerReq),
PEER_RESULT (peerResult) and PEER_REQ_RESEND (peerReqResend) that exec answers a next state, under conditions on the state and
the operands alone. -/
def Obligations.MessagesOfPeers : Prop :=
  (∀ (s : State) (eid : Byte) (w : Word) (ws : List Word),
      s.dev.ccRuns = true →
      Tbl.get s.dev.mbx.bound 4160 = some eid.toNat →
      s.dev.mbxState 4160 = 0 →
      1 ≤ w.toNat % 32 ∧ w.toNat % 32 ≤ 16 →
      ∃ t, exec (.bmcMessage eid (.request (w :: ws))) s = .next { s with dev := t } ∧
        t.mbxState 4160 = 1 ∧
        t.mbxSeq 4160 = w.toNat / 2 ^ 16 ∧
        Tbl.get t.mbx.req 4160 = some (ws.take (w.toNat % 32)) ∧
        s.dev.KeepsRegs [.MBX_ACK, .MBX_RESULT] t) ∧
  (∀ (s : State) (dev : BitVec 17) (n : BitVec 16) (ws : List Word),
      s.dev.Rested →
      s.dev.ccRuns = true →
      s.dev.peerWaits dev.toNat = false →
      ∃ t, exec (.peerReq (.issue dev n ws)) s = .next { s with dev := t } ∧
        (Tbl.get t.mbx.peerOut dev.toNat).map (fun r => (r.seq, r.sends, r.at_, r.answer)) = some (n.toNat, 1, s.dev.clk.edges, none) ∧
        (Tbl.getD t.inj 156 []).length = (Tbl.getD s.dev.inj 156 []).length + 1 ∧
        t = { s.dev with inj := t.inj, mbx := { s.dev.mbx with peerOut := t.mbx.peerOut } }) ∧
  (∀ (s : State) (q : Fin 32) (x : StPkt),
      s.dev.halted = false →
      s.dev.ccRuns = true →
      Tbl.getD s.dev.swc.stage (128 + q.val) [] = [x] →
      x.q.pkt.cells ≤ x.arrived →
      x.q.pkt.kind = 0x11 →
      x.q.pkt.isDirect = false →
      x.q.pkt.subkind = 2 →
      x.q.pkt.e2e = x.q.pkt.e2eOf →
      s.dev.fld F.RTE_TERM_TERM 0 < x.q.pkt.ta 32 32 →
      Tbl.get s.dev.mbx.bound 4192 = some (devOf x.q.pkt.src) →
      s.dev.mbxState 4192 = 0 →
      ∃ t, exec (.peerReq (.arrive q)) s = .next { s with dev := t } ∧
        t.mbxState 4192 = 1 ∧
        t.fld F.RTE_TERM_TERM 0 = x.q.pkt.ta 32 32 ∧
        4192 ∉ t.mbx.termBad ∧
        t.mbxSeq 4192 = ((bytesWords x.q.pkt.data).getD 0 0#32).toNat / 2 ^ 16 ∧
        Tbl.getD t.swc.stage (128 + q.val) [] = []) ∧
  (∀ (s : State) (q : Fin 32) (x : StPkt) (r : PeerReq),
      s.dev.Rested →
      s.dev.halted = false →
      s.dev.ccRuns = true →
      Tbl.getD s.dev.swc.stage (128 + q.val) [] = [x] →
      x.q.pkt.cells ≤ x.arrived →
      x.q.pkt.kind = 0x11 →
      x.q.pkt.isDirect = false →
      x.q.pkt.subkind = 3 →
      x.q.pkt.e2e = x.q.pkt.e2eOf →
      Tbl.get s.dev.mbx.peerOut (devOf x.q.pkt.src) = some r →
      r.answer = none →
      r.seq = ((bytesWords x.q.pkt.data).getD 0 0#32).toNat % 2 ^ 16 →
      ∃ t, exec (.peerResult q) s = .next { s with dev := t } ∧
        Tbl.get t.mbx.peerOut (devOf x.q.pkt.src) = some { r with answer := some (bytesWords x.q.pkt.data) } ∧
        t = { s.dev with swc := { s.dev.swc with stage := t.swc.stage }, mbx := { s.dev.mbx with peerOut := t.mbx.peerOut } }) ∧
  (∀ (s : State) (k : BitVec 18) (r : PeerReq),
      s.dev.Rested →
      s.dev.ccRuns = true →
      Tbl.get s.dev.mbx.peerOut k.toNat = some r →
      r.answer = none →
      r.at_ + 1562 ≤ s.dev.clk.edges →
      r.seq < 65536 →
      ∃ t, exec (.peerReqResend k) s = .next { s with dev := t } ∧
        (r.sends < 8 → Tbl.get t.mbx.peerOut k.toNat = some { r with sends := r.sends + 1, at_ := s.dev.clk.edges, now := false }) ∧
        (r.sends < 8 → r.route = [] → (Tbl.getD t.inj 156 []).length = (Tbl.getD s.dev.inj 156 []).length + 1) ∧
        (8 ≤ r.sends → ((Tbl.get t.mbx.peerOut k.toNat).bind (·.answer)).map (fun a => (a.getD 0 0#32).toNat / 2 ^ 16 % 256) = some 2) ∧
        t = { s.dev with inj := t.inj, link := t.link, mbx := { s.dev.mbx with peerOut := t.mbx.peerOut } })

/-- Commands to describe, to read and write registers, on power and on resources. DESCRIBE answers each of its pages and refuses
others with BAD_ARGUMENT (R3, R436). REG_READ answers the word that firmware reads; REG_WRITE of a tick-aligned register stages
the masked bits; an offset that is no word of the window is BAD_ARGUMENT. POWER_LIMIT stages the limit for the boundary after
next, and POWER_QUERY answers the power registers (R417, R425). RES_ASSIGN gives idle resources to a function and RES_RELEASE
takes them back (R436, R540, R541). A command at a level that Table 15-5 does not name is DENIED and changes nothing (R433). The
model's own choices in it: assumptions 14, 18, 103, 104, 136, 137. It says of each of DESCRIBE (describe), REG_READ (regRead),
REG_WRITE (regWrite), POWER_LIMIT (powerLimit), POWER_QUERY (powerQuery), RES_ASSIGN (resAssign) and RES_RELEASE (resRelease)
that exec answers a next state, under conditions on the state and the operands alone. -/
def Obligations.GeneralCommands : Prop :=
  (∀ (s : State) (ch : Chan),
      s.dev.Rested →
      s.dev.Asks ch 1 [0, 1, 2] →
      ∃ t, exec (.describe ch) s = .next { s with dev := t } ∧
        (s.dev.arg ch.val 1 = 0 → t.Answered ch 0 [word s.dev.part.codeNum, s.dev.part.glbCaps0, s.dev.part.glbCaps1, s.dev.rd .GLB_FW_VERSION 0, s.dev.rd .RTE_ID 0, Config.vendorId.setWidth 32]) ∧
        (s.dev.arg ch.val 1 = 1 → t.Answered ch 0 (bytesWords ((List.range 32).map fun e => BitVec.ofNat 8 (s.dev.fld F.RTE_EP_PORT e)))) ∧
        (s.dev.arg ch.val 1 = 2 ∧ s.dev.arg ch.val 2 < 6 → t.Answered ch 0 [s.dev.rd .ENG_PKG_ID (s.dev.arg ch.val 2), word (s.dev.fld F.ENG_PKG_STATUS_ENDPOINT (s.dev.arg ch.val 2)), s.dev.rd .ENG_PKG_HR_LO (s.dev.arg ch.val 2), s.dev.rd .ENG_PKG_HR_HI (s.dev.arg ch.val 2)]) ∧
        (3 < s.dev.arg ch.val 1 → t.Answered ch 4 []) ∧
        s.dev.ReplyOnly t ∧
        s.dev.KeepsRegs mailRegs t) ∧
  (∀ (s : State) (ch : Chan) (e kind gib own : Nat),
      s.dev.Rested →
      s.dev.Asks ch 1 [0, 1, 2] →
      s.dev.arg ch.val 1 = 3 →
      s.dev.mbr.sources[s.dev.arg ch.val 2]? = some (e, kind, gib, own) →
      ∃ t, exec (.describe ch) s = .next { s with dev := t } ∧
        t.Answered ch 0 [word kind, word (e + (s.dev.protAt s.dev.tickNow e).tag * 2 ^ 17), word (s.dev.protAt s.dev.tickNow e).gen, word gib] ∧
        s.dev.ReplyOnly t ∧
        s.dev.KeepsRegs mailRegs t) ∧
  (∀ (s : State) (ch : Chan),
      s.dev.Rested →
      s.dev.Asks ch 4 [0] →
      ∃ t, exec (.regRead ch) s = .next { s with dev := t } ∧
        (s.dev.arg ch.val 1 < 0x2000000 ∧ s.dev.arg ch.val 1 % 4 = 0 → t.Answered ch 0 [(s.dev.readWord 4224 (s.dev.arg ch.val 1)).1]) ∧
        (0x2000000 ≤ s.dev.arg ch.val 1 ∨ s.dev.arg ch.val 1 % 4 ≠ 0 → t.Answered ch 4 []) ∧
        ({ s.dev with shadow := t.shadow, free := t.free }).ReplyOnly t ∧
        s.dev.KeepsRegs mailRegs t) ∧
  (∀ (s : State) (ch : Chan) (late : Bool) (off c : Nat) (r : Reg),
      s.dev.Rested →
      s.dev.col.grps = [] →
      s.dev.col.downs = [] →
      s.dev.halted = false →
      s.dev.Asks ch 5 [0] →
      s.dev.arg ch.val 1 = off →
      off < 0x2000000 ∧ off % 4 = 0 →
      counterAt off = none →
      (off < 0xB00000 ∨ inTables (off - 0xB00000) = false) →
      (off < 0x400000 ∨ 0x404000 ≤ off) →
      regAt off = some (r, c) →
      r.home = .device →
      r.absent s.dev.part c = false →
      tickAligned r c ≠ none →
      Tbl.get s.dev.clk.holdAt 4224 = none →
      ∃ t, exec (.regWrite ch late) s = .next { s with dev := t } ∧
        t.Answered ch 0 [] ∧
        (t.clk.staged.getLast? = some { due := some (s.dev.clk.edges + (if late then 2 else 1)), fn := 4224, act := .reg r c (BitVec.ofNat 32 (s.dev.arg ch.val 2)) (BitVec.ofNat 32 (s.dev.arg ch.val 3)) }) ∧
        ({ s.dev with clk := { s.dev.clk with staged := t.clk.staged } }).ReplyOnly t ∧
        s.dev.KeepsRegs mailRegs t) ∧
  (∀ (s : State) (ch : Chan),
      s.dev.Rested →
      s.dev.ccRuns = true →
      s.dev.mbxState ch.val = 1 →
      s.dev.arg ch.val 0 = 6 →
      (s.dev.chLevel ch.val = 0 ∨ (4160 ≤ ch.val ∧ ch.val < 4176)) →
      Tbl.get s.dev.clk.holdAt 4224 = none →
      ∃ t, exec (.powerLimit ch) s = .next { s with dev := t } ∧
        t.Answered ch 0 [word (min 560 (max 150 (s.dev.arg ch.val 1))), s.dev.clk.tick.setWidth 32, (s.dev.clk.tick >>> 32).setWidth 32] ∧
        t.clk.staged.getLast? = some { due := some (s.dev.clk.edges + 2), fn := 4224, act := .reg .PWR_LIMIT 0 (word (min (s.dev.arg ch.val 1) 1023)) F.PWR_LIMIT_WATTS.mask } ∧
        ({ s.dev with clk := { s.dev.clk with staged := t.clk.staged } }).ReplyOnly t ∧
        s.dev.KeepsRegs mailRegs t) ∧
  (∀ (s : State) (ch : Chan),
      s.dev.Rested →
      s.dev.Asks ch 7 [0, 1] →
      ∃ t, exec (.powerQuery ch) s = .next { s with dev := t } ∧
        (t.Answered ch 0 ([s.dev.rd .PWR_STATUS 0, s.dev.rd .PWR_BUDGET 0] ++ (List.range 11).map fun i => if Reg.absent s.dev.part .PWR_DIE i then 0#32 else s.dev.rd .PWR_DIE i)) ∧
        s.dev.ReplyOnly t ∧
        s.dev.KeepsRegs mailRegs t) ∧
  (∀ (s : State) (ch : Chan),
      s.dev.Rested →
      s.dev.ccRuns = true →
      s.dev.mbxState ch.val = 1 →
      s.dev.arg ch.val 0 = 7 →
      (s.dev.chLevel ch.val = 2 ∨ s.dev.chLevel ch.val = 3) →
      ∃ t, exec (.powerQuery ch) s = .next { s with dev := t } ∧
        t.Answered ch 6 [] ∧
        s.dev.ReplyOnly t ∧
        s.dev.KeepsRegs mailRegs t) ∧
  (∀ (s : State) (ch : Chan) (i fn : Nat),
      s.dev.Rested →
      s.dev.Asks ch 0x10 [0] →
      s.dev.arg ch.val 1 = 0 →
      s.dev.arg ch.val 2 = i ∧ i < 65536 →
      s.dev.arg ch.val 3 = 1 →
      s.dev.arg ch.val 4 = fn ∧ fn < 4120 →
      s.dev.fnExists fn = true →
      ∃ t, exec (.resAssign ch) s = .next { s with dev := t } ∧
        (s.dev.qState i = 0 ∧ Tbl.get s.dev.own.queue i = none → t.Answered ch 0 [] ∧ Tbl.get t.own.queue i = some fn) ∧
        (s.dev.qState i ≠ 0 ∨ Tbl.get s.dev.own.queue i ≠ none → t.Answered ch 5 [] ∧ t.own = s.dev.own) ∧
        ({ s.dev with own := { s.dev.own with queue := t.own.queue } }).ReplyOnly t ∧
        s.dev.KeepsRegs mailRegs t) ∧
  (∀ (s : State) (ch : Chan) (i fn : Nat),
      s.dev.Rested →
      s.dev.Asks ch 0x10 [1] →
      s.dev.arg ch.val 1 = 3 →
      s.dev.arg ch.val 2 = i ∧ i < 65536 →
      s.dev.arg ch.val 3 = 1 →
      s.dev.arg ch.val 4 = fn ∧ fn < 4096 →
      s.dev.fnExists fn = true →
      s.dev.pfOf fn = ch.val →
      Tbl.get s.dev.own.xctx i = some ch.val →
      s.dev.pfOf ch.val = ch.val →
      ∃ t, exec (.resAssign ch) s = .next { s with dev := t } ∧
        (s.dev.xctxState i = 0 → t.Answered ch 0 [] ∧ Tbl.get t.own.xctx i = some fn) ∧
        (s.dev.xctxState i ≠ 0 → t.Answered ch 5 [] ∧ t.own = s.dev.own) ∧
        ({ s.dev with own := { s.dev.own with xctx := t.own.xctx } }).ReplyOnly t ∧
        s.dev.KeepsRegs mailRegs t) ∧
  (∀ (s : State) (ch : Chan) (i : Nat),
      s.dev.Rested →
      s.dev.Asks ch 0x11 [0] →
      s.dev.arg ch.val 1 = 2 →
      s.dev.arg ch.val 2 = i ∧ i < 65536 →
      s.dev.arg ch.val 3 = 1 →
      ∃ t, exec (.resRelease ch) s = .next { s with dev := t } ∧
        (s.dev.mctxState i = 0 → t.Answered ch 0 [] ∧ Tbl.get t.own.mctx i = none) ∧
        (s.dev.mctxState i ≠ 0 → t.Answered ch 5 [] ∧ t.own = s.dev.own) ∧
        ({ s.dev with own := { s.dev.own with mctx := t.own.mctx } }).ReplyOnly t ∧
        s.dev.KeepsRegs mailRegs t)

/-- Commands on ports and route tables. PORT_SET of a DISABLED port writes its settings and enables it, and below L0 is DENIED;
PORT_QUERY answers its five status words; PORT_FLUSH of a link that is DOWN discards what it holds and raises its epoch, and of
another is WRONG_STATE (R109). RTE_LOAD writes words into the staged bank while no commit is pending; RTE_COMMIT makes a commit
pending and RTE_ABORT cancels it, and each is WRONG_STATE where there is nothing to do (R164, R165). It says of each of PORT_SET
(portSet), PORT_QUERY (portQuery), PORT_FLUSH (portFlush), RTE_LOAD (rteLoad), RTE_COMMIT (rteCommit) and RTE_ABORT (rteAbort)
that exec answers a next state, under conditions on the state and the operands alone. -/
def Obligations.PortAndRouteCommands : Prop :=
  (∀ (s : State) (ch : Chan) (p v : Nat),
      s.dev.col.grps = [] →
      s.dev.col.downs = [] →
      s.dev.sec.recovery = false →
      s.dev.Asks ch 0x20 [0] →
      s.dev.arg ch.val 1 = p ∧ p < 128 →
      s.dev.arg ch.val 2 = v ∧ v < 128 →
      s.dev.phyState p = 0 →
      s.dev.rd .PHY_CTRL p &&& 0x80000301#32 = 0#32 →
      ∃ t, exec (.portSet ch) s = .next { s with dev := t } ∧
        t.Answered ch 0 [] ∧
        t.fld F.PHY_CTRL_ENABLE p = v % 2 ∧
        t.fld F.PHY_CTRL_WIDTH p = v / 2 % 4 ∧
        t.fld F.PHY_CFG_MIN_WIDTH p = v / 8 % 4 ∧
        t.fld F.PHY_CFG_FIXED p = v / 32 % 2 ∧
        t.fld F.PHY_CFG_AUTO_RESTART p = v / 64 ∧
        (v % 2 = 0 → t.phyState p = 0) ∧
        (v % 2 = 1 ∧ s.dev.fld F.PHY_CTRL_TEST p = 0 → t.phyState p = (if s.dev.flag F.PHY_STATUS_PRESENT p || v / 32 % 2 == 1 then 2 else 1))) ∧
  (∀ (s : State) (ch : Chan),
      s.dev.Rested →
      s.dev.col.grps = [] →
      s.dev.col.downs = [] →
      s.dev.Asks ch 0x20 [1, 2, 3] →
      ∃ t, exec (.portSet ch) s = .next { s with dev := t } ∧
        t.Answered ch 6 [] ∧
        s.dev.ReplyOnly t ∧
        s.dev.KeepsRegs mailRegs t) ∧
  (∀ (s : State) (ch : Chan),
      s.dev.Rested →
      s.dev.Asks ch 0x21 [0, 1] →
      ∃ t, exec (.portQuery ch) s = .next { s with dev := t } ∧
        (s.dev.arg ch.val 1 < 128 → t.Answered ch 0 [s.dev.rd .PHY_STATUS (s.dev.arg ch.val 1), s.dev.rd .PHY_MODULE (s.dev.arg ch.val 1), s.dev.rd .LNK_STATUS (s.dev.arg ch.val 1), s.dev.rd .TCK_PDLY (s.dev.arg ch.val 1), s.dev.rd .PHY_BRINGUP_TIME (s.dev.arg ch.val 1)]) ∧
        (128 ≤ s.dev.arg ch.val 1 → t.Answered ch 4 []) ∧
        s.dev.ReplyOnly t ∧
        s.dev.KeepsRegs mailRegs t) ∧
  (∀ (s : State) (ch : Chan) (p : Nat),
      s.dev.Rested →
      s.dev.Asks ch 0x22 [0] →
      s.dev.arg ch.val 1 = p ∧ p < 128 →
      ∃ t, exec (.portFlush ch) s = .next { s with dev := t } ∧
        (s.dev.linkState p = 0 → t.Answered ch 0 [] ∧ (t.lnk p).store = [] ∧ t.fld F.LNK_EPOCH_OWN p = (s.dev.fld F.LNK_EPOCH_OWN p + 1) % 65536 ∧ t.flag F.LNK_STATUS_HELD p = false) ∧
        (s.dev.linkState p ≠ 0 → t.Answered ch 5 [] ∧ s.dev.ReplyOnly t)) ∧
  (∀ (s : State) (ch : Chan) (first n : Nat),
      s.dev.Rested →
      s.dev.Asks ch 0x30 [0] →
      s.dev.arg ch.val 1 = 1 →
      s.dev.arg ch.val 2 = first →
      s.dev.arg ch.val 3 = n ∧ n ≤ 12 ∧ first + n ≤ 8192 →
      ∃ t, exec (.rteLoad ch) s = .next { s with dev := t } ∧
        (s.dev.bankBusy = false → t.Answered ch 0 [] ∧ ∀ i ∈ List.range n, Tbl.get t.rte.staged (0x8000 + first + i) = some (word (s.dev.arg ch.val (4 + i)) &&& 0xFFBFFFFF#32)) ∧
        (s.dev.bankBusy = true → t.Answered ch 5 [] ∧ t.rte = s.dev.rte) ∧
        ({ s.dev with rte := { s.dev.rte with staged := t.rte.staged } }).ReplyOnly t ∧
        s.dev.KeepsRegs mailRegs t) ∧
  (∀ (s : State) (ch : Chan) (at_ : BitVec 64),
      s.dev.Rested →
      s.dev.Asks ch 0x31 [0] →
      at_ = BitVec.ofNat 64 (s.dev.arg64 ch.val 2) →
      ∃ t, exec (.rteCommit ch) s = .next { s with dev := t } ∧
        (s.dev.flag F.RTE_TBL_STATUS_PENDING 0 = false → t.Answered ch 0 [] ∧ t.flag F.RTE_TBL_STATUS_PENDING 0 = true ∧ t.rte.commit = some (if at_.toNat ≤ s.dev.clk.tick.toNat then s.dev.clk.tick + 1#64 else at_, s.dev.arg ch.val 1 % 2 ^ 16)) ∧
        (s.dev.flag F.RTE_TBL_STATUS_PENDING 0 = false ∧ at_.toNat ≤ s.dev.clk.tick.toNat → t.flag F.RTE_TBL_STATUS_LATE 0 = true) ∧
        (s.dev.flag F.RTE_TBL_STATUS_PENDING 0 = true → t.Answered ch 5 [] ∧ t.rte = s.dev.rte) ∧
        ({ s.dev with rte := { s.dev.rte with commit := t.rte.commit }, evr := t.evr, shadow := t.shadow, free := t.free }).ReplyOnly t ∧
        s.dev.KeepsRegs (mailRegs ++ [.RTE_TBL_STATUS]) t) ∧
  (∀ (s : State) (ch : Chan),
      s.dev.Rested →
      s.dev.Asks ch 0x32 [0] →
      ∃ t, exec (.rteAbort ch) s = .next { s with dev := t } ∧
        (s.dev.flag F.RTE_TBL_STATUS_PENDING 0 = true → t.Answered ch 0 [] ∧ t.flag F.RTE_TBL_STATUS_PENDING 0 = false ∧ t.rte.commit = none) ∧
        (s.dev.flag F.RTE_TBL_STATUS_PENDING 0 = false → t.Answered ch 5 [] ∧ t.rte = s.dev.rte) ∧
        ({ s.dev with rte := { s.dev.rte with commit := t.rte.commit } }).ReplyOnly t ∧
        s.dev.KeepsRegs (mailRegs ++ [.RTE_TBL_STATUS]) t)

/-- Commands on connections. CONN_OPEN takes a number, gives its context the endpoints, class, domain and queues named, sends OPEN,
and runs on while the context is OPENING; two queues of different domains are BAD_ARGUMENT (R173, Table 06-2). CONN_CLOSE drains
a READY connection and frees one in ERROR, whose incarnation rises (R174). CONN_RESET frees a context at once. CONN_QUERY
answers a quarter of the context's record (Table 06-8). CONN_LISTEN adds a listen entry under a new handle, and CONN_UNLISTEN
removes it (R437). What belongs to another function is DENIED (R436). The model's own choices in it: assumptions 58, 105. It
says of each of CONN_OPEN (connOpen), CONN_CLOSE (connClose), CONN_RESET (connReset), CONN_QUERY (connQuery), CONN_LISTEN
(connListen) and CONN_UNLISTEN (connUnlisten) that exec answers a next state, under conditions on the state and the operands
alone. -/
def Obligations.ConnectionCommands : Prop :=
  (∀ (s : State) (ch : Chan) (n sq rq : Nat),
      s.dev.Rested →
      s.dev.Asks ch 0x40 [0] →
      s.dev.argBits ch.val 3 0 16 = sq ∧ s.dev.argBits ch.val 3 16 16 = rq →
      s.dev.fld F.WQ_Q_CFG_PD sq = s.dev.fld F.WQ_Q_CFG_PD rq →
      s.dev.noevicts < 16384 →
      s.dev.allocConn.map (·.1) = some n →
      s.dev.epPort (s.dev.argBits ch.val 2 0 5) = some 130 →
      ∃ t, exec (.connOpen ch) s = .next { s with dev := t } ∧
        t.Started ch ∧
        (t.conn n).state = 1 ∧ (t.conn n).peerEp = s.dev.argBits ch.val 1 0 22 ∧ (t.conn n).localEp = s.dev.argBits ch.val 2 0 5 ∧
        (t.conn n).tc = s.dev.argBits ch.val 2 5 2 ∧ (t.conn n).pinned = (s.dev.argBits ch.val 2 7 1 == 1) ∧ (t.conn n).noevict = (s.dev.argBits ch.val 2 8 1 == 1) ∧
        (t.conn n).pd = s.dev.fld F.WQ_Q_CFG_PD sq ∧ (t.conn n).sq = sq ∧ (t.conn n).rq = rq ∧ (t.conn n).inc = (s.dev.conn n).inc ∧
        (t.conn n).chan = some ch.val ∧ (t.conn n).tries = 1 ∧
        (Tbl.getD t.inj 130 []).length = (Tbl.getD s.dev.inj 130 []).length + 1 ∧
        ({ s.dev with trn := t.trn, cnts := t.cnts, inj := t.inj }).ReplyOnly t) ∧
  (∀ (s : State) (ch : Chan),
      s.dev.Rested →
      s.dev.Asks ch 0x40 [0] →
      s.dev.fld F.WQ_Q_CFG_PD (s.dev.argBits ch.val 3 0 16) ≠ s.dev.fld F.WQ_Q_CFG_PD (s.dev.argBits ch.val 3 16 16) →
      ∃ t, exec (.connOpen ch) s = .next { s with dev := t } ∧
        t.Answered ch 4 [] ∧
        s.dev.ReplyOnly t ∧
        s.dev.KeepsRegs mailRegs t) ∧
  (∀ (s : State) (ch : Chan) (n : Nat) (c : Conn),
      s.dev.Asks ch 0x41 [0, 1, 2] →
      s.dev.argBits ch.val 1 0 24 = n ∧ s.dev.conn n = c →
      s.dev.chConn ch.val n = true ∧ s.dev.usable n = true →
      c.state = 2 →
      ((s.dev.connEntries n fun e => !e.started) = []) →
      ∃ t, exec (.connClose ch) s = .next { s with dev := t } ∧
        t.Started ch ∧
        (t.conn n = (if c.drained then { c with chan := some ch.val, state := 4, tries := 1, triedAt := s.dev.clk.edges } else { c with chan := some ch.val, state := 3 }))) ∧
  (∀ (s : State) (ch : Chan) (n : Nat) (c : Conn),
      s.dev.Asks ch 0x41 [0, 1, 2] →
      s.dev.argBits ch.val 1 0 24 = n ∧ s.dev.conn n = c →
      s.dev.chConn ch.val n = true ∧ s.dev.usable n = true →
      c.state = 5 →
      c.localEp ≠ 24 ∧ s.dev.tunOf n = none →
      c.ops = [] →
      ((s.dev.connEntries n fun e => !e.started) = []) →
      ∃ t, exec (.connClose ch) s = .next { s with dev := t } ∧
        t.Ending ch 0 [] ∧
        t.conn n = { Conn.reset with inc := (c.inc + 1) % 256, resident := c.resident, used := c.used, wbSeq := c.wbSeq } ∧
        t.trn.freed.getLast? = some n) ∧
  (∀ (s : State) (ch : Chan) (n : Nat) (c : Conn),
      s.dev.Asks ch 0x42 [0, 1, 2] →
      s.dev.argBits ch.val 1 0 24 = n ∧ s.dev.conn n = c →
      s.dev.chConn ch.val n = true ∧ s.dev.usable n = true →
      c.state ≠ 0 →
      c.localEp ≠ 24 ∧ s.dev.tunOf n = none →
      c.ops = [] →
      ((s.dev.connEntries n fun e => !e.started) = []) →
      ∃ t, exec (.connReset ch) s = .next { s with dev := t } ∧
        t.Answered ch 0 [] ∧
        t.conn n = { Conn.reset with inc := (c.inc + 1) % 256, resident := c.resident, used := c.used, wbSeq := c.wbSeq } ∧
        t.trn.freed.getLast? = some n ∧
        (∀ k ∈ c.chan.toList, k ≠ ch.val → Tbl.get t.mbx.outcome k = some (if c.state = 1 then 5 else 0, []))) ∧
  (∀ (s : State) (ch : Chan),
      s.dev.Rested →
      s.dev.Asks ch 0x42 [0, 1, 2] →
      s.dev.chConn ch.val (s.dev.argBits ch.val 1 0 24) = false →
      ∃ t, exec (.connReset ch) s = .next { s with dev := t } ∧
        t.Answered ch 6 [] ∧
        s.dev.ReplyOnly t ∧
        s.dev.KeepsRegs mailRegs t) ∧
  (∀ (s : State) (ch : Chan) (n k : Nat),
      s.dev.Rested →
      s.dev.Asks ch 0x43 [0, 1, 2] →
      s.dev.argBits ch.val 1 0 24 = n ∧ s.dev.argBits ch.val 2 0 2 = k →
      s.dev.chConn ch.val n = true ∧ s.dev.usable n = true →
      ∃ t, exec (.connQuery ch) s = .next { s with dev := t } ∧
        t.Answered ch 0 (bytesWords ((((s.dev.conn n).body n ++ Conn.commit (s.dev.conn n) n).drop (64 * k)).take 64)) ∧
        s.dev.ReplyOnly t ∧
        s.dev.KeepsRegs mailRegs t) ∧
  (∀ (s : State) (ch : Chan) (ep sq rq : Nat),
      s.dev.Rested →
      s.dev.Asks ch 0x44 [0, 1, 2] →
      s.dev.argBits ch.val 1 0 5 = ep ∧ s.dev.argBits ch.val 2 0 16 = sq ∧ s.dev.argBits ch.val 2 16 16 = rq →
      s.dev.chEndpoint ch.val ep = true ∧ s.dev.chOwns ch.val (s.dev.resOwner 0 sq) = true ∧ s.dev.chOwns ch.val (s.dev.resOwner 0 rq) = true →
      s.dev.fld F.WQ_Q_CFG_PD sq = s.dev.fld F.WQ_Q_CFG_PD rq →
      ∃ t, exec (.connListen ch) s = .next { s with dev := t } ∧
        ((s.dev.trn.listen.filter fun l => l.ep == ep).length < 64 → t.Answered ch 0 [word s.dev.trn.nextListen] ∧ t.trn.listen = s.dev.trn.listen ++ [⟨s.dev.trn.nextListen, ep, sq, rq, BitVec.ofNat 64 (s.dev.arg64 ch.val 3), chanFn ch.val⟩] ∧ t.trn.nextListen = s.dev.trn.nextListen + 1) ∧
        (64 ≤ (s.dev.trn.listen.filter fun l => l.ep == ep).length → t.Answered ch 8 [] ∧ t.trn = s.dev.trn) ∧
        ({ s.dev with trn := { s.dev.trn with listen := t.trn.listen, nextListen := t.trn.nextListen } }).ReplyOnly t ∧
        s.dev.KeepsRegs mailRegs t) ∧
  (∀ (s : State) (ch : Chan) (l : Listen),
      s.dev.Rested →
      s.dev.Asks ch 0x45 [0, 1, 2] →
      (s.dev.trn.listen.find? (fun x => x.handle == s.dev.arg ch.val 1) = some l) →
      ∃ t, exec (.connUnlisten ch) s = .next { s with dev := t } ∧
        (s.dev.chOwns ch.val (some l.fn) = true → t.Answered ch 0 [] ∧ t.trn.listen = s.dev.trn.listen.filter fun x => x.handle != s.dev.arg ch.val 1) ∧
        (s.dev.chOwns ch.val (some l.fn) = false → t.Answered ch 6 [] ∧ t.trn = s.dev.trn) ∧
        ({ s.dev with trn := { s.dev.trn with listen := t.trn.listen } }).ReplyOnly t ∧
        s.dev.KeepsRegs mailRegs t)

/-- Commands on windows, collective groups and locks. WINDOW_BIND stages a window over a range of a region its function holds on its
lowest free entry, with a new tag and generation, for the boundary after next; WINDOW_UNBIND stages its end (R253, R257, R541).
COL_FORM writes the group's registers and forms it where the checks of Table 10-1 pass, and otherwise refuses it with
BAD_ARGUMENT, setting FORM_REFUSED for a FREE group and writing no register of the group (R294, Table 10-1); COL_DISSOLVE frees
it (R320). LOCK_OP of a virtual function takes or gives back a lock that is assigned to it, and LOCK_QUERY answers its view
(R441, Table 15-12). The model's own choices in it: assumptions 74, 106. It says of each of WINDOW_BIND (windowBind),
WINDOW_UNBIND (windowUnbind), COL_FORM (colForm), COL_DISSOLVE (colDissolve), LOCK_OP (lockOp) and LOCK_QUERY (lockQuery) that
exec answers a next state, under conditions on the state and the operands alone. -/
def Obligations.WindowsGroupsAndLocks : Prop :=
  (∀ (s : State) (ch : Chan) (key i : Nat) (p was : ProtVer),
      s.dev.Rested →
      s.dev.Asks ch 0x50 [1, 2] →
      s.dev.arg ch.val 1 = key ∧ s.dev.protAt s.dev.tickNow (key % 2 ^ 17) = p →
      p.en = true ∧ p.tag = key / 2 ^ 17 ∧ p.window = false →
      s.dev.chOwns ch.val (s.dev.resOwner 1 p.pd) = true →
      s.dev.argBits ch.val 2 0 6 &&& p.rights = s.dev.argBits ch.val 2 0 6 →
      s.dev.arg64 ch.val 3 + s.dev.arg64 ch.val 5 ≤ p.len →
      s.dev.freeEntry (chanFn ch.val) = some i ∧ s.dev.protAt s.dev.tickNow i = was →
      s.dev.protSlots < 4096 →
      Tbl.get s.dev.clk.holdAt 4224 = none →
      ∃ t, exec (.windowBind ch) s = .next { s with dev := t } ∧
        t.Answered ch 0 [word (i + (was.tag + 1) % 2 ^ 15 * 2 ^ 17), word ((was.gen + 1) % 256), s.dev.clk.tick.setWidth 32, (s.dev.clk.tick >>> 32).setWidth 32] ∧
        (t.clk.staged.getLast?.map fun x => (x.due, x.fn)) = some (some (s.dev.clk.edges + 2), 4224) ∧
        (t.clk.staged.getLast?.bind fun x => match x.act with | .prot j v => some (j, v.en, v.window, v.tag, v.gen) | _ => none) = some (i, true, true, (was.tag + 1) % 2 ^ 15, (was.gen + 1) % 256) ∧
        (t.clk.staged.getLast?.bind fun x => match x.act with | .prot _ v => some (v.rights, v.pd, v.base, v.len) | _ => none) = some (s.dev.argBits ch.val 2 0 6, p.pd, s.dev.arg64 ch.val 3, s.dev.arg64 ch.val 5) ∧
        (t.clk.staged.getLast?.bind fun x => match x.act with | .prot _ v => some (F.XLT_RGN_PARENT_PARENT.ofWord v.parent, F.XLT_RGN_PARENT_PARENT_GEN.ofWord v.parent) | _ => none) = some (key % 2 ^ 17, p.gen) ∧
        ({ s.dev with clk := { s.dev.clk with staged := t.clk.staged } }).ReplyOnly t ∧
        s.dev.KeepsRegs mailRegs t) ∧
  (∀ (s : State) (ch : Chan) (i : Nat) (v : ProtVer),
      s.dev.Rested →
      s.dev.Asks ch 0x51 [1, 2] →
      s.dev.arg ch.val 1 % 2 ^ 17 = i ∧ s.dev.protLast i = v →
      (s.dev.windowBlocks (chanFn ch.val)).contains (i / 1024) = true →
      v.en = true ∧ v.window = true ∧ v.tag = s.dev.arg ch.val 1 / 2 ^ 17 →
      s.dev.protSlots < 4096 →
      Tbl.get s.dev.clk.holdAt 4224 = none →
      ∃ t, exec (.windowUnbind ch) s = .next { s with dev := t } ∧
        t.Answered ch 0 [s.dev.clk.tick.setWidth 32, (s.dev.clk.tick >>> 32).setWidth 32] ∧
        t.clk.staged.getLast? = some { due := some (s.dev.clk.edges + 2), fn := 4224, act := .prot i { v with attr := F.XLT_RGN_ATTR_EN.put v.attr 0 } } ∧
        ({ s.dev with clk := { s.dev.clk with staged := t.clk.staged } }).ReplyOnly t ∧
        s.dev.KeepsRegs mailRegs t) ∧
  (∀ (s : State) (ch : Chan) (g : Nat),
      s.dev.Rested →
      s.dev.Asks ch 0x60 [0] →
      s.dev.formAbsent ch.val = false →
      s.dev.argBits ch.val 1 0 12 = g →
      s.dev.colState g = 0 →
      (s.dev.withForm ch.val g).colChecks g = true →
      (s.dev.withForm ch.val g).colRoom g (s.dev.colHeld g) = true →
      ∃ t, exec (.colForm ch) s = .next { s with dev := t } ∧
        t.Answered ch 0 [] ∧
        t.colState g = 1 ∧
        t.rd .COL_GRP_CFG g = (s.dev.withForm ch.val g).rd .COL_GRP_CFG g ∧ t.rd .COL_GRP_MEMBERS g = (s.dev.withForm ch.val g).rd .COL_GRP_MEMBERS g ∧ t.rd .COL_GRP_CTRL g = (s.dev.withForm ch.val g).rd .COL_GRP_CTRL g ∧
        (∀ i ∈ List.range 4, t.rd .COL_GRP_CHILD (4 * g + i) = (s.dev.withForm ch.val g).rd .COL_GRP_CHILD (4 * g + i)) ∧
        t.fld F.COL_GRP_STATUS_OPSEQ g = s.dev.argBits ch.val 8 0 16 ∧ t.colHeld g = (s.dev.withForm ch.val g).colSlots g ∧
        ({ s.dev with col := { s.dev.col with grps := t.col.grps, slots := t.col.slots } }).ReplyOnly t ∧
        s.dev.KeepsRegs (mailRegs ++ [.COL_GRP_CFG, .COL_GRP_MEMBERS, .COL_GRP_CHILD, .COL_GRP_CTRL, .COL_GRP_STATUS, .COL_GRP_FLOW, .COL_UNIT]) t) ∧
  (∀ (s : State) (ch : Chan) (g : Nat),
      s.dev.Rested →
      s.dev.Asks ch 0x60 [0] →
      s.dev.formAbsent ch.val = false →
      s.dev.argBits ch.val 1 0 12 = g →
      (s.dev.withForm ch.val g).colChecks g = false →
      ∃ t, exec (.colForm ch) s = .next { s with dev := t } ∧
        t.Answered ch 4 [] ∧
        (s.dev.colState g = 0 → t.flag F.COL_STATUS_FORM_REFUSED 0 = true) ∧
        (s.dev.colState g = 1 ∨ s.dev.colState g = 2 → t.flag F.COL_STATUS_FORM_REFUSED 0 = s.dev.flag F.COL_STATUS_FORM_REFUSED 0) ∧
        ({ s.dev with evr := t.evr, shadow := t.shadow, free := t.free }).ReplyOnly t ∧
        s.dev.KeepsRegs (mailRegs ++ [.COL_STATUS]) t) ∧
  (∀ (s : State) (ch : Chan) (g : Nat),
      s.dev.Rested →
      s.dev.Asks ch 0x61 [0] →
      s.dev.argBits ch.val 1 0 12 = g →
      s.dev.colState g ≠ 2 →
      ∃ t, exec (.colDissolve ch) s = .next { s with dev := t } ∧
        (s.dev.colState g = 0 → t.Answered ch 5 [] ∧ t.col = s.dev.col) ∧
        (s.dev.colState g ≠ 0 → t.Answered ch 0 [] ∧ t.colState g = 0 ∧ t.fld F.COL_GRP_FLOW_F g = 0 ∧ Tbl.get t.col.slots g = none) ∧
        ({ s.dev with col := { s.dev.col with slots := t.col.slots } }).ReplyOnly t ∧
        s.dev.KeepsRegs (mailRegs ++ [.COL_GRP_STATUS, .COL_GRP_FLOW, .COL_UNIT]) t) ∧
  (∀ (s : State) (ch : Chan) (l : Nat) (k : Lock),
      s.dev.Rested →
      s.dev.Asks ch 0x70 [2] →
      s.dev.argBits ch.val 1 0 12 = l ∧ Tbl.get s.dev.own.lock l = some ch.val →
      s.dev.lockOf l = k →
      s.dev.arg ch.val 2 < 2 ^ 30 →
      ∃ t, exec (.lockOp ch) s = .next { s with dev := t } ∧
        (k.holder = none → (t.lockOf l).holder = some ch.val ∧ t.Answered ch 0 [(k.grant ch.val).view ch.val]) ∧
        ((∃ h ∈ k.holder, h ≠ ch.val) ∧ k.waiters.length < 32 ∧ k.waiters.all (fun w => w.1 != ch.val) = true → (t.lockOf l).holder = k.holder ∧ (t.lockOf l).waiters = k.waiters ++ [(ch.val, s.dev.arg ch.val 2 / 2 ^ 27)]) ∧
        ({ s.dev with locks := t.locks, evr := t.evr, shadow := t.shadow, free := t.free }).ReplyOnly t ∧
        s.dev.KeepsRegs mailRegs t) ∧
  (∀ (s : State) (ch : Chan) (l : Nat) (k : Lock),
      s.dev.Rested →
      s.dev.Asks ch 0x70 [2] →
      s.dev.argBits ch.val 1 0 12 = l ∧ Tbl.get s.dev.own.lock l = some ch.val →
      s.dev.lockOf l = k →
      2 ^ 30 ≤ s.dev.arg ch.val 2 →
      ∃ t, exec (.lockOp ch) s = .next { s with dev := t } ∧
        (s.dev.arg ch.val 2 < 2 ^ 31 ∧ k.holder = some ch.val → (t.lockOf l).holder = k.next.map (·.1)) ∧
        (s.dev.arg ch.val 2 < 2 ^ 31 ∧ k.holder ≠ some ch.val → (t.lockOf l).holder = k.holder) ∧
        (2 ^ 31 ≤ s.dev.arg ch.val 2 → t.Answered ch 6 [] ∧ t.locks = s.dev.locks) ∧
        ({ s.dev with locks := t.locks }).ReplyOnly t ∧
        s.dev.KeepsRegs mailRegs t) ∧
  (∀ (s : State) (ch : Chan) (l : Nat),
      s.dev.Rested →
      s.dev.Asks ch 0x71 [2] →
      s.dev.argBits ch.val 1 0 12 = l →
      ∃ t, exec (.lockQuery ch) s = .next { s with dev := t } ∧
        (Tbl.get s.dev.own.lock l = some ch.val → t.Answered ch 0 [(s.dev.lockOf l).view ch.val]) ∧
        (Tbl.get s.dev.own.lock l = none → t.Answered ch 5 []) ∧
        ((∃ o ∈ Tbl.get s.dev.own.lock l, o ≠ ch.val) → t.Answered ch 6 []) ∧
        s.dev.ReplyOnly t ∧
        s.dev.KeepsRegs mailRegs t)

/-- Commands on the memory bridge and the pool. On a part without the bridge every one of them is UNSUPPORTED (R433). BRIDGE_WINDOW
sets window and context of a hierarchy whose bridge is OFF (R343). POOL_EXPORT and POOL_CLAIM_EXPANDER stage a pool region that
grants remote reads and writes in the pool domain and answer its key and generation (R347); POOL_UNEXPORT waits until its region
is retired and settled (R262). POOL_PATH_SET opens connections into the free slots of a set and names their home (R349).
POOL_DIR_SET stages a directory entry for the boundary after next (R365), and POOL_EXTENT_CLEAR clears FAILED (R364). The
model's own choices in it: assumptions 82, 83, 84, 85. It says of each of BRIDGE_WINDOW (bridgeWindow), POOL_EXPORT
(poolExport), POOL_UNEXPORT (poolUnexport), POOL_CLAIM_EXPANDER (poolClaimExpander), POOL_PATH_SET (poolPathSet), POOL_DIR_SET
(poolDirSet) and POOL_EXTENT_CLEAR (poolExtentClear) that exec answers a next state, under conditions on the state and the
operands alone. -/
def Obligations.PoolCommands : Prop :=
  (∀ (s : State) (ch : Chan) (h : Nat),
      s.dev.Rested →
      s.dev.Asks ch 0x80 [0] →
      s.dev.part.hasMbr = true →
      s.dev.argBits ch.val 1 0 5 = h ∧ h < 24 →
      s.dev.arg ch.val 2 < 2 ^ F.MBR_HIER_WIN_GIB.w →
      ∃ t, exec (.bridgeWindow ch) s = .next { s with dev := t } ∧
        (s.dev.brState h = 0 → t.Answered ch 0 [] ∧ t.fld F.MBR_HIER_WIN_GIB h = s.dev.arg ch.val 2 ∧ t.fld F.MBR_HIER_WIN_ENABLE h = s.dev.argBits ch.val 1 31 1 ∧ t.fld F.MBR_HIER_CTX_XCTX h = s.dev.argBits ch.val 3 0 16) ∧
        (s.dev.brState h ≠ 0 → t.Answered ch 5 [] ∧ t.rd .MBR_HIER_WIN h = s.dev.rd .MBR_HIER_WIN h) ∧
        s.dev.ReplyOnly t ∧
        s.dev.KeepsRegs (mailRegs ++ [.MBR_HIER_WIN, .MBR_HIER_CTX]) t) ∧
  (∀ (s : State) (ch : Chan),
      s.dev.Rested →
      s.dev.Asks ch 0x80 [0, 1, 2, 3] →
      s.dev.part.hasMbr = false →
      ∃ t, exec (.bridgeWindow ch) s = .next { s with dev := t } ∧
        t.Answered ch 7 [] ∧
        s.dev.ReplyOnly t ∧
        s.dev.KeepsRegs mailRegs t) ∧
  (∀ (s : State) (ch : Chan) (entry : BitVec 17) (ctx : BitVec 16) (h len : Nat) (v : ProtVer),
      s.dev.Rested →
      s.dev.Asks ch 0x81 [0, 1] →
      s.dev.part.hasMbr = true →
      s.dev.argBits ch.val 1 0 5 = h ∧ h < 24 ∧ s.dev.chEndpoint ch.val h = true →
      s.dev.arg64 ch.val 4 = len ∧ 0 < len ∧ len % 2 ^ 30 = 0 →
      s.dev.flag F.MBR_CFG_EN 0 = true →
      s.dev.canStage entry.toNat = true →
      v = s.dev.poolRegion entry.toNat ctx.toNat (s.dev.arg64 ch.val 2) len →
      Tbl.get s.dev.clk.holdAt 4224 = none →
      ∃ t, exec (.poolExport ch entry ctx) s = .next { s with dev := t } ∧
        t.Answered ch 0 [word (entry.toNat + v.tag * 2 ^ 17), word v.gen] ∧
        v.en = true ∧ v.rights = 12 ∧ v.pd = s.dev.fld F.MBR_CFG_POOL_PD 0 ∧ v.base = s.dev.arg64 ch.val 2 ∧ v.len = len ∧ v.xctx = ctx.toNat ∧
        t.clk.staged.getLast? = some { due := some (s.dev.clk.edges + 2), fn := 4224, act := .prot entry.toNat v } ∧
        t.mbr.sources = s.dev.mbr.sources ++ [(entry.toNat, 0, len / 2 ^ 30, h)] ∧
        ({ s.dev with clk := { s.dev.clk with staged := t.clk.staged }, mbr := { s.dev.mbr with sources := t.mbr.sources } }).ReplyOnly t ∧
        s.dev.KeepsRegs mailRegs t) ∧
  (∀ (s : State) (ch : Chan) (i h : Nat),
      s.dev.Rested →
      s.dev.Asks ch 0x82 [0, 1] →
      s.dev.part.hasMbr = true →
      s.dev.exported (s.dev.arg ch.val 1) = some (i, h) ∧ s.dev.chEndpoint ch.val h = true →
      ∃ t, exec (.poolUnexport ch .request) s = .next { s with dev := t } ∧
        t.Started ch ∧
        t.mbr.unexport = s.dev.mbr.unexport ++ [(ch.val, s.dev.arg ch.val 1)] ∧
        ({ s.dev with mbr := { s.dev.mbr with unexport := t.mbr.unexport } }).ReplyOnly t ∧
        s.dev.KeepsRegs mailRegs t) ∧
  (∀ (s : State) (ch : Chan) (k i h : Nat) (v : ProtVer),
      s.dev.Rested →
      s.dev.ccRuns = true →
      (s.dev.mbr.unexport.find? (fun x => x.1 == ch.val) = some (ch.val, k)) →
      s.dev.exported k = some (i, h) ∧ s.dev.protLast i = v ∧ v.en = true →
      s.dev.protSlots < 4096 →
      Tbl.get s.dev.clk.holdAt 4224 = none →
      ∃ t, exec (.poolUnexport ch .unused) s = .next { s with dev := t } ∧
        t.clk.staged.getLast? = some { due := some (s.dev.clk.edges + 1), fn := 4224, act := .prot i { v with attr := F.XLT_RGN_ATTR_EN.put v.attr 0 } } ∧
        t = { s.dev with clk := { s.dev.clk with staged := t.clk.staged } }) ∧
  (∀ (s : State) (ch : Chan) (k i h : Nat) (v : ProtVer),
      s.dev.Rested →
      s.dev.ccRuns = true →
      (s.dev.mbr.unexport.find? (fun x => x.1 == ch.val) = some (ch.val, k)) →
      s.dev.exported k = some (i, h) ∧ s.dev.protAt s.dev.tickNow i = v ∧ v.en = false ∧ (s.dev.protLast i).en = false →
      v.from_ ≤ s.dev.settled →
      ∃ t, exec (.poolUnexport ch .settled) s = .next { s with dev := t } ∧
        Tbl.get t.mbx.outcome ch.val = some (0, []) ∧
        (t.mbr.sources = s.dev.mbr.sources.filter (fun x => x.1 != i) ∧ t.mbr.unexport = s.dev.mbr.unexport.filter fun x => x != (ch.val, k)) ∧
        t = { s.dev with mbr := { s.dev.mbr with sources := t.mbr.sources, unexport := t.mbr.unexport }, mbx := { s.dev.mbx with outcome := t.mbx.outcome } }) ∧
  (∀ (s : State) (ch : Chan) (x : Expander) (n : Nat) (v : ProtVer),
      s.dev.Rested →
      s.dev.Asks ch 0x83 [0] →
      s.dev.part.hasMbr = true →
      s.dev.argBits ch.val 1 0 6 = n ∧ n < s.dev.part.hostPorts →
      s.dev.hlRole n = 2 ∧ s.dev.fld F.HSW_PORT_STATUS_STATE n = 1 →
      s.dev.flag F.MBR_CFG_EN 0 = true →
      s.dev.canStage x.entry.toNat = true →
      s.dev.worn (15 + n) = false ∧ s.dev.nvs.queue = [] →
      v = s.dev.poolRegion x.entry.toNat x.ctx.toNat 0 (x.gib.toNat * 2 ^ 30) →
      Tbl.get s.dev.clk.holdAt 4224 = none →
      ∃ t, exec (.poolClaimExpander ch (some x)) s = .next { s with dev := t } ∧
        t.Ending ch 0 [word (x.entry.toNat + v.tag * 2 ^ 17), word v.gen, word x.gib.toNat] ∧
        t.hlRole n = 3 ∧
        t.nvs.queue.map (·.1) = [15 + n] ∧
        t.clk.staged.getLast? = some { due := some (s.dev.clk.edges + 2), fn := 4224, act := .prot x.entry.toNat v } ∧
        t.mbr.sources = s.dev.mbr.sources ++ [(x.entry.toNat, 1, x.gib.toNat, n)]) ∧
  (∀ (s : State) (ch : Chan) (p home n : Nat),
      s.dev.Asks ch 0x84 [0] →
      s.dev.part.hasMbr = true →
      s.dev.argBits ch.val 1 0 12 = p ∧ s.dev.argBits ch.val 1 31 1 = 0 ∧ s.dev.argBits ch.val 2 0 22 = home ∧ s.dev.argBits ch.val 3 0 3 = 1 →
      s.dev.psetConns p = [] →
      s.dev.noevicts < 16384 ∧ s.dev.allocConn.map (·.1) = some n →
      s.dev.mbr.pathCmd = [] →
      ∃ t, exec (.poolPathSet ch) s = .next { s with dev := t } ∧
        t.Started ch ∧
        t.fld F.MBR_PSET_HOME_HOME p = home ∧
        t.rd .MBR_PSET_CONN (4 * p) = BitVec.ofNat 32 (2 ^ 31 + n) ∧
        (t.conn n).state = 1 ∧ (t.conn n).peerEp = home ∧ (t.conn n).localEp = 24 ∧ (t.conn n).noevict = true ∧ (t.conn n).pd = s.dev.fld F.MBR_CFG_POOL_PD 0 ∧
        t.mbr.pathCmd = [(p, ch.val, false)]) ∧
  (∀ (s : State) (ch : Chan) (p : Nat),
      s.dev.Asks ch 0x84 [0] →
      s.dev.part.hasMbr = true →
      s.dev.argBits ch.val 1 0 12 = p ∧ s.dev.argBits ch.val 1 31 1 = 1 →
      s.dev.psetConns p = [] →
      s.dev.mbr.pathCmd = [] →
      ∃ t, exec (.poolPathSet ch) s = .next { s with dev := t } ∧
        t.Ending ch 0 [] ∧
        t.rd .MBR_PSET_HOME p = 0#32 ∧
        t.mbr.pathCmd = []) ∧
  (∀ (s : State) (ch : Chan) (x off : Nat),
      s.dev.Rested →
      s.dev.Asks ch 0x85 [0] →
      s.dev.part.hasMbr = true →
      s.dev.arg ch.val 1 = x ∧ s.dev.arg64 ch.val 6 = off →
      Tbl.get s.dev.clk.holdAt 4224 = none →
      ∃ t, exec (.poolDirSet ch) s = .next { s with dev := t } ∧
        (x < s.dev.dirSize ∧ off % 2 ^ 30 = 0 ∧ s.dev.flag F.MBR_CFG_EN 0 = true → t.Answered ch 0 [s.dev.clk.tick.setWidth 32, (s.dev.clk.tick >>> 32).setWidth 32] ∧ t.clk.staged.getLast? = some { due := some (s.dev.clk.edges + 2), fn := 4224, act := .dirEnt x { flags := s.dev.argBits ch.val 2 0 3, pset := s.dev.argBits ch.val 3 0 12, gen := s.dev.argBits ch.val 5 0 8, key := s.dev.arg ch.val 4, offset := off } }) ∧
        (s.dev.dirSize ≤ x ∨ off % 2 ^ 30 ≠ 0 → t.Answered ch 4 [] ∧ t.clk = s.dev.clk) ∧
        ({ s.dev with clk := { s.dev.clk with staged := t.clk.staged } }).ReplyOnly t ∧
        s.dev.KeepsRegs mailRegs t) ∧
  (∀ (s : State) (ch : Chan) (x : Nat) (e : DirEnt),
      s.dev.Asks ch 0x86 [0] →
      s.dev.part.hasMbr = true →
      s.dev.arg ch.val 1 = x ∧ x < s.dev.dirSize →
      Tbl.get s.dev.mbr.dir x = some e →
      ∃ t, exec (.poolExtentClear ch) s = .next { s with dev := t } ∧
        (e.failed = true → t.Answered ch 0 [] ∧ (Tbl.get t.mbr.dir x).map (·.flags) = some (e.flags % 4)) ∧
        (e.failed = false → t.Answered ch 5 []))

/-- Commands on the host switch. HSW_ASSIGN_PORT, HSW_ASSIGN_VF and HSW_ASSIGN_LD put a device, a virtual function or a logical
device of a DOWNSTREAM port behind the next free virtual downstream port of a hierarchy (R375, R399); HSW_RELEASE empties one.
HSW_VF_POOL gives a hierarchy the lowest-numbered virtual functions that no other has (R379). HSW_P2P_SET writes a peer window
and the port's bit (R380). HSW_TUNNEL_OPEN prepares one side of a tunnel, and HSW_TUNNEL_CLOSE takes it down and holds a device
side's port in reset (R381, R386). The model's own choices in it: assumptions 90, 93. It says of each of HSW_ASSIGN_PORT
(hswAssignPort), HSW_ASSIGN_VF (hswAssignVf), HSW_ASSIGN_LD (hswAssignLd), HSW_RELEASE (hswRelease), HSW_VF_POOL (hswVfPool),
HSW_P2P_SET (hswP2pSet), HSW_TUNNEL_OPEN (hswTunnelOpen) and HSW_TUNNEL_CLOSE (hswTunnelClose) that exec answers a next state,
under conditions on the state and the operands alone. -/
def Obligations.HostSwitchCommands : Prop :=
  (∀ (s : State) (ch : Chan) (fns : BitVec 9) (n h v : Nat),
      s.dev.Rested →
      s.dev.Asks ch 0x90 [0] →
      s.dev.argBits ch.val 1 0 6 = n ∧ s.dev.argBits ch.val 1 8 5 = h →
      n < s.dev.part.hostPorts ∧ h < 24 →
      s.dev.hlRole n = 2 →
      s.dev.assignedFns + fns.toNat ≤ 4096 →
      s.dev.freeVdsp h = some v →
      ∃ t, exec (.hswAssignPort ch fns) s = .next { s with dev := t } ∧
        (s.dev.portGiven n = false → t.Ending ch 0 [] ∧ Tbl.get t.hsw.vdsp (32 * h + v) = some { kind := 1, a := n, b := fns.toNat }) ∧
        (s.dev.portGiven n = true → t.Answered ch 5 [] ∧ t.hsw = s.dev.hsw) ∧
        (∀ k ∈ List.range 768, k ≠ 32 * h + v → Tbl.get t.hsw.vdsp k = Tbl.get s.dev.hsw.vdsp k) ∧
        ({ s.dev with hsw := { s.dev.hsw with vdsp := t.hsw.vdsp } }).ReplyOnly t ∧
        s.dev.KeepsRegs mailRegs t) ∧
  (∀ (s : State) (ch : Chan) (pf : Bool) (n i h v : Nat),
      s.dev.Rested →
      s.dev.Asks ch 0x91 [0] →
      s.dev.argBits ch.val 1 0 6 = n ∧ s.dev.argBits ch.val 2 0 16 = i ∧ s.dev.argBits ch.val 3 0 5 = h →
      n < s.dev.part.hostPorts ∧ h < 24 →
      s.dev.hlRole n = 2 →
      (s.dev.hsw.vdsp.any (fun x => x.2.a == n && (x.2.kind == 1 || (x.2.kind == 2 && x.2.b == i))) = false) →
      s.dev.assignedFns < 4096 →
      s.dev.freeVdsp h = some v →
      ∃ t, exec (.hswAssignVf ch pf) s = .next { s with dev := t } ∧
        (pf = true → t.Ending ch 0 [] ∧ Tbl.get t.hsw.vdsp (32 * h + v) = some { kind := 2, a := n, b := i }) ∧
        (pf = false → t.Answered ch 5 [] ∧ t.hsw = s.dev.hsw) ∧
        ({ s.dev with hsw := { s.dev.hsw with vdsp := t.hsw.vdsp } }).ReplyOnly t ∧
        s.dev.KeepsRegs mailRegs t) ∧
  (∀ (s : State) (ch : Chan) (mld : Bool) (n i h v : Nat),
      s.dev.Rested →
      s.dev.Asks ch 0x92 [0] →
      s.dev.argBits ch.val 1 0 6 = n ∧ s.dev.argBits ch.val 2 0 4 = i ∧ s.dev.argBits ch.val 3 0 5 = h →
      n < s.dev.part.hostPorts ∧ h < 24 →
      s.dev.hlRole n = 2 →
      (s.dev.hsw.vdsp.any (fun x => x.2.a == n && (x.2.kind == 1 || (x.2.kind == 3 && x.2.b == i))) = false) →
      s.dev.assignedFns < 4096 →
      s.dev.freeVdsp h = some v →
      ∃ t, exec (.hswAssignLd ch mld) s = .next { s with dev := t } ∧
        (mld = true → t.Ending ch 0 [] ∧ Tbl.get t.hsw.vdsp (32 * h + v) = some { kind := 3, a := n, b := i }) ∧
        (mld = false → t.Answered ch 5 [] ∧ t.hsw = s.dev.hsw) ∧
        ({ s.dev with hsw := { s.dev.hsw with vdsp := t.hsw.vdsp } }).ReplyOnly t ∧
        s.dev.KeepsRegs mailRegs t) ∧
  (∀ (s : State) (ch : Chan) (h k : Nat) (x : Vdsp),
      s.dev.Asks ch 0x93 [0] →
      0 < s.dev.part.hostPorts →
      s.dev.argBits ch.val 1 0 5 = h ∧ h < 24 →
      k = 32 * h + s.dev.argBits ch.val 2 0 5 →
      Tbl.get s.dev.hsw.vdsp k = some x →
      ∃ t, exec (.hswRelease ch) s = .next { s with dev := t } ∧
        (x.kind ≠ 4 → t.Ending ch 0 [] ∧ Tbl.get t.hsw.vdsp k = none ∧ k ∉ t.hsw.contained ∧ k ∉ t.hsw.redirect) ∧
        (x.kind = 4 → t.Answered ch 5 [] ∧ t.hsw = s.dev.hsw)) ∧
  (∀ (s : State) (ch : Chan) (h n : Nat) (rest : Tbl Nat),
      s.dev.Rested →
      s.dev.Asks ch 0x94 [0] →
      0 < s.dev.part.hostPorts →
      s.dev.argBits ch.val 1 0 5 = h ∧ h < 24 →
      s.dev.argBits ch.val 2 0 13 = n ∧ n ≤ 4096 →
      (rest = s.dev.own.vfHier.filter (fun x => x.2 != h)) →
      rest.length + n ≤ 4096 →
      ∃ t, exec (.hswVfPool ch false) s = .next { s with dev := t } ∧
        t.Answered ch 0 [] ∧
        Tbl.get t.hsw.totalVfs h = some n ∧
        (∀ v ∈ ((List.range 4096).filter fun v => (Tbl.get rest v).isNone).take n, Tbl.get t.own.vfHier v = some h) ∧
        (∀ x ∈ rest, Tbl.get t.own.vfHier x.1 = Tbl.get rest x.1) ∧
        ({ s.dev with own := { s.dev.own with vfHier := t.own.vfHier }, hsw := { s.dev.hsw with totalVfs := t.hsw.totalVfs } }).ReplyOnly t ∧
        s.dev.KeepsRegs mailRegs t) ∧
  (∀ (s : State) (ch : Chan),
      s.dev.Rested →
      s.dev.Asks ch 0x94 [0] →
      0 < s.dev.part.hostPorts →
      s.dev.argBits ch.val 1 0 5 < 24 ∧ s.dev.argBits ch.val 2 0 13 ≤ 4096 →
      ∃ t, exec (.hswVfPool ch true) s = .next { s with dev := t } ∧
        t.Answered ch 5 [] ∧
        s.dev.ReplyOnly t ∧
        s.dev.KeepsRegs mailRegs t) ∧
  (∀ (s : State) (ch : Chan) (h n : Nat) (w : PeerWin),
      s.dev.Rested →
      s.dev.Asks ch 0x95 [0] →
      s.dev.argBits ch.val 1 0 5 = h ∧ h < 24 →
      s.dev.argBits ch.val 2 8 6 = n ∧ n < s.dev.part.hostPorts →
      w = { port := n, off := s.dev.arg64 ch.val 3, target := s.dev.arg64 ch.val 5, len := s.dev.arg64 ch.val 7 } →
      s.dev.hierActive h = true ∧ s.dev.hsw.vdsp = [] →
      ∃ t, exec (.hswP2pSet ch) s = .next { s with dev := t } ∧
        (w.off + w.len ≤ Tbl.getD s.dev.hsw.bar h 0 → t.Answered ch 0 [] ∧ Tbl.get t.hsw.windows (16 * h + s.dev.argBits ch.val 2 0 4) = some w ∧ (t.rd (if n < 32 then .HSW_P2P_LO else .HSW_P2P_HI) h).getLsbD (n % 32) = (s.dev.argBits ch.val 2 31 1 == 1)) ∧
        (Tbl.getD s.dev.hsw.bar h 0 < w.off + w.len → t.Answered ch 4 [] ∧ t.hsw = s.dev.hsw) ∧
        ({ s.dev with hsw := { s.dev.hsw with windows := t.hsw.windows } }).ReplyOnly t ∧
        s.dev.KeepsRegs (mailRegs ++ [.HSW_P2P_LO, .HSW_P2P_HI]) t) ∧
  (∀ (s : State) (ch : Chan) (k n : Nat),
      s.dev.Rested →
      s.dev.Asks ch 0x96 [0] →
      s.dev.part.hasSpill = true →
      s.dev.argBits ch.val 1 0 6 = k ∧ s.dev.argBits ch.val 2 0 1 = 1 ∧ s.dev.argBits ch.val 2 11 6 = n ∧ n < s.dev.part.hostPorts →
      s.dev.tunState k = 0 ∧ s.dev.hlRole n = 2 ∧ s.dev.portGiven n = false →
      ∃ t, exec (.hswTunnelOpen ch) s = .next { s with dev := t } ∧
        t.Started ch ∧
        t.tunState k = 1 ∧ t.tunDev k = true ∧
        t.fld F.HSW_TUN_STATUS_PORT k = n ∧ t.fld F.HSW_PORT_STATUS_TUNNEL n = k ∧ t.fld F.HSW_PORT_STATUS_PERST n = 0 ∧
        t.fld F.HSW_TUN_PEER_EP k = s.dev.argBits ch.val 3 0 22 ∧
        (t.tun k).chan = some ch.val ∧ n ∉ t.pins.perst ∧
        s.dev.KeepsRegs (mailRegs ++ [.HSW_TUN_STATUS, .HSW_TUN_PEER, .HSW_PORT_STATUS]) t) ∧
  (∀ (s : State) (ch : Chan) (k h v n : Nat),
      s.dev.Asks ch 0x96 [0] →
      s.dev.part.hasSpill = true →
      s.dev.argBits ch.val 1 0 6 = k ∧ s.dev.argBits ch.val 2 0 1 = 0 ∧ s.dev.argBits ch.val 2 1 5 = h ∧ s.dev.argBits ch.val 2 6 5 = v →
      h < 24 ∧ 2 ≤ v →
      s.dev.tunState k = 0 ∧ Tbl.get s.dev.hsw.vdsp (32 * h + v) = none →
      s.dev.noevicts < 16384 ∧ s.dev.allocConn.map (·.1) = some n →
      ∃ t, exec (.hswTunnelOpen ch) s = .next { s with dev := t } ∧
        t.Started ch ∧
        t.tunState k = 1 ∧ t.tunDev k = false ∧
        t.fld F.HSW_TUN_STATUS_HIER k = h ∧ t.fld F.HSW_TUN_STATUS_VDSP k = v ∧
        t.fld F.HSW_TUN_CONN_CONN k = n ∧ (t.conn n).state = 1 ∧ (t.conn n).noevict = true ∧
        Tbl.get t.hsw.vdsp (32 * h + v) = some { kind := 4, a := k, b := 0 }) ∧
  (∀ (s : State) (ch : Chan) (k n : Nat),
      s.dev.Rested →
      s.dev.Asks ch 0x97 [0] →
      s.dev.part.hasSpill = true →
      s.dev.argBits ch.val 1 0 6 = k →
      s.dev.tunState k = 1 ∧ s.dev.tunDev k = true ∧ s.dev.fld F.HSW_TUN_STATUS_PORT k = n →
      (s.dev.tun k).chan ≠ some ch.val →
      ∃ t, exec (.hswTunnelClose ch) s = .next { s with dev := t } ∧
        t.Ending ch 0 [] ∧
        t.tunState k = 0 ∧ t.rd .HSW_TUN_PEER k = 0#32 ∧ t.rd .HSW_TUN_CONN k = 0#32 ∧ t.tun k = Tun.reset ∧
        t.fld F.HSW_PORT_STATUS_TUNNEL n = 0x7F ∧ t.fld F.HSW_PORT_STATUS_PERST n = 1 ∧ n ∈ t.pins.perst ∧
        (∀ c ∈ (s.dev.tun k).chan.toList, Tbl.get t.mbx.outcome c = some (5, [])) ∧
        s.dev.KeepsRegs (mailRegs ++ [.HSW_TUN_STATUS, .HSW_TUN_PEER, .HSW_TUN_CONN, .HSW_PORT_STATUS]) t) ∧
  (∀ (s : State) (ch : Chan) (k : Nat),
      s.dev.Rested →
      s.dev.Asks ch 0x97 [0] →
      s.dev.part.hasSpill = true →
      s.dev.argBits ch.val 1 0 6 = k ∧ s.dev.tunState k = 0 →
      ∃ t, exec (.hswTunnelClose ch) s = .next { s with dev := t } ∧
        t.Answered ch 5 [] ∧
        s.dev.ReplyOnly t ∧
        s.dev.KeepsRegs mailRegs t)

/-- Commands on firmware images, handler packages and security. FW_STAGE takes pages that are handed over, gives them back, and
stages an image that passes the checks of Table 18-5 for the inactive bank; one that fails ends the command with DENIED (R489,
R491). FW_ACTIVATE starts an activation, a restart of class F3 (R453, R456). ENG_PKG_LOAD puts a package that passes into an
EMPTY slot, but on the VX9-TN gets UNSUPPORTED for one that declares engine-internal queues (R10), ENG_PKG_ENABLE gives it its
hedgerows and the lowest free SERVICE endpoint, and ENG_PKG_DISABLE drains it (R412 to R415). SEC_SVN_COMMIT raises a fuse
counter and never lowers one (R495, R496); SEC_KEY_PROGRAM fuses the customer key that the named page holds once;
SEC_DEBUG_UNLOCK enables debug with a valid token and takes a new nonce after every attempt (R497). The model's own choices in
it: assumptions 97, 107, 147. It says of each of FW_STAGE (fwStage), FW_ACTIVATE (fwActivate), ENG_PKG_LOAD (engPkgLoad),
ENG_PKG_ENABLE (engPkgEnable), ENG_PKG_DISABLE (engPkgDisable), SEC_SVN_COMMIT (secSvnCommit), SEC_KEY_PROGRAM (secKeyProgram)
and SEC_DEBUG_UNLOCK (secDebugUnlock) that exec answers a next state, under conditions on the state and the operands alone. -/
def Obligations.FirmwareAndPackageCommands : Prop :=
  (∀ (s : State) (ch : Chan) (img : Image) (first n : Nat),
      s.dev.Rested →
      s.dev.Asks ch 2 [0] →
      s.dev.arg ch.val 1 = first ∧ s.dev.arg ch.val 2 = n →
      s.dev.bulkOk ch.val first n = true →
      s.dev.activating = false →
      s.dev.imageCode img 1 = 0 →
      ∃ t, exec (.fwStage ch img) s = .next { s with dev := t } ∧
        t.Ending ch 0 [] ∧
        t.sec.staged = some img ∧ t.sec.stagedBank = 1 - s.dev.fld (Fld.mk .NVS_WORD 0 1) 1 ∧
        (∀ i ∈ List.range n, t.bulkOwned ch.val (first + i) = false) ∧
        ({ s.dev with sec := { s.dev.sec with staged := t.sec.staged, stagedBank := t.sec.stagedBank } }).ReplyOnly t ∧
        s.dev.KeepsRegs (mailRegs ++ [.MBX_BULK_OWN]) t) ∧
  (∀ (s : State) (ch : Chan) (img : Image) (first n : Nat),
      s.dev.Rested →
      s.dev.Asks ch 2 [0] →
      s.dev.arg ch.val 1 = first ∧ s.dev.arg ch.val 2 = n →
      s.dev.bulkOk ch.val first n = true →
      s.dev.activating = false →
      s.dev.imageCode img 1 ≠ 0 →
      ∃ t, exec (.fwStage ch img) s = .next { s with dev := t } ∧
        t.Ending ch 6 [] ∧
        (∀ i ∈ List.range n, t.bulkOwned ch.val (first + i) = false) ∧
        ({ s.dev with evr := t.evr, shadow := t.shadow, free := t.free }).ReplyOnly t ∧
        s.dev.KeepsRegs (mailRegs ++ [.MBX_BULK_OWN]) t) ∧
  (∀ (s : State) (ch : Chan) (i f : Image),
      s.dev.Rested →
      s.dev.halted = false →
      s.dev.Asks ch 3 [0] →
      s.dev.activating = false →
      s.dev.sec.staged = some i ∧ s.dev.sec.fw = some f →
      i.cpReadMin.toNat ≤ f.cpWrite.toNat ∧ f.cpWrite.toNat ≤ i.cpWrite.toNat →
      s.dev.worn 1 = false →
      s.dev.cc.restarts = [] →
      ∃ t, exec (.fwActivate ch) s = .next { s with dev := t } ∧
        t.Started ch ∧
        t.cc.activating = some ch.val ∧ t.cc.capturing = none ∧ t.cc.restarts = [s.dev.clk.edges] ∧
        t.sec = { s.dev.sec with prev := some f } ∧
        t.fld F.GLB_CC_STATUS_STATE 0 = 2 ∧ t.fld F.GLB_CC_STATUS_STEP 0 = 1 ∧
        t.flag F.GLB_FAULT_F3 0 = true ∧ t.fld F.GLB_FAULT_EVENT 0 = 3 ∧
        s.dev.KeepsRegs (mailRegs ++ [.GLB_FAULT, .GLB_FAULT_TICK_LO, .GLB_FAULT_TICK_HI]) t) ∧
  (∀ (s : State) (ch : Chan),
      s.dev.Rested →
      s.dev.Asks ch 3 [0] →
      (s.dev.sec.staged = none ∨ s.dev.activating = true) →
      ∃ t, exec (.fwActivate ch) s = .next { s with dev := t } ∧
        t.Answered ch 5 [] ∧
        s.dev.ReplyOnly t ∧
        s.dev.KeepsRegs mailRegs t) ∧
  (∀ (s : State) (ch : Chan) (pkg : Pkg) (k first n : Nat),
      s.dev.Rested →
      s.dev.Asks ch 0xA0 [0] →
      (pkg.queues = false ∨ s.dev.part.code ≠ .tn) →
      s.dev.argBits ch.val 1 0 3 = k ∧ k < 6 ∧ s.dev.pkgState k = 0 →
      s.dev.arg ch.val 2 = first ∧ s.dev.arg ch.val 3 = n ∧ s.dev.bulkOk ch.val first n = true →
      s.dev.imageCode pkg.image 2 = 0 →
      ∃ t, exec (.engPkgLoad ch pkg) s = .next { s with dev := t } ∧
        t.Ending ch 0 [word k] ∧
        t.pkgState k = 1 ∧ t.fld F.ENG_PKG_STATUS_HANDLERS k = pkg.handlers.toNat % 2 ^ F.ENG_PKG_STATUS_HANDLERS.w ∧
        t.rd .ENG_PKG_ID k = pkg.id ++ pkg.version ∧
        (∀ i ∈ List.range 16, t.rd .ENG_PKG_COST (16 * k + i) = (pkg.costs.getD i 0#16).setWidth 32) ∧
        Tbl.get t.eng.image k = some pkg.image ∧ Tbl.get t.eng.minHr k = some pkg.minHr ∧ Tbl.get t.eng.retain k = some pkg.retain ∧
        ({ s.dev with eng := { s.dev.eng with image := t.eng.image, minHr := t.eng.minHr, retain := t.eng.retain } }).ReplyOnly t ∧
        s.dev.KeepsRegs (mailRegs ++ [.MBX_BULK_OWN, .ENG_PKG_STATUS, .ENG_PKG_ID, .ENG_PKG_COST]) t) ∧
  (∀ (s : State) (ch : Chan) (pkg : Pkg),
      s.dev.Asks ch 0xA0 [0] →
      (pkg.queues = false ∨ s.dev.part.code ≠ .tn) →
      s.dev.argBits ch.val 1 0 3 = 7 ∧ s.dev.bulkOk ch.val (s.dev.arg ch.val 2) (s.dev.arg ch.val 3) = true →
      (∀ k ∈ List.range 6, s.dev.pkgState k ≠ 0) →
      ∃ t, exec (.engPkgLoad ch pkg) s = .next { s with dev := t } ∧
        t.Answered ch 8 [] ∧
        t.flag F.ENG_STATUS_PKG_REFUSED 0 = true ∧ t.eng = s.dev.eng ∧
        s.dev.KeepsRegs (mailRegs ++ [.ENG_STATUS]) t) ∧
  (∀ (s : State) (ch : Chan) (pkg : Pkg),
      s.dev.ccRuns = true ∧ s.dev.mbxState ch.val = 1 ∧ s.dev.arg ch.val 0 = 0xA0 →
      pkg.queues = true ∧ s.dev.part.code = .tn →
      ∃ t, exec (.engPkgLoad ch pkg) s = .next { s with dev := t } ∧
        t.Answered ch 7 [] ∧
        s.dev.ReplyOnly t ∧
        s.dev.KeepsRegs mailRegs t) ∧
  (∀ (s : State) (ch : Chan) (qs : List (BitVec 16)) (cx : BitVec 16) (k : Nat) (hs : List Nat),
      s.dev.Rested →
      s.dev.Asks ch 0xA1 [0] →
      s.dev.arg ch.val 1 = k ∧ k < 6 ∧ s.dev.pkgState k = 1 →
      (hs = (List.range 64).filter fun h => (BitVec.ofNat 64 (s.dev.arg64 ch.val 2)).getLsbD h) →
      hs ≠ [] ∧ Tbl.getD s.dev.eng.minHr k 0 ≤ hs.length →
      ((List.range 6).all (fun j => s.dev.fld F.ENG_PKG_STATUS_ENDPOINT j != 25) = true) →
      ∃ t, exec (.engPkgEnable ch ⟨qs, cx⟩) s = .next { s with dev := t } ∧
        t.Answered ch 0 [25#32] ∧
        t.pkgState k = 2 ∧ t.fld F.ENG_PKG_STATUS_ENDPOINT k = 25 ∧
        t.rd .ENG_PKG_HR_LO k = word (s.dev.arg ch.val 2) ∧ t.rd .ENG_PKG_HR_HI k = word (s.dev.arg ch.val 3) ∧
        Tbl.get t.eng.ctx k = some cx.toNat ∧
        t.fld F.RTE_EP_PORT 25 = 144 + hs.headD 0 / 8 ∧
        ({ s.dev with eng := { s.dev.eng with queuesOf := t.eng.queuesOf, ctx := t.eng.ctx }, evr := t.evr, shadow := t.shadow, free := t.free }).ReplyOnly t ∧
        s.dev.KeepsRegs (mailRegs ++ [.ENG_PKG_STATUS, .ENG_PKG_HR_LO, .ENG_PKG_HR_HI, .RTE_EP]) t) ∧
  (∀ (s : State) (ch : Chan) (k : Nat),
      s.dev.Rested →
      s.dev.Asks ch 0xA2 [0] →
      s.dev.arg ch.val 1 = k ∧ k < 6 ∧ s.dev.pkgState k = 2 →
      Tbl.getD s.dev.eng.queuesOf k [] = [] →
      s.dev.fld F.ENG_PKG_STATUS_ENDPOINT k < 32 →
      ∃ t, exec (.engPkgDisable ch) s = .next { s with dev := t } ∧
        t.Started ch ∧
        t.rd .RTE_EP (s.dev.fld F.ENG_PKG_STATUS_ENDPOINT k) = 0xFF#32 ∧
        ((s.dev.eng.queues.any fun q => q.2.any fun x => x.slot == k) = true → t.pkgState k = 3 ∧ Tbl.get t.eng.disabling k = some ch.val) ∧
        (s.dev.eng.queues = [] ∧ s.dev.eng.running = [] → t.Ending ch 0 [] ∧ t.rd .ENG_PKG_STATUS k = 0#32 ∧ t.rd .ENG_PKG_ID k = 0#32 ∧ Tbl.get t.eng.image k = none) ∧
        s.dev.KeepsRegs (mailRegs ++ [.ENG_PKG_STATUS, .ENG_PKG_ID, .ENG_PKG_COST, .ENG_PKG_HR_LO, .ENG_PKG_HR_HI, .RTE_EP]) t) ∧
  (∀ (s : State) (ch : Chan) (k v : Nat),
      s.dev.Rested →
      s.dev.Asks ch 0xB0 [0] →
      s.dev.argBits ch.val 1 0 2 = k ∧ k < 3 →
      s.dev.argBits ch.val 2 0 7 = v ∧ v ≤ 64 →
      s.dev.fld F.SEC_SVN_COUNT k < 64 →
      ∃ t, exec (.secSvnCommit ch) s = .next { s with dev := t } ∧
        (s.dev.fld F.SEC_SVN_COUNT k < v ∧ (∀ x ∈ s.dev.svnsOf k, v ≤ x) → t.Answered ch 0 [word v] ∧ t.fld F.SEC_SVN_COUNT k = v) ∧
        (v ≤ s.dev.fld F.SEC_SVN_COUNT k ∨ (∃ x ∈ s.dev.svnsOf k, x < v) → t.Answered ch 5 [] ∧ t.fld F.SEC_SVN_COUNT k = s.dev.fld F.SEC_SVN_COUNT k) ∧
        (∀ j ∈ List.range 3, j ≠ k → t.rd .SEC_SVN j = s.dev.rd .SEC_SVN j) ∧
        ({ s.dev with evr := t.evr, shadow := t.shadow, free := t.free }).ReplyOnly t ∧
        s.dev.KeepsRegs (mailRegs ++ [.SEC_SVN]) t) ∧
  (∀ (s : State) (ch : Chan) (signed : Bool),
      s.dev.Rested →
      s.dev.Asks ch 0xB1 [0] →
      s.dev.bulkOk ch.val (s.dev.arg ch.val 1) 1 = true →
      ∃ t, exec (.secKeyProgram ch signed) s = .next { s with dev := t } ∧
        (signed = true ∧ s.dev.flag F.SEC_STATUS_CUST_KEY 0 = false → t.Ending ch 0 [] ∧ t.flag F.SEC_STATUS_CUST_KEY 0 = true ∧ t.bulkOwned ch.val (s.dev.arg ch.val 1) = false) ∧
        (signed = false ∨ s.dev.flag F.SEC_STATUS_CUST_KEY 0 = true → t.Answered ch 5 [] ∧ t.rd .SEC_STATUS 0 = s.dev.rd .SEC_STATUS 0) ∧
        (signed = true ∧ s.dev.flag F.SEC_STATUS_CUST_KEY 0 = false → t.sec.custKey = (s.dev.load (bulkSpace ch.val) (4096 * s.dev.arg ch.val 1) 2592).1) ∧
        ({ s.dev with sec := { s.dev.sec with custKey := t.sec.custKey }, free := t.free }).ReplyOnly t ∧
        s.dev.KeepsRegs (mailRegs ++ [.SEC_STATUS, .MBX_BULK_OWN]) t) ∧
  (∀ (s : State) (ch : Chan) (valid : Bool),
      s.dev.Rested →
      s.dev.Asks ch 0xB2 [0] →
      s.dev.bulkOk ch.val (s.dev.arg ch.val 1) (s.dev.arg ch.val 2) = true →
      s.dev.flag F.SEC_STATUS_DEBUG 0 = false →
      ∃ t, exec (.secDebugUnlock ch valid) s = .next { s with dev := t } ∧
        (valid = true → t.Answered ch 0 [] ∧ t.flag F.SEC_STATUS_DEBUG 0 = true) ∧
        (valid = false → t.Answered ch 6 [] ∧ t.flag F.SEC_STATUS_DEBUG 0 = false) ∧
        t.rd .SEC_NONCE_HI 0 ++ t.rd .SEC_NONCE_LO 0 = Config.freeWord s.dev.free ∧
        ({ s.dev with evr := t.evr, shadow := t.shadow, free := t.free }).ReplyOnly t ∧
        s.dev.KeepsRegs (mailRegs ++ [.SEC_STATUS, .SEC_NONCE_LO, .SEC_NONCE_HI, .MBX_BULK_OWN]) t)

/-- Faults of class F4. Each cause of Table 16-2 stops the device: GLB_FAULT shows F4 with the cause, the fault's tick is recorded,
FAULT_N is driven, and every virtual downstream port that shows a device is contained (R450). A device in F4 stays as it is. A
rail of HBM that the part lacks, a rail out of range for at most 16 ticks, a die below 115 °C, and a fault injection without L0
or without debug change nothing (R464, R513, R518). The model's own choices in it: assumption 98. It says of each of GLB_F4
(glbF4), RAIL_FAULT (railFault), THERMAL_TRIP (thermalTrip) and GLB_FAULT_INJECT_FATAL (glbFaultInjectFatal) that exec answers a
next state, under conditions on the state and the operands alone. -/
def Obligations.FatalFaults : Prop :=
  (∀ (s : State) (cause : Fin 10),
      s.dev.Rested →
      cause.val ≠ 0 →
      (cause.val = 7 → s.dev.fld F.TCK_STATUS_CLK_STATE 0 ≠ 4) →
      (cause.val = 4 → s.dev.part.hasHbm = true) →
      s.dev.f4 = false →
      ∃ t, exec (.glbF4 cause) s = .next { s with dev := t } ∧
        t.f4 = true ∧ t.fld F.GLB_FAULT_F4_CAUSE 0 = cause.val ∧ t.fld F.GLB_FAULT_EVENT 0 = 2 ∧
        t.rd .GLB_FAULT_TICK_HI 0 ++ t.rd .GLB_FAULT_TICK_LO 0 = s.dev.clk.tick ∧
        t.pins = { s.dev.pins with fault := true } ∧
        (∀ x ∈ s.dev.hsw.vdsp, x.1 ∈ t.hsw.contained) ∧
        t = { s.dev with regs := t.regs, evr := t.evr, shadow := t.shadow, free := t.free, cnts := t.cnts, pins := t.pins, hsw := { s.dev.hsw with contained := t.hsw.contained } } ∧
        s.dev.KeepsRegs [.GLB_FAULT, .GLB_FAULT_TICK_LO, .GLB_FAULT_TICK_HI, .HSW_STATUS] t) ∧
  (∀ (s : State) (cause : Fin 10),
      s.dev.Rested →
      s.dev.f4 = true →
      ∃ t, exec (.glbF4 cause) s = .next { s with dev := t } ∧
        t = s.dev) ∧
  (∀ (s : State) (rail : Fin 8) (n : Nat),
      s.dev.Rested →
      s.dev.pins.pwrgood = true →
      s.dev.f4 = false →
      ∃ t, exec (.railFault ⟨rail, n⟩) s = .next { s with dev := t } ∧
        (16 < n ∧ railMonitored s.dev.part rail.val = true → t.f4 = true ∧ t.fld F.GLB_FAULT_F4_CAUSE 0 = 5 ∧ t.pins.fault = true) ∧
        (n ≤ 16 ∨ railMonitored s.dev.part rail.val = false → t = s.dev) ∧
        t = { s.dev with regs := t.regs, evr := t.evr, shadow := t.shadow, free := t.free, cnts := t.cnts, pins := { s.dev.pins with fault := t.pins.fault }, hsw := { s.dev.hsw with contained := t.hsw.contained } } ∧
        s.dev.KeepsRegs [.GLB_FAULT, .GLB_FAULT_TICK_LO, .GLB_FAULT_TICK_HI, .HSW_STATUS] t) ∧
  (∀ (s : State) (temp : Nat),
      s.dev.Rested →
      s.dev.pins.pwrgood = true →
      s.dev.f4 = false →
      ∃ t, exec (.thermalTrip temp) s = .next { s with dev := t } ∧
        (115 ≤ temp → t.f4 = true ∧ t.fld F.GLB_FAULT_F4_CAUSE 0 = 6 ∧ t.pins = { s.dev.pins with fault := true, thermtrip := true }) ∧
        (temp < 115 → t = s.dev) ∧
        t = { s.dev with regs := t.regs, evr := t.evr, shadow := t.shadow, free := t.free, cnts := t.cnts, pins := t.pins, hsw := { s.dev.hsw with contained := t.hsw.contained } } ∧
        s.dev.KeepsRegs [.GLB_FAULT, .GLB_FAULT_TICK_LO, .GLB_FAULT_TICK_HI, .HSW_STATUS] t) ∧
  (∀ (s : State) (src : Src),
      s.dev.Rested →
      s.dev.f4 = false →
      ∃ t, exec (.glbFaultInjectFatal src) s = .next { s with dev := t } ∧
        (s.dev.level src = 0 ∧ s.dev.flag F.SEC_STATUS_DEBUG 0 = true → t.f4 = true ∧ t.fld F.GLB_FAULT_F4_CAUSE 0 = 9 ∧ t.pins.fault = true) ∧
        (s.dev.level src ≠ 0 ∨ s.dev.flag F.SEC_STATUS_DEBUG 0 = false → t = s.dev) ∧
        s.dev.KeepsRegs [.GLB_FAULT, .GLB_FAULT_TICK_LO, .GLB_FAULT_TICK_HI, .HSW_STATUS] t)

/-- Coppice points, restarts, activations and measurements. At a tick that is a multiple of 1,024 a coppice point begins in the
other slot and is valid once it is done, when older journal entries go (R451, R452). A restart is F3, discards the point being
captured, and is F4 when it is the third within 1 s (R453); the watchdog and an injected restart cause one. GLB_CC_READY ends
it, and after an activation the staged image runs; with no valid point the device is in F4 (R454 to R456). GLB_FW_FALLBACK
restarts with the previous image, and the command ends DENIED (R457). SPDM answers carry the measurements asked for (R498,
R499). The model's own choices in it: assumptions 99, 100, 108. It says of each of COPPICE_POINT (coppicePoint),
COPPICE_POINT_DONE (coppicePointDone), GLB_CC_RESTART (glbCcRestart), FW_WATCHDOG_EXPIRED (fwWatchdogExpired),
GLB_FAULT_INJECT_RESTART (glbFaultInjectRestart), GLB_CC_READY (glbCcReady), GLB_FW_FALLBACK (glbFwFallback) and SPDM_REQUEST
(spdmRequest) that exec answers a next state, under conditions on the state and the operands alone. -/
def Obligations.RestartsAndCoppicePoints : Prop :=
  (∀ (s : State),
      s.dev.Rested →
      s.dev.ccUp = true ∧ s.dev.ccRuns = true →
      s.dev.clk.tick.toNat % 1024 = 0 →
      s.dev.cc.capturing = none →
      s.dev.cc.latest.map (·.tick) ≠ some s.dev.clk.tick →
      ∃ t, exec .coppicePoint s = .next { s with dev := t } ∧
        t.cc.capturing = some (s.dev.cc.nextSlot, s.dev.clk.tick, s.dev.clk.edges) ∧
        Tbl.get t.cc.slots s.dev.cc.nextSlot = some { format := s.dev.fwFormat, tick := s.dev.clk.tick, valid := false } ∧
        t = { s.dev with cc := { s.dev.cc with capturing := t.cc.capturing, slots := t.cc.slots } }) ∧
  (∀ (s : State) (k e : Nat) (at_ : Tick),
      s.dev.Rested →
      s.dev.cc.capturing = some (k, at_, e) →
      ∃ t, exec .coppicePointDone s = .next { s with dev := t } ∧
        Tbl.get t.cc.slots k = some { Tbl.getD s.dev.cc.slots k { format := s.dev.fwFormat, tick := at_, valid := false } with valid := true } ∧ t.cc.capturing = none ∧ t.cc.nextSlot = (k + 1) % 2 ∧
        (t.cc.journal = s.dev.cc.journal.filter fun j => decide (e ≤ j.at_)) ∧
        t.fld F.GLB_CC_STATUS_SLOT_SEQ 0 = at_.toNat / 1024 % 2 ^ F.GLB_CC_STATUS_SLOT_SEQ.w ∧
        t = { s.dev with regs := t.regs, cc := { s.dev.cc with capturing := t.cc.capturing, nextSlot := t.cc.nextSlot, slots := t.cc.slots, journal := t.cc.journal } } ∧
        s.dev.KeepsRegs [.GLB_CC_STATUS] t) ∧
  (∀ (s : State) (recent : List Nat),
      s.dev.Rested →
      s.dev.ccUp = true →
      (recent = s.dev.cc.restarts.filter fun e => decide (s.dev.clk.edges ≤ e + 1562500)) →
      ∃ t, exec .glbCcRestart s = .next { s with dev := t } ∧
        t.fld F.GLB_CC_STATUS_STATE 0 = max 1 (s.dev.fld F.GLB_CC_STATUS_STATE 0) ∧ t.fld F.GLB_CC_STATUS_STEP 0 = 1 ∧
        t.flag F.GLB_FAULT_F3 0 = true ∧
        t.cc = { s.dev.cc with capturing := none, restarts := s.dev.clk.edges :: recent } ∧
        (recent.length < 2 → t.f4 = false ∧ t.fld F.GLB_FAULT_EVENT 0 = 3 ∧ t.hsw = s.dev.hsw ∧ t.pins = s.dev.pins) ∧
        (2 ≤ recent.length → t.f4 = true ∧ t.fld F.GLB_FAULT_F4_CAUSE 0 = 2) ∧
        t = { s.dev with regs := t.regs, evr := t.evr, shadow := t.shadow, free := t.free, cnts := t.cnts, cc := t.cc, pins := t.pins, hsw := { s.dev.hsw with contained := t.hsw.contained } } ∧
        s.dev.KeepsRegs [.GLB_CC_STATUS, .GLB_FAULT, .GLB_FAULT_TICK_LO, .GLB_FAULT_TICK_HI, .HSW_STATUS] t) ∧
  (∀ (s : State),
      s.dev.Rested →
      s.dev.ccUp = true ∧ s.dev.ccRuns = true →
      s.dev.cc.restarts = [] →
      ∃ t, exec .fwWatchdogExpired s = .next { s with dev := t } ∧
        (s.dev.cc.checkin + 15625 ≤ s.dev.clk.edges → t.fld F.GLB_CC_STATUS_STATE 0 = 1 ∧ t.fld F.GLB_CC_STATUS_STEP 0 = 1 ∧ t.flag F.GLB_FAULT_F3 0 = true ∧ t.cc.restarts = [s.dev.clk.edges]) ∧
        (s.dev.clk.edges < s.dev.cc.checkin + 15625 → t = s.dev) ∧
        t = { s.dev with regs := t.regs, evr := t.evr, shadow := t.shadow, free := t.free, cc := { s.dev.cc with capturing := t.cc.capturing, restarts := t.cc.restarts } } ∧
        s.dev.KeepsRegs [.GLB_CC_STATUS, .GLB_FAULT, .GLB_FAULT_TICK_LO, .GLB_FAULT_TICK_HI] t) ∧
  (∀ (s : State) (src : Src),
      s.dev.Rested →
      s.dev.ccUp = true ∧ s.dev.ccRuns = true →
      s.dev.cc.restarts = [] →
      ∃ t, exec (.glbFaultInjectRestart src) s = .next { s with dev := t } ∧
        (s.dev.level src = 0 ∧ s.dev.flag F.SEC_STATUS_DEBUG 0 = true → t.fld F.GLB_CC_STATUS_STATE 0 = 1 ∧ t.flag F.GLB_FAULT_F3 0 = true ∧ t.cc.restarts = [s.dev.clk.edges]) ∧
        (s.dev.level src ≠ 0 ∨ s.dev.flag F.SEC_STATUS_DEBUG 0 = false → t = s.dev) ∧
        s.dev.KeepsRegs [.GLB_CC_STATUS, .GLB_FAULT, .GLB_FAULT_TICK_LO, .GLB_FAULT_TICK_HI] t) ∧
  (∀ (s : State),
      s.dev.Rested →
      s.dev.ccUp = true →
      (s.dev.fld F.GLB_CC_STATUS_STATE 0 = 1 ∨ s.dev.fld F.GLB_CC_STATUS_STATE 0 = 3) →
      s.dev.cc.latest ≠ none →
      s.dev.mbx.held = [] →
      ∃ t, exec .glbCcReady s = .next { s with dev := t } ∧
        t.ccRuns = true ∧ t.fld F.GLB_CC_STATUS_STEP 0 = 0 ∧
        (t.cc = { s.dev.cc with checkin := s.dev.clk.edges, journal := s.dev.cc.journal.map fun j => { j with done := true } }) ∧
        t = { s.dev with regs := t.regs, evr := t.evr, shadow := t.shadow, free := t.free, cc := t.cc } ∧
        s.dev.KeepsRegs [.GLB_CC_STATUS] t) ∧
  (∀ (s : State) (i : Image) (ch : Nat),
      s.dev.ccUp = true →
      s.dev.fld F.GLB_CC_STATUS_STATE 0 = 2 →
      s.dev.cc.latest ≠ none →
      s.dev.sec.staged = some i ∧ s.dev.svnOk (some i) 1 = true →
      s.dev.cc.activating = some ch →
      s.dev.mbx.held = [] →
      s.dev.nvs.queue = [] ∧ s.dev.worn 1 = false →
      ∃ t, exec .glbCcReady s = .next { s with dev := t } ∧
        t.ccRuns = true ∧
        t.sec = { s.dev.sec with fw := some i, prev := none, staged := none } ∧
        t.rd .GLB_FW_VERSION 0 = i.version ∧
        t.nvs.queue = [(1, BitVec.ofNat 32 s.dev.sec.stagedBank &&& nvsMask 1)] ∧
        t.cc.activating = none ∧ Tbl.get t.mbx.outcome ch = some (0, []) ∧
        s.dev.KeepsRegs [.GLB_CC_STATUS, .GLB_FW_VERSION, .NVS_WORD, .NVS_STATUS] t) ∧
  (∀ (s : State),
      s.dev.ccUp = true →
      s.dev.fld F.GLB_CC_STATUS_STATE 0 ≠ 0 →
      s.dev.cc.latest = none →
      ∃ t, exec .glbCcReady s = .next { s with dev := t } ∧
        t.f4 = true ∧ t.fld F.GLB_FAULT_F4_CAUSE 0 = 3 ∧ t.fld F.GLB_FAULT_EVENT 0 = 3) ∧
  (∀ (s : State) (ch : Nat),
      s.dev.Rested →
      s.dev.ccUp = true →
      s.dev.fld F.GLB_CC_STATUS_STATE 0 = 2 →
      s.dev.cc.activating = some ch →
      s.dev.cc.restarts.length < 2 →
      ∃ t, exec .glbFwFallback s = .next { s with dev := t } ∧
        t.fld F.GLB_CC_STATUS_STATE 0 = 3 ∧ t.fld F.GLB_CC_STATUS_STEP 0 = 1 ∧
        t.cc.activating = none ∧ Tbl.get t.mbx.outcome ch = some (6, []) ∧
        t.sec = s.dev.sec ∧ t.f4 = false ∧
        t = { s.dev with regs := t.regs, evr := t.evr, shadow := t.shadow, free := t.free, cc := { s.dev.cc with capturing := none, restarts := t.cc.restarts, activating := none }, mbx := { s.dev.mbx with outcome := t.mbx.outcome } } ∧
        s.dev.KeepsRegs [.GLB_CC_STATUS, .GLB_FAULT, .GLB_FAULT_TICK_LO, .GLB_FAULT_TICK_HI] t) ∧
  (∀ (s : State) (bs : List (Fin 13)),
      s.dev.Rested →
      s.dev.ccRuns = true →
      ∃ t, exec (.spdmRequest (.getMeasurements bs)) s = .next { s with dev := t } ∧
        (t.out = .spdm (.getMeasurements bs) (s.dev.measured.filter fun m => bs.any fun b => b.val == m.1) :: s.dev.out) ∧
        t = { s.dev with out := t.out }) ∧
  (∀ (s : State) (req : SpdmReq),
      s.dev.Rested →
      s.dev.ccRuns = true →
      req ∈ [SpdmReq.getVersion, .getCapabilities, .negotiateAlgorithms, .getDigests, .challenge, .other] ++ (List.finRange 8).map SpdmReq.getCertificate →
      ∃ t, exec (.spdmRequest req) s = .next { s with dev := t } ∧
        t.out = .spdm req [] :: s.dev.out ∧
        t = { s.dev with out := t.out })

/-- Snapshots, clears and freezes. When a snapshot falls due, the counters of the selected groups as the boundary found them are
latched under the next number and the SEQ of its slot is set to 0, or the snapshot is skipped while the previous one is being
written (R468, R470). Once it is written its SEQ is its number and the counter pages take it; where the write fails its SEQ is 0
and WRITE_FAIL is set (R470, R472). PMC_NOW stages a NOW while EN is 1. FREEZE stops and resumes recording at L0, and is
released after 3,125,000 ticks (R478). The two clears empty every slot of their area and restart its record numbers (R474,
R476). The model's own choices in it: assumptions 21, 115. It says of each of SNAPSHOT_DUE (snapshotDue), PMC_NOW (pmcNow),
SNAPSHOT_WRITE_DONE (snapshotWriteDone), EVR_FREEZE (evrFreeze), EVR_FREEZE_TIMEOUT (evrFreezeTimeout), CLEAR_PERM (clearPerm)
and CLEAR_CIRC (clearCirc) that exec answers a next state, under conditions on the state and the operands alone. -/
def Obligations.SnapshotsAndRecorder : Prop :=
  (∀ (s : State) (sp : Space) (a z : Nat),
      s.dev.Rested →
      s.dev.snapHome (s.dev.fld F.PMC_GROUPS_MASK 0) ((s.dev.pmc.num + 1) % s.dev.snapSlots) = (sp, a) →
      z = a + 64 + 8 * entryCount (s.dev.fld F.PMC_GROUPS_MASK 0) →
      s.dev.flag F.PMC_CFG_EN 0 = true →
      (s.dev.clk.tick.toNat % s.dev.snapPeriod = 0 ∨ s.dev.pmc.now = true) →
      s.dev.pmc.dueAt ≠ some s.dev.clk.edges →
      s.dev.pmc.cur = none →
      ∃ t, exec .snapshotDue s = .next { s with dev := t } ∧
        t.pmc.num = s.dev.pmc.num + 1 ∧ t.pmc.skip = false ∧ t.pmc.dueAt = some s.dev.clk.edges ∧
        (t.pmc.cur.map fun n => (n.num, n.tick, n.now, n.skipped)) = some (s.dev.pmc.num + 1, s.dev.clk.tick, s.dev.pmc.now, s.dev.pmc.skip) ∧
        (t.pmc.cur.map fun n => (n.device, n.groups, n.epoch, n.fabric, n.period)) = some (s.dev.fld F.RTE_ID_DEVICE 0, s.dev.fld F.PMC_GROUPS_MASK 0, s.dev.fld F.TCK_STATUS_EPOCH 0, s.dev.flag F.TCK_STATUS_FABRIC 0, s.dev.fld F.PMC_CFG_PERIOD 0) ∧
        (∀ g ∈ List.range 13, ∀ j ∈ List.range 1408, (s.dev.fld F.PMC_GROUPS_MASK 0).testBit g = true → cntAbsent s.dev.part g j = false → (t.pmc.cur.map fun n => Tbl.getD (Tbl.getD n.cnts g []) j 0#48) = some (Tbl.getD (Tbl.getD s.dev.pmc.edge g []) j 0#48)) ∧
        (s.dev.snapHeld = false → ∀ i ∈ List.range 8, Mem.read t.mem (sp.base + z + i) = some 0#8) ∧
        (s.dev.snapHeld = true → t.mem = s.dev.mem) ∧
        t.fld F.PMC_STATUS_WRITING 0 = 1 ∧
        t = { s.dev with regs := t.regs, mem := t.mem, pmc := t.pmc } ∧
        (∀ b, b < sp.base + z ∨ sp.base + z + 8 ≤ b → Mem.read t.mem b = Mem.read s.dev.mem b) ∧
        s.dev.KeepsRegs [.PMC_STATUS] t) ∧
  (∀ (s : State) (n : Snap),
      s.dev.Rested →
      s.dev.flag F.PMC_CFG_EN 0 = true →
      (s.dev.clk.tick.toNat % s.dev.snapPeriod = 0 ∨ s.dev.pmc.now = true) →
      s.dev.pmc.dueAt ≠ some s.dev.clk.edges →
      s.dev.pmc.cur = some n →
      ∃ t, exec .snapshotDue s = .next { s with dev := t } ∧
        t.flag F.PMC_STATUS_SKIPPED 0 = true ∧
        t.pmc = { s.dev.pmc with skip := true, dueAt := some s.dev.clk.edges } ∧
        t = { s.dev with regs := t.regs, evr := t.evr, shadow := t.shadow, free := t.free, pmc := t.pmc } ∧
        s.dev.KeepsRegs [.PMC_STATUS] t) ∧
  (∀ (s : State) (src : Src) (late : Bool),
      s.dev.Rested →
      Tbl.get s.dev.clk.holdAt src.fn = none →
      ∃ t, exec (.pmcNow src late) s = .next { s with dev := t } ∧
        (s.dev.level src = 0 ∧ s.dev.flag F.PMC_CFG_EN 0 = true → t.clk.staged.getLast? = some { due := some (s.dev.clk.edges + (if late then 2 else 1)), fn := src.fn, act := .pmcNow }) ∧
        (s.dev.level src ≠ 0 ∨ s.dev.flag F.PMC_CFG_EN 0 = false → t = s.dev) ∧
        t = { s.dev with clk := { s.dev.clk with staged := t.clk.staged } }) ∧
  (∀ (s : State) (n : Snap) (sp : Space) (a z : Nat),
      s.dev.Rested →
      s.dev.pmc.cur = some n →
      s.dev.snapHeld = false →
      s.dev.snapHome n.groups (n.num % s.dev.snapSlots) = (sp, a) →
      z = a + 64 + 8 * entryCount n.groups →
      n.num < 2 ^ 64 →
      n.entries.length = 8 * entryCount n.groups →
      ∃ t, exec (.snapshotWriteDone .ok) s = .next { s with dev := t } ∧
        t.pmc = { s.dev.pmc with cur := none, page := some n } ∧
        t.rd .PMC_SEQ_HI 0 ++ t.rd .PMC_SEQ_LO 0 = BitVec.ofNat 64 n.num ∧ t.fld F.PMC_STATUS_WRITING 0 = 0 ∧
        (∀ i ∈ List.range 8, Mem.read t.mem (sp.base + z + i) = (leBytes 8 n.num)[i]?) ∧
        (∀ i ∈ List.range (z - a), Mem.read t.mem (sp.base + a + i) = some ((n.header ++ n.entries).getD i 0#8)) ∧
        t = { s.dev with regs := t.regs, mem := t.mem, pmc := t.pmc } ∧
        (∀ b, b < sp.base + a ∨ sp.base + z + 8 ≤ b → Mem.read t.mem b = Mem.read s.dev.mem b) ∧
        s.dev.KeepsRegs [.PMC_STATUS, .PMC_SEQ_LO, .PMC_SEQ_HI] t) ∧
  (∀ (s : State) (res : MemRes) (n : Snap) (sp : Space) (a z : Nat),
      s.dev.Rested →
      res ≠ .ok →
      s.dev.pmc.cur = some n →
      s.dev.snapHeld = false →
      s.dev.snapHome n.groups (n.num % s.dev.snapSlots) = (sp, a) →
      z = a + 64 + 8 * entryCount n.groups →
      ∃ t, exec (.snapshotWriteDone res) s = .next { s with dev := t } ∧
        t.pmc = { s.dev.pmc with cur := none } ∧
        t.flag F.PMC_STATUS_WRITE_FAIL 0 = true ∧ t.fld F.PMC_STATUS_WRITING 0 = 0 ∧
        (∀ i ∈ List.range 8, Mem.read t.mem (sp.base + z + i) = some 0#8) ∧
        t = { s.dev with regs := t.regs, evr := t.evr, shadow := t.shadow, free := t.free, mem := t.mem, pmc := t.pmc } ∧
        (∀ b, b < sp.base + z ∨ sp.base + z + 8 ≤ b → Mem.read t.mem b = Mem.read s.dev.mem b) ∧
        s.dev.KeepsRegs [.PMC_STATUS] t) ∧
  (∀ (s : State) (src : Src) (on : Bool),
      s.dev.Rested →
      ∃ t, exec (.evrFreeze src on) s = .next { s with dev := t } ∧
        (s.dev.level src = 0 ∧ on = true → t.flag F.EVR_STATUS_FROZEN 0 = true ∧ t.flag F.EVR_CTRL_FREEZE 0 = true ∧ t.evr.freezeAt = some (s.dev.evr.freezeAt.getD s.dev.clk.edges)) ∧
        (s.dev.level src = 0 ∧ on = false → t.flag F.EVR_STATUS_FROZEN 0 = false ∧ t.flag F.EVR_CTRL_FREEZE 0 = false ∧ t.evr.freezeAt = none) ∧
        (s.dev.level src ≠ 0 → t = s.dev) ∧
        t = { s.dev with regs := t.regs, evr := { s.dev.evr with freezeAt := t.evr.freezeAt } } ∧
        s.dev.KeepsRegs [] t) ∧
  (∀ (s : State) (e : Nat),
      s.dev.Rested →
      s.dev.evr.freezeAt = some e →
      ∃ t, exec .evrFreezeTimeout s = .next { s with dev := t } ∧
        (e + 3125000 ≤ s.dev.clk.edges → t.flag F.EVR_STATUS_FROZEN 0 = false ∧ t.flag F.EVR_CTRL_FREEZE 0 = false ∧ t.evr.freezeAt = none) ∧
        (s.dev.clk.edges < e + 3125000 → t = s.dev) ∧
        s.dev.OnlyRegs [] t) ∧
  (∀ (s : State) (src : Src),
      s.dev.Rested →
      ∃ t, exec (.clearPerm src) s = .next { s with dev := t } ∧
        (s.dev.level src = 0 → t.fld F.EVR_STATUS_PERM_USED 0 = 0 ∧ t.evr.permNext = 0 ∧ t.evr.permUsed = 0 ∧ (∀ x ∈ t.evr.perm, x.2.empty = true ∨ 100000 ≤ Tbl.getD s.dev.evr.wear x.1 0) ∧ t.evr.circ = s.dev.evr.circ) ∧
        (s.dev.level src ≠ 0 → t = s.dev) ∧
        t = { s.dev with regs := t.regs, evr := t.evr } ∧
        s.dev.KeepsRegs [] t) ∧
  (∀ (s : State) (src : Src),
      s.dev.Rested →
      ∃ t, exec (.clearCirc src) s = .next { s with dev := t } ∧
        (s.dev.level src = 0 → t.fld F.EVR_STATUS_CIRC_COUNT 0 = 0 ∧ t.evr.circNext = 0 ∧ (∀ x ∈ t.evr.circ, x.2.empty = true) ∧ t.evr.perm = s.dev.evr.perm) ∧
        (s.dev.level src ≠ 0 → t = s.dev) ∧
        t = { s.dev with regs := t.regs, evr := { s.dev.evr with circ := t.evr.circ, circNext := t.evr.circNext } } ∧
        s.dev.KeepsRegs [] t)

/-- Cold and warm resets, and power. A cold reset, when PWRGOOD rises, samples the straps and begins boot at step 2, or in recovery;
it keeps the persistent words and the permanent records, raises each link's own epoch, and ends F4; the device's own memory is
lost and memory outside it is not (R483, R486, R492, R494, Table 18-1). A warm reset keeps the circulating records too, and
while it lasts PERST_N of every DOWNSTREAM and POOL port is asserted (R485); when it is released boot begins. When power goes
with VDD_NVS held, every queued persistent write completes (R502, R517). In reset there is nothing more to reset. The model's
own choices in it: assumptions 109, 110, 111. It says of each of COLD_RESET (coldReset), WARM_RESET (warmReset),
WARM_RESET_RELEASE (warmResetRelease) and POWER_DOWN (powerDown) that exec answers a next state, under conditions on the state
and the operands alone. -/
def Obligations.ResetsAndPower : Prop :=
  (∀ (s : State) (role boot : BitVec 2),
      s.dev.pins.pwrgood = false →
      boot ≠ 2#2 →
      ∃ t, exec (.coldReset role boot) s = .next { s with dev := t } ∧
        t.pins.pwrgood = true ∧ t.pins.strapRole = role ∧ t.pins.strapBoot = boot ∧ t.pins.fault = false ∧
        t.sec.step = 2 ∧ t.sec.recovery = false ∧ t.sec.bank = s.dev.fld (Fld.mk .NVS_WORD 0 1) 1 ∧
        t.f4 = false ∧ t.clk.tick = 0#64 ∧
        ((∀ i ∈ List.range 512, t.rd .NVS_WORD i = s.dev.rd .NVS_WORD i) ∧ t.nvs = s.dev.nvs) ∧
        t.evr.perm = s.dev.evr.perm ∧ t.evr.permNext = s.dev.evr.permNext ∧ t.evr.circ = [] ∧
        (∀ p ∈ List.range 128, t.fld F.LNK_EPOCH_OWN p = (s.dev.fld F.LNK_EPOCH_OWN p + 1) % 65536) ∧
        ((s.dev.rd .NVS_WORD 0).getLsbD 31 = false → t.fld F.RTE_ROLE_ROLE 0 = role.toNat ∧ t.fld F.SEC_STATUS_ROLE 0 = role.toNat) ∧
        (s.dev.wr = [] → t.mem = outsideMem s.dev.mem)) ∧
  (∀ (s : State) (role boot : BitVec 2),
      s.dev.pins.pwrgood = false →
      boot = 2#2 →
      ∃ t, exec (.coldReset role boot) s = .next { s with dev := t } ∧
        t.sec.step = 2 ∧ t.sec.recovery = true ∧ t.sec.first = none ∧ t.sec.fw = none) ∧
  (∀ (s : State) (role boot : BitVec 2),
      s.dev.Rested →
      s.dev.pins.pwrgood = true →
      ∃ t, exec (.coldReset role boot) s = .next { s with dev := t } ∧
        t = s.dev) ∧
  (∀ (s : State),
      s.dev.inReset = false →
      ∃ t, exec .warmReset s = .next { s with dev := t } ∧
        t.inReset = true ∧ t.pins.sysRst = true ∧ t.sec.step = 0 ∧ t.f4 = false ∧
        t.evr.circ = s.dev.evr.circ ∧ t.evr.perm = s.dev.evr.perm ∧
        ((∀ i ∈ List.range 512, t.rd .NVS_WORD i = s.dev.rd .NVS_WORD i) ∧ t.nvs = s.dev.nvs) ∧
        (∀ n ∈ List.range 48, 2 ≤ s.dev.hlRole n → n ∈ t.pins.perst ∧ t.fld F.HSW_PORT_STATUS_PERST n = 1) ∧
        (∀ p ∈ List.range 128, t.fld F.LNK_EPOCH_OWN p = (s.dev.fld F.LNK_EPOCH_OWN p + 1) % 65536) ∧
        (s.dev.wr = [] → t.mem = outsideMem s.dev.mem)) ∧
  (∀ (s : State),
      s.dev.pins.pwrgood = true →
      s.dev.pins.sysRst = true →
      s.dev.pins.strapBoot ≠ 2#2 →
      ∃ t, exec .warmResetRelease s = .next { s with dev := t } ∧
        t.inReset = false ∧ t.sec.step = 2 ∧ t.sec.recovery = false ∧
        t.sec.bank = s.dev.fld (Fld.mk .NVS_WORD 0 1) 1 ∧
        t.rd .SEC_NONCE_HI 0 ++ t.rd .SEC_NONCE_LO 0 = Config.freeWord s.dev.free ∧
        s.dev.KeepsRegs [.SEC_STATUS, .SEC_NONCE_LO, .SEC_NONCE_HI, .RTE_ROLE, .TCK_PARENT] t) ∧
  (∀ (s : State),
      s.dev.Rested →
      s.dev.pins.pwrgood = true →
      s.dev.nvs.queue = [] →
      ∃ t, exec (.powerDown true) s = .next { s with dev := t } ∧
        t.pins = { Pins.reset with pwrgood := false, spi := false, strapRole := s.dev.pins.strapRole, strapBoot := s.dev.pins.strapBoot } ∧
        t.sec = { s.dev.sec with step := 0 } ∧
        t = { s.dev with pins := t.pins, sec := t.sec }) ∧
  (∀ (s : State) (i : Nat) (v : Word),
      s.dev.Rested →
      s.dev.pins.pwrgood = true →
      s.dev.nvs.queue = [(i, v)] →
      s.dev.fld F.NVS_WEAR_COUNT i < 99999 →
      ∃ t, exec (.powerDown true) s = .next { s with dev := t } ∧
        t.nvs.queue = [] ∧ Tbl.get t.nvs.stored i = some v ∧
        t.fld F.NVS_WEAR_COUNT i = s.dev.fld F.NVS_WEAR_COUNT i + 1 ∧
        t.pins.pwrgood = false ∧
        s.dev.KeepsRegs [.NVS_WEAR, .NVS_STATUS] t)

/-- Boot, recovery and persistent writes. A first-stage image that passes its checks leads to step 3, trained memory to step 4, and
a firmware image that passes to the running control complex, which loads and enables a package that passes its checks (R491,
R492). An image that fails keeps its code and leads to the other bank, and from the second bank to recovery (R492, R494). In
recovery a first-stage and then a firmware image that pass lead to step 3. A stack that fails its training is F4. NVS_WRITE at
L0 queues a write and the word reads the new value at once; a write to a word that waits in the queue replaces what waits, one
that finds 16 others waiting sets OVERFLOW, and a word that is worn keeps its value (R500, R501, R503). NVS_PROGRAM_DONE stores
the first queued write and counts its wear. The model's own choices in it: assumptions 110, 112, 113, 114. It says of each of
BOOT_IMAGE_LOADED (bootImageLoaded), HBM_TRAINING_DONE (hbmTrainingDone), SEC_RECOVERY (secRecovery), NVS_WRITE (nvsWrite) and
NVS_PROGRAM_DONE (nvsProgramDone) that exec answers a next state, under conditions on the state and the operands alone. -/
def Obligations.BootAndPersistentWrites : Prop :=
  (∀ (s : State) (img : Image) (pkgs : List BootPkg),
      s.dev.Rested →
      s.dev.halted = false ∧ s.dev.sec.recovery = false ∧ s.dev.sec.step = 2 →
      s.dev.imageCode img 0 = 0 →
      ∃ t, exec (.bootImageLoaded ⟨img, pkgs⟩) s = .next { s with dev := t } ∧
        t.sec = { s.dev.sec with first := some img, step := 3 } ∧
        t = { s.dev with sec := t.sec }) ∧
  (∀ (s : State) (img : Image) (pkgs : List BootPkg),
      s.dev.halted = false ∧ s.dev.sec.recovery = false ∧ s.dev.sec.step = 4 →
      s.dev.imageCode img 1 = 0 →
      ∃ t, exec (.bootImageLoaded ⟨img, pkgs⟩) s = .next { s with dev := t } ∧
        t.sec.step = 6 ∧ t.sec.fw = some img ∧ t.rd .GLB_FW_VERSION 0 = img.version ∧
        (t.fld (if s.dev.sec.bank = 0 then F.SEC_STATUS_FAIL_A else F.SEC_STATUS_FAIL_B) 0 = 0) ∧
        (∀ h ∈ List.range 24, s.dev.hierActive h = true → t.fld F.HSW_HIER_READY h = 1) ∧
        s.dev.KeepsRegs [.GLB_FW_VERSION, .SEC_STATUS, .HSW_HIER, .RTE_EP, .ENG_PKG_STATUS, .ENG_PKG_ID, .ENG_PKG_COST, .ENG_PKG_HR_LO, .ENG_PKG_HR_HI, .ENG_STATUS] t) ∧
  (∀ (s : State) (img : Image) (x : BootPkg) (e : Nat),
      s.dev.halted = false ∧ s.dev.sec.recovery = false ∧ s.dev.sec.step = 4 →
      s.dev.imageCode img 1 = 0 ∧ s.dev.imageCode x.pkg.image 2 = 0 →
      (s.dev.fld F.ENG_PKG_STATUS_STATE x.slot.val = 0 ∧ hrsOk x.hrs x.pkg.minHr = true ∧ (x.pkg.queues = false ∨ s.dev.part.code ≠ .tn)) →
      (s.dev.freeService = some e ∧ ∀ j ∈ List.range 6, s.dev.fld F.ENG_PKG_STATUS_ENDPOINT j ≠ 0 → j ≠ x.slot.val) →
      ∃ t, exec (.bootImageLoaded ⟨img, [x]⟩) s = .next { s with dev := t } ∧
        t.sec.step = 6 ∧ t.sec.fw = some img ∧
        t.fld F.ENG_PKG_STATUS_STATE x.slot.val = 2 ∧ t.fld F.ENG_PKG_STATUS_ENDPOINT x.slot.val = e ∧
        t.rd .ENG_PKG_ID x.slot.val = x.pkg.id ++ x.pkg.version ∧ t.rd .ENG_PKG_HR_HI x.slot.val ++ t.rd .ENG_PKG_HR_LO x.slot.val = x.hrs ∧
        s.dev.KeepsRegs [.GLB_FW_VERSION, .SEC_STATUS, .HSW_HIER, .RTE_EP, .ENG_PKG_STATUS, .ENG_PKG_ID, .ENG_PKG_COST, .ENG_PKG_HR_LO, .ENG_PKG_HR_HI] t) ∧
  (∀ (s : State) (img : Image) (k c : Nat) (pkgs : List BootPkg),
      s.dev.Rested →
      s.dev.halted = false ∧ s.dev.sec.recovery = false →
      ((s.dev.sec.step = 2 ∧ k = 0) ∨ (s.dev.sec.step = 4 ∧ k = 1)) →
      s.dev.imageCode img k = c ∧ c ≠ 0 →
      ∃ t, exec (.bootImageLoaded ⟨img, pkgs⟩) s = .next { s with dev := t } ∧
        (t.fld (if s.dev.sec.bank = 0 then F.SEC_STATUS_FAIL_A else F.SEC_STATUS_FAIL_B) 0 = c) ∧
        (s.dev.sec.second = false → t.sec = { s.dev.sec with bank := 1 - s.dev.sec.bank, second := true, step := 2, first := none }) ∧
        (s.dev.sec.second = true → t.sec = { s.dev.sec with recovery := true, step := 2, first := none, fw := none }) ∧
        t = { s.dev with regs := t.regs, evr := t.evr, shadow := t.shadow, free := t.free, sec := t.sec } ∧
        s.dev.KeepsRegs [.SEC_STATUS] t) ∧
  (∀ (s : State) (ok : Bool) (pkgs : List BootPkg),
      s.dev.Rested →
      s.dev.halted = false ∧ s.dev.sec.step = 3 →
      s.dev.sec.recovery = false →
      (ok = true ∨ s.dev.part.hasHbm = false) →
      ∃ t, exec (.hbmTrainingDone ⟨ok, pkgs⟩) s = .next { s with dev := t } ∧
        t.sec = { s.dev.sec with step := 4 } ∧
        (∀ n ∈ List.range 48, t.portCfg n = s.dev.rd .HSW_PORT_CFG n ∧ t.fld F.HSW_PORT_STATUS_PERST n = 0) ∧
        (∀ g ∈ List.range 12, t.grpCfg g = s.dev.rd .HSW_GRP_CFG g) ∧
        t = { s.dev with regs := t.regs, sec := t.sec, hsw := { s.dev.hsw with grp := t.hsw.grp, port := t.hsw.port }, pins := { s.dev.pins with perst := t.pins.perst } } ∧
        s.dev.KeepsRegs [.HSW_PORT_STATUS] t) ∧
  (∀ (s : State) (pkgs : List BootPkg),
      s.dev.halted = false ∧ s.dev.sec.step = 3 →
      s.dev.part.hasHbm = true →
      ∃ t, exec (.hbmTrainingDone ⟨false, pkgs⟩) s = .next { s with dev := t } ∧
        t.f4 = true ∧ t.fld F.GLB_FAULT_F4_CAUSE 0 = 4 ∧ t.pins.fault = true) ∧
  (∀ (s : State) (img : Image),
      s.dev.Rested →
      s.dev.halted = false ∧ s.dev.sec.recovery = true ∧ s.dev.sec.step = 2 →
      ∃ t, exec (.secRecovery img) s = .next { s with dev := t } ∧
        (s.dev.sec.first = none ∧ s.dev.imageCode img 0 = 0 → t.sec = { s.dev.sec with first := some img }) ∧
        (s.dev.sec.first ≠ none ∧ s.dev.imageCode img 1 = 0 → t.sec = { s.dev.sec with fw := some img, step := 3 }) ∧
        (s.dev.imageCode img (if s.dev.sec.first = none then 0 else 1) ≠ 0 → t.sec = s.dev.sec) ∧
        t = { s.dev with regs := t.regs, evr := t.evr, shadow := t.shadow, free := t.free, sec := t.sec } ∧
        s.dev.KeepsRegs [] t) ∧
  (∀ (s : State) (src : Src) (i : Fin 512) (v : Word) (g : Fin 12),
      s.dev.Rested →
      s.dev.level src = 0 ∧ s.dev.worn i.val = false →
      s.dev.nvs.queue.length < 16 →
      (∀ e ∈ s.dev.nvs.queue.tail, e.1 ≠ i.val) →
      i.val = 3 + g.val ∧ s.dev.groupOff g.val = true →
      v &&& nvsMask i.val ≠ s.dev.rd .NVS_WORD i.val →
      ∃ t, exec (.nvsWrite src i v) s = .next { s with dev := t } ∧
        t.rd .NVS_WORD i.val = v &&& nvsMask i.val ∧ t.grpCfg g.val = v &&& nvsMask i.val ∧
        t.nvs.queue = s.dev.nvs.queue ++ [(i.val, v &&& nvsMask i.val)] ∧
        t = { s.dev with regs := t.regs, nvs := { s.dev.nvs with queue := t.nvs.queue }, hsw := { s.dev.hsw with grp := t.hsw.grp, port := t.hsw.port }, pins := { s.dev.pins with perst := t.pins.perst } } ∧
        s.dev.KeepsRegs [.NVS_WORD, .NVS_STATUS, .HSW_GRP_CFG, .HSW_PORT_CFG, .MBX_ROOT_MASK, .HSW_PORT_STATUS] t ∧
        (∀ j ∈ List.range 512, j ≠ i.val → t.rd .NVS_WORD j = s.dev.rd .NVS_WORD j)) ∧
  (∀ (s : State) (src : Src) (i : Fin 512) (v : Word),
      s.dev.Rested →
      s.dev.level src = 0 →
      s.dev.nvs.queue.length < 16 →
      (∀ e ∈ s.dev.nvs.queue.tail, e.1 ≠ i.val) →
      (i.val < 3 ∨ 62 < i.val ∨ s.dev.groupOff (if i.val < 15 then i.val - 3 else (i.val - 15) / 4) = false) →
      (i.val < 15 ∨ 62 < i.val ∨ F.HSW_PORT_CFG_ROLE.ofWord v ≠ 3) →
      ∃ t, exec (.nvsWrite src i v) s = .next { s with dev := t } ∧
        (s.dev.worn i.val = false → t.rd .NVS_WORD i.val = v &&& nvsMask i.val ∧ t.nvs.queue = s.dev.nvs.queue ++ [(i.val, v &&& nvsMask i.val)] ∧ t.flag F.NVS_STATUS_BUSY 0 = true ∧ t.fld F.NVS_STATUS_QUEUE 0 = s.dev.nvs.queue.length + 1) ∧
        (s.dev.worn i.val = true → t = s.dev) ∧
        t = { s.dev with regs := t.regs, nvs := { s.dev.nvs with queue := t.nvs.queue } } ∧
        s.dev.KeepsRegs [.NVS_WORD, .NVS_STATUS, .HSW_GRP_CFG, .HSW_PORT_CFG, .MBX_ROOT_MASK] t ∧
        (∀ j ∈ List.range 512, j ≠ i.val → t.rd .NVS_WORD j = s.dev.rd .NVS_WORD j)) ∧
  (∀ (s : State) (src : Src) (i : Fin 512) (v : Word),
      s.dev.Rested →
      s.dev.level src = 0 →
      s.dev.worn i.val = false →
      s.dev.nvs.queue.length = 16 →
      (∀ e ∈ s.dev.nvs.queue, e.1 ≠ i.val) →
      ∃ t, exec (.nvsWrite src i v) s = .next { s with dev := t } ∧
        t.flag F.NVS_STATUS_OVERFLOW 0 = true ∧ t.nvs = s.dev.nvs ∧
        s.dev.KeepsRegs [.NVS_STATUS] t) ∧
  (∀ (s : State) (src : Src) (i : Fin 512) (v : Word),
      s.dev.Rested →
      s.dev.level src = 0 →
      s.dev.worn i.val = false →
      (i.val < 3 ∨ 62 < i.val) →
      (s.dev.nvs.queue.tail.any (fun e => e.1 == i.val) = true) →
      ∃ t, exec (.nvsWrite src i v) s = .next { s with dev := t } ∧
        t.rd .NVS_WORD i.val = v &&& nvsMask i.val ∧
        (t.nvs.queue = s.dev.nvs.queue.take 1 ++ s.dev.nvs.queue.tail.map (fun e => if e.1 = i.val then (i.val, v &&& nvsMask i.val) else e)) ∧
        t = { s.dev with regs := t.regs, nvs := { s.dev.nvs with queue := t.nvs.queue } } ∧
        s.dev.KeepsRegs [.NVS_WORD, .HSW_GRP_CFG, .HSW_PORT_CFG, .MBX_ROOT_MASK] t ∧
        (∀ j ∈ List.range 512, j ≠ i.val → t.rd .NVS_WORD j = s.dev.rd .NVS_WORD j)) ∧
  (∀ (s : State) (src : Src) (i : Fin 512) (v : Word),
      s.dev.Rested →
      s.dev.level src ≠ 0 →
      ∃ t, exec (.nvsWrite src i v) s = .next { s with dev := t } ∧
        t = s.dev) ∧
  (∀ (s : State) (i : Nat) (v : Word) (q : List (Nat × Word)),
      s.dev.Rested →
      s.dev.nvs.queue = (i, v) :: q →
      ∃ t, exec .nvsProgramDone s = .next { s with dev := t } ∧
        Tbl.get t.nvs.stored i = some v ∧
        (s.dev.fld F.NVS_WEAR_COUNT i < 99999 → t.fld F.NVS_WEAR_COUNT i = s.dev.fld F.NVS_WEAR_COUNT i + 1 ∧ t.nvs.queue = q) ∧
        (s.dev.fld F.NVS_WEAR_COUNT i = 99999 → t.fld F.NVS_WEAR_COUNT i = 100000 ∧ t.flag F.NVS_STATUS_WORN 0 = true ∧ t.nvs.queue = (q.filter fun e => e.1 != i) ∧ t.rd .NVS_WORD i = v) ∧
        t = { s.dev with regs := t.regs, evr := t.evr, shadow := t.shadow, free := t.free, nvs := { s.dev.nvs with queue := t.nvs.queue, stored := t.nvs.stored } } ∧
        s.dev.KeepsRegs [.NVS_WEAR, .NVS_STATUS, .NVS_WORD, .NVS_WORN_IDX, .HSW_GRP_CFG, .HSW_PORT_CFG, .MBX_ROOT_MASK] t)

/-- A release grants the lock to the waiter of the highest priority, and among those to the lowest number. RELEASE by the holder,
and FORCE_RELEASE of the holder, grant the lock to the waiter before whom no other comes: none has a higher PRIO, and none of
the same PRIO a lower requester number; where it stands among the waiters counts for nothing. It says of each of RELEASE
(release) and FORCE_RELEASE (forceRelease) that exec answers a next state, under conditions on the state and the operands alone. -/
def Obligations.LockGrantOrder : Prop :=
  (∀ (s : State) (src : Src) (l : Fin 4096) (w : Nat × Nat),
      s.dev.mayLock src l.val = true →
      (s.dev.lockOf l.val).holder = some (lockRequester src) →
      (w ∈ (s.dev.lockOf l.val).waiters ∧ ∀ x ∈ (s.dev.lockOf l.val).waiters, x.2 < w.2 ∨ (x.2 = w.2 ∧ w.1 ≤ x.1)) →
      ∃ t, exec (.release src l) s = .next { s with dev := t } ∧
        (t.lockOf l.val).holder = some w.1 ∧
        (∀ k, k ≠ l.val → t.lockOf k = s.dev.lockOf k)) ∧
  (∀ (s : State) (src : Src) (l : Fin 4096) (target : BitVec 13) (w : Nat × Nat),
      s.dev.mayLock src l.val = true ∧ s.dev.mayForce src target.toNat = true →
      (s.dev.lockOf l.val).holder = some target.toNat →
      (w ∈ (s.dev.lockOf l.val).waiters ∧ ∀ x ∈ (s.dev.lockOf l.val).waiters, x.2 < w.2 ∨ (x.2 = w.2 ∧ w.1 ≤ x.1)) →
      ∃ t, exec (.forceRelease src l target) s = .next { s with dev := t } ∧
        (t.lockOf l.val).holder = some w.1 ∧
        (∀ k, k ≠ l.val → t.lockOf k = s.dev.lockOf k))

/-- The effective role and clock-root choice after a reset. After a cold reset, and when a warm reset is released, RTE_ROLE.ROLE is
the effective role, TCK_PARENT.ROOT is 1 where that is TOP_MGR (3) and the effective clock-root choice is set and 0 otherwise,
and SEC_STATUS shows the raw straps and whether the override applied. The effective values are those of the persistent override
where its EN is 1 and STRAP_BOOT is not 10, else those of the straps. It says of each of COLD_RESET (coldReset) and
WARM_RESET_RELEASE (warmResetRelease) that exec answers a next state, under conditions on the state and the operands alone. -/
def Obligations.StrapsTakeEffect : Prop :=
  (∀ (s : State) (role boot : BitVec 2) (w : Word) (ovr root : Bool) (eff : Nat),
      s.dev.pins.pwrgood = false →
      s.dev.rd .NVS_WORD 0 = w →
      ovr = (w.getLsbD 31 && boot != 2#2) →
      eff = (if ovr then w.toNat % 4 else role.toNat) →
      root = (if ovr then w.getLsbD 30 else boot == 1#2) →
      ∃ t, exec (.coldReset role boot) s = .next { s with dev := t } ∧
        t.fld F.RTE_ROLE_ROLE 0 = eff ∧
        t.flag F.TCK_PARENT_ROOT 0 = (decide (eff = 3) && root) ∧
        t.fld F.SEC_STATUS_STRAP_ROLE 0 = role.toNat ∧ t.fld F.SEC_STATUS_STRAP_BOOT 0 = boot.toNat ∧ t.flag F.SEC_STATUS_OVR 0 = ovr) ∧
  (∀ (s : State) (role boot : BitVec 2) (w : Word) (ovr root : Bool) (eff : Nat),
      s.dev.pins.pwrgood = true ∧ s.dev.pins.sysRst = true →
      s.dev.pins.strapRole = role ∧ s.dev.pins.strapBoot = boot →
      s.dev.rd .NVS_WORD 0 = w →
      ovr = (w.getLsbD 31 && boot != 2#2) →
      eff = (if ovr then w.toNat % 4 else role.toNat) →
      root = (if ovr then w.getLsbD 30 else boot == 1#2) →
      ∃ t, exec .warmResetRelease s = .next { s with dev := t } ∧
        t.fld F.RTE_ROLE_ROLE 0 = eff ∧
        t.flag F.TCK_PARENT_ROOT 0 = (decide (eff = 3) && root) ∧
        t.fld F.SEC_STATUS_STRAP_ROLE 0 = role.toNat ∧ t.fld F.SEC_STATUS_STRAP_BOOT 0 = boot.toNat ∧ t.flag F.SEC_STATUS_OVR 0 = ovr)

/-- Register writes, shadow reads and read-to-clear. A write at L0 of a tick-aligned register is staged for the next boundary, or
the one after when late (R32). A write at a level its chapter names changes the register by its fields' access codes and nothing
else (R525); below that level, to a counter, and in reset it does nothing. A write limited to a state, made in another state,
sets STATE_WRITE; an access of another size or alignment sets GLB_ERR.SIZE (R527). The bulk window takes a host's bytes on pages
that firmware does not own (R434); a doorbell page that is another function's counts the write (R219). A read of a counter's LO
word returns it and latches its HI word for the reading function (R110), and a read of a register with RC fields clears them
(R525). The model's own choices in it: assumptions 12, 13, 14, 15, 16, 17, 18, 19, 20, 21, 41, 135. It says of each of
REGISTER_WRITE (registerWrite), SHADOW_LO_READ (shadowLoRead) and READ_CLEAR (readClear) that exec answers a next state, under
conditions on the state and the operands alone. -/
def Obligations.RegisterAccesses : Prop :=
  (∀ (s : State) (src : Src) (late : Bool) (off c : BitVec 25) (v : BitVec 64) (r : Reg),
      s.dev.Rested →
      s.dev.col.grps = [] →
      s.dev.col.downs = [] →
      s.dev.inReset = false →
      s.dev.level src = 0 →
      off.toNat % 4 = 0 →
      RegOff off.toNat →
      regAt off.toNat = some (r, c.toNat) →
      r.home = .device →
      r.absent s.dev.part c.toNat = false →
      tickAligned r c.toNat ≠ none →
      Tbl.get s.dev.clk.holdAt src.fn = none →
      ∃ t, exec (.registerWrite src (.reg off 4 v) late) s = .next { s with dev := t } ∧
        (t.clk.staged.getLast? = some { due := some (s.dev.clk.edges + (if late then 2 else 1)), fn := src.fn, act := .reg r c.toNat (v.setWidth 32) 0xFFFFFFFF#32 }) ∧
        t = { s.dev with clk := { s.dev.clk with staged := t.clk.staged } }) ∧
  (∀ (s : State) (src : Src) (late : Bool) (off : BitVec 25) (i c : Nat) (v : BitVec 64) (r : Reg),
      s.dev.Rested →
      s.dev.col.grps = [] →
      s.dev.col.downs = [] →
      s.dev.inReset = false →
      r.writeLevel ≠ 0 ∧ s.dev.level src ≤ r.writeLevel →
      (s.dev.level src ≤ 1 ∨ vfView off.toNat = true) →
      off.toNat % 4 = 0 →
      RegOff off.toNat →
      regAt off.toNat = some (r, i) →
      r.absent s.dev.part i = false →
      s.dev.copy src.fn r i = some c →
      ∃ t, exec (.registerWrite src (.reg off 4 v) late) s = .next { s with dev := t } ∧
        t.rd r c = Reg.merge r (s.dev.rd r c) (v.setWidth 32) 0xFFFFFFFF#32 ∧
        t = { s.dev with regs := t.regs } ∧
        s.dev.KeepsRegs [r] t ∧
        (∀ k, k ≠ c → t.rd r k = s.dev.rd r k)) ∧
  (∀ (s : State) (src : Src) (late : Bool) (off : BitVec 25) (i q : Nat) (v : BitVec 64) (r : Reg),
      s.dev.Rested →
      s.dev.col.grps = [] →
      s.dev.col.downs = [] →
      s.dev.inReset = false →
      (s.dev.level src ≤ 1 ∨ vfView off.toNat = true) →
      s.dev.level src ≠ 3 →
      off.toNat % 4 = 0 →
      RegOff off.toNat →
      r ∈ [Reg.WQ_Q_BASE_LO, .WQ_Q_BASE_HI, .WQ_Q_BIND, .WQ_EQ_COAL] →
      regAt off.toNat = some (r, i) →
      s.dev.copy src.fn r i = some q →
      ∃ t, exec (.registerWrite src (.reg off 4 v) late) s = .next { s with dev := t } ∧
        (s.dev.qState q = 0 → t.rd r q = Reg.merge r (s.dev.rd r q) (v.setWidth 32) 0xFFFFFFFF#32) ∧
        (s.dev.qState q ≠ 0 → t.rd r q = s.dev.rd r q ∧ t.flag F.GLB_ERR_STATE_WRITE src.fn = true) ∧
        t = { s.dev with regs := t.regs } ∧
        s.dev.KeepsRegs [r, .GLB_ERR, .GLB_ERR_ADDR] t) ∧
  (∀ (s : State) (src : Src) (late : Bool) (off : BitVec 25) (n : Nat) (v : BitVec 64),
      s.dev.Rested →
      s.dev.col.grps = [] →
      s.dev.col.downs = [] →
      s.dev.inReset = false →
      s.dev.level src ≠ 3 →
      (n ≠ 4 ∧ n ≠ 8 ∨ n = 4 ∧ off.toNat % 4 ≠ 0 ∨ n = 8 ∧ off.toNat % 8 ≠ 0) →
      ∃ t, exec (.registerWrite src (.reg off n v) late) s = .next { s with dev := t } ∧
        t.flag F.GLB_ERR_SIZE src.fn = true ∧
        t = { s.dev with regs := t.regs } ∧
        s.dev.KeepsRegs [.GLB_ERR, .GLB_ERR_ADDR] t) ∧
  (∀ (s : State) (src : Src) (late : Bool) (off : BitVec 25) (v : BitVec 64),
      s.dev.Rested →
      s.dev.col.grps = [] →
      s.dev.col.downs = [] →
      off.toNat % 4 = 0 →
      (s.dev.level src = 3 ∨ s.dev.inReset = true ∨ counterAt off.toNat ≠ none) →
      ∃ t, exec (.registerWrite src (.reg off 4 v) late) s = .next { s with dev := t } ∧
        t = s.dev) ∧
  (∀ (s : State) (h : Fin 24) (late : Bool) (off : Fin 1048576) (bs : List Byte),
      s.dev.Rested →
      s.dev.col.grps = [] →
      s.dev.col.downs = [] →
      s.dev.halted = false →
      off.val % 4096 + bs.length ≤ 4096 →
      s.dev.bulkOwned (4096 + h.val) (off.val / 4096) = false →
      ∃ t, exec (.registerWrite (.pf h) (.bulk off bs) late) s = .next { s with dev := t } ∧
        (∀ i ∈ List.range bs.length, Mem.read t.mem ((Space.bulk h.val).base + off.val + i) = bs[i]?) ∧
        t = { s.dev with mem := t.mem } ∧
        (∀ b, b < (Space.bulk h.val).base + off.val ∨ (Space.bulk h.val).base + off.val + bs.length ≤ b → Mem.read t.mem b = Mem.read s.dev.mem b)) ∧
  (∀ (s : State) (h : Fin 24) (late : Bool) (off q : Nat) (bs : List Byte),
      s.dev.Rested →
      s.dev.col.grps = [] →
      s.dev.col.downs = [] →
      s.dev.halted = false →
      q = off / 4096 ∧ q < 65536 →
      Tbl.get s.dev.own.queue q ≠ some (4096 + h.val) →
      ∃ t, exec (.registerWrite (.pf h) (.page off bs) late) s = .next { s with dev := t } ∧
        t.cnt 5 7 = s.dev.cnt 5 7 + 1#48 ∧
        t = { s.dev with cnts := t.cnts }) ∧
  (∀ (s : State) (src : Src) (off : BitVec 25) (g j : Nat),
      s.dev.Rested →
      s.dev.level src ≤ 1 →
      off.toNat % 4 = 0 →
      counterAt off.toNat = some (g, j, false) →
      ∃ t, exec (.shadowLoRead src off) s = .next { s with dev := t } ∧
        t.out = .readData src.fn off.toNat (((s.dev.cnt g j).setWidth 32).setWidth 64) :: s.dev.out ∧
        Tbl.getD (Tbl.getD t.shadow src.fn []) (off.toNat + 4) 0#32 = (s.dev.cnt g j >>> 32).setWidth 32 ∧
        t = { s.dev with out := t.out, shadow := t.shadow }) ∧
  (∀ (s : State) (src : Src) (off : BitVec 25) (r : Reg) (i c : Nat),
      s.dev.Rested →
      s.dev.level src = 0 →
      off.toNat % 4 = 0 →
      RegOff off.toNat →
      regAt off.toNat = some (r, i) ∧ r.accMask [.rc] ≠ 0#32 →
      r.absent s.dev.part i = false →
      s.dev.copy src.fn r i = some c →
      (shadowPairs.find? (fun p => p.1 = r ∨ p.2 = r) = none) →
      ∃ t, exec (.readClear src off 4) s = .next { s with dev := t } ∧
        t.out = .readData src.fn off.toNat ((s.dev.live src.fn r c).setWidth 64) :: s.dev.out ∧
        t.rd r c = s.dev.rd r c &&& ~~~(r.accMask [.rc]) ∧
        t = { s.dev with out := t.out, regs := t.regs } ∧
        s.dev.KeepsRegs [] t ∧
        (∀ k, k ≠ c → t.rd r k = s.dev.rd r k))
end

