-- ==== Sys2Proof/Laws/Coding.lean ====
section
/-!
SUPPORT. Line coding is undone by the receiver: levels, scrambler, striping over one lane, parity and CRC-64 of a frame as it was
sent (R42 to R45, R78, R80, R81).
-/

namespace Sys2Proof.Machine

/-! The scrambler. -/

/-- The state of `scramble` after its first `n` bits. -/
def scrambleTo (r : BitVec 58) (w : BitVec 64) (n : Nat) : BitVec 64 × BitVec 58 :=
  (List.range n).foldl (fun (x : BitVec 64 × BitVec 58) i =>
    let b := (w.getLsbD i ^^ x.2.getLsbD 38) ^^ x.2.getLsbD 57
    (x.1 ||| ((BitVec.ofBool b).setWidth 64 <<< i), (x.2 <<< 1) ||| (BitVec.ofBool b).setWidth 58)) (0#64, r)

theorem scramble_eq_scrambleTo (r : BitVec 58) (w : BitVec 64) : scramble r w = scrambleTo r w 64 := rfl

/-- The state of `descramble` after its first `n` bits. -/
def descrambleTo (r : BitVec 58) (w : BitVec 64) (n : Nat) : BitVec 64 × BitVec 58 :=
  (List.range n).foldl (fun (x : BitVec 64 × BitVec 58) i =>
    let c := w.getLsbD i
    let b := (c ^^ x.2.getLsbD 38) ^^ x.2.getLsbD 57
    (x.1 ||| ((BitVec.ofBool b).setWidth 64 <<< i), (x.2 <<< 1) ||| (BitVec.ofBool c).setWidth 58)) (0#64, r)

theorem descramble_eq_descrambleTo (r : BitVec 58) (w : BitVec 64) : descramble r w = descrambleTo r w 64 := rfl

/-- The bit that the scrambler sends for bit `n`. -/
def sentBit (r : BitVec 58) (w : BitVec 64) (n : Nat) : Bool :=
  (w.getLsbD n ^^ (scrambleTo r w n).2.getLsbD 38) ^^ (scrambleTo r w n).2.getLsbD 57

theorem scrambleTo_succ (r : BitVec 58) (w : BitVec 64) (n : Nat) :
    scrambleTo r w (n + 1) =
      ((scrambleTo r w n).1 ||| ((BitVec.ofBool (sentBit r w n)).setWidth 64 <<< n),
        ((scrambleTo r w n).2 <<< 1) ||| (BitVec.ofBool (sentBit r w n)).setWidth 58) := by
  simp [scrambleTo, sentBit, List.range_succ]

theorem descrambleTo_succ (r : BitVec 58) (w : BitVec 64) (n : Nat) :
    descrambleTo r w (n + 1) =
      ((descrambleTo r w n).1 ||| ((BitVec.ofBool
          ((w.getLsbD n ^^ (descrambleTo r w n).2.getLsbD 38) ^^ (descrambleTo r w n).2.getLsbD 57)).setWidth 64 <<< n),
        ((descrambleTo r w n).2 <<< 1) ||| (BitVec.ofBool (w.getLsbD n)).setWidth 58) := by
  simp [descrambleTo, List.range_succ]

/-- One bit put into a word of which higher bits are clear. -/
theorem getLsbD_putBit (o : BitVec 64) (b : Bool) (n j : Nat) (hj : j < 64) :
    (o ||| ((BitVec.ofBool b).setWidth 64 <<< n)).getLsbD j = (o.getLsbD j || (decide (j = n) && b)) := by
  simp only [BitVec.getLsbD_or, BitVec.getLsbD_shiftLeft, BitVec.getLsbD_setWidth, BitVec.getLsbD_ofBool]
  by_cases h : j = n
  · subst h; simp [hj]
  · by_cases h2 : j < n
    · simp [h, h2]
    · have : ¬ (j - n = 0) := by omega
      simp [h, this]

theorem scrambleTo_bits (r : BitVec 58) (w : BitVec 64) (n j : Nat) (hj : j < 64) :
    (scrambleTo r w n).1.getLsbD j = (decide (j < n) && sentBit r w j) := by
  induction n with
  | zero => simp [scrambleTo]
  | succ n ih =>
    rw [scrambleTo_succ]
    simp only [getLsbD_putBit _ _ _ _ hj, ih]
    by_cases h : j = n
    · subst h; simp
    · by_cases h2 : j < n
      · have : j < n + 1 := by omega
        simp [h, h2, this]
      · have : ¬ j < n + 1 := by omega
        simp [h, h2, this]

theorem descrambleTo_scramble (r : BitVec 58) (w : BitVec 64) (n : Nat) (hn : n ≤ 64) :
    (descrambleTo r (scramble r w).1 n).2 = (scrambleTo r w n).2 ∧
      ∀ j, j < 64 → (descrambleTo r (scramble r w).1 n).1.getLsbD j = (decide (j < n) && w.getLsbD j) := by
  induction n with
  | zero => simp [descrambleTo, scrambleTo]
  | succ n ih =>
    obtain ⟨h1, h2⟩ := ih (by omega)
    have hb : (scramble r w).1.getLsbD n = sentBit r w n := by
      rw [scramble_eq_scrambleTo, scrambleTo_bits r w 64 n (by omega)]
      have : n < 64 := by omega
      simp [this]
    refine ⟨?_, fun j hj => ?_⟩
    · rw [descrambleTo_succ, scrambleTo_succ, hb, h1]
    · rw [descrambleTo_succ]
      simp only [getLsbD_putBit _ _ _ _ hj, h2 j hj, hb, h1]
      by_cases h : j = n
      · subst h
        simp only [sentBit]
        generalize w.getLsbD j = x, (scrambleTo r w j).2.getLsbD 38 = y, (scrambleTo r w j).2.getLsbD 57 = z
        cases x <;> cases y <;> cases z <;> simp
      · by_cases h3 : j < n
        · have : j < n + 1 := by omega
          simp [h, h3, this]
        · have : ¬ j < n + 1 := by omega
          simp [h, h3, this]

/-- Descrambling undoes scrambling, and leaves both ends with the same register (R44). -/
theorem descramble_scramble (r : BitVec 58) (w : BitVec 64) : descramble r (scramble r w).1 = (w, (scramble r w).2) := by
  obtain ⟨h1, h2⟩ := descrambleTo_scramble r w 64 (Nat.le_refl _)
  rw [descramble_eq_descrambleTo]
  refine Prod.ext ?_ (h1.trans (by rw [scramble_eq_scrambleTo]))
  apply BitVec.eq_of_getLsbD_eq
  intro i hi
  rw [h2 i hi]; simp [hi]

/-! Levels. -/

theorem pamBits_pamLevel (a b : Bool) : pamBits (pamLevel a b) = [a, b] := by cases a <;> cases b <;> rfl

theorem toLevels_bits (n : Nat) (bs : List Bool) (h : bs.length = 2 * n) :
    (toLevels bs).flatMap pamBits = bs ∧ (toLevels bs).length = n := by
  induction n generalizing bs with
  | zero =>
    have : bs = [] := List.length_eq_zero_iff.1 (by omega)
    subst this; simp [toLevels]
  | succ n ih =>
    match bs, h with
    | a :: b :: t, h =>
      have ht : t.length = 2 * n := by simp at h; omega
      simp [toLevels, pamBits_pamLevel, ih t ht]

theorem ofBits_testBit (bs : List Bool) (i : Nat) : (ofBits bs).testBit i = bs.getD i false := by
  induction bs generalizing i with
  | nil => simp [ofBits]
  | cons b t ih =>
    have h : ofBits (b :: t) = 2 * ofBits t + b.toNat := by
      simp only [ofBits, List.foldr_cons]; cases b <;> simp
    cases i with
    | zero => rw [h]; cases b <;> simp [Nat.testBit_zero] <;> omega
    | succ i =>
      rw [Nat.testBit_succ, h]
      have : (2 * ofBits t + b.toNat) / 2 = ofBits t := by cases b <;> simp <;> omega
      rw [this, ih]; simp

theorem ofBits_word (w : BitVec 64) : BitVec.ofNat 64 (ofBits ((List.range 64).map fun i => w.getLsbD i)) = w := by
  apply BitVec.eq_of_getLsbD_eq
  intro i hi
  rw [BitVec.getLsbD_ofNat, ofBits_testBit]
  simp [hi, List.getD_eq_getElem?_getD]

/-- The levels of one block. -/
def blockLevels (r : BitVec 58) (b : Block) : List (BitVec 2) :=
  toLevels ([b.1.getLsbD 1, b.1.getLsbD 0] ++ (List.range 64).map fun i => (scramble r b.2).1.getLsbD i)

theorem blockLevels_bits (r : BitVec 58) (b : Block) :
    (blockLevels r b).flatMap pamBits =
        [b.1.getLsbD 1, b.1.getLsbD 0] ++ (List.range 64).map (fun i => (scramble r b.2).1.getLsbD i) ∧
      (blockLevels r b).length = 33 :=
  toLevels_bits 33 _ (by simp)

theorem laneLevels_from (bs : List Block) (o : List (BitVec 2)) (r : BitVec 58) :
    bs.foldl (fun (x : List (BitVec 2) × BitVec 58) b =>
        let y := scramble x.2 b.2
        (x.1 ++ toLevels ([b.1.getLsbD 1, b.1.getLsbD 0] ++ (List.range 64).map fun i => y.1.getLsbD i), y.2)) (o, r) =
      (o ++ (laneLevels r bs).1, (laneLevels r bs).2) := by
  induction bs generalizing o r with
  | nil => simp [laneLevels]
  | cons b t ih =>
    simp only [laneLevels, List.foldl_cons]
    rw [ih]
    have := ih ([] ++ toLevels ([b.1.getLsbD 1, b.1.getLsbD 0] ++
      (List.range 64).map fun i => (scramble r b.2).1.getLsbD i)) (scramble r b.2).2
    rw [this]
    simp

theorem laneLevels_cons (r : BitVec 58) (b : Block) (bs : List Block) :
    laneLevels r (b :: bs) =
      (blockLevels r b ++ (laneLevels (scramble r b.2).2 bs).1, (laneLevels (scramble r b.2).2 bs).2) := by
  have := laneLevels_from bs (blockLevels r b) (scramble r b.2).2
  simpa [laneLevels, blockLevels] using this

/-- The blocks sent on a lane are read from its levels, when both ends hold the same register (R44, R45). -/
theorem laneBlocks_laneLevels (bs : List Block) (r : BitVec 58) :
    laneBlocks bs.length (laneLevels r bs).1 r = (bs, (laneLevels r bs).2) := by
  induction bs generalizing r with
  | nil => simp [laneBlocks, laneLevels]
  | cons b t ih =>
    obtain ⟨h1, h2⟩ := blockLevels_bits r b
    have hs : BitVec.ofBool (b.1.getLsbD 1) ++ BitVec.ofBool (b.1.getLsbD 0) = b.1 := by
      have : ∀ x : BitVec 2, BitVec.ofBool (x.getLsbD 1) ++ BitVec.ofBool (x.getLsbD 0) = x := by decide
      exact this b.1
    rw [laneLevels_cons, List.length_cons, laneBlocks]
    simp only [List.take_left' h2, List.drop_left' h2, h1]
    simp only [List.cons_append, List.nil_append, List.drop_succ_cons, List.drop_zero, ofBits_word, descramble_scramble, ih,
      List.getD_cons_zero, List.getD_cons_succ, hs]

/-! Parity and CRC-64. -/

theorem symbolDiff_self (ws : List (BitVec 64)) : symbolDiff ws ws = [] := by
  have : ∀ (l : List Bool) (k : Nat),
      ((l.zip l).zipIdx k).filterMap (fun x => if x.1.1 = x.1.2 then none else some ((x.2 + 6) / 10)) = [] := by
    intro l
    induction l with
    | nil => intro k; rfl
    | cons a t ih => intro k; simp only [List.zip_cons_cons, List.zipIdx_cons, List.filterMap_cons, if_true]; exact ih (k + 1)
  simp only [symbolDiff, this]
  rfl

theorem rsBlocks_length (ws : List (BitVec 64)) : (rsBlocks ws).length = 2 := rfl

/-- Payloads followed by their parity are a codeword (R81). -/
theorem isCodeword_parity (ws : List (BitVec 64)) (h : ws.length = 66) : isCodeword (ws ++ rsBlocks ws) = true := by
  simp [isCodeword, rsBlocks_length, h, List.take_left' h, symbolDiff_self]

theorem bytesToBlocks_length (n : Nat) (bs : List Byte) : (bytesToBlocks n bs).length = n := by
  induction n generalizing bs with
  | zero => rfl
  | succ n ih => simp [bytesToBlocks, ih]

/-- The 65 payloads of a frame ahead of its CRC-64. -/
def frameBody (head : BitVec 64) (a b : List Byte) : List (BitVec 64) :=
  head :: bytesToBlocks 32 (a ++ List.replicate (256 - a.length) 0#8) ++
    bytesToBlocks 32 (b ++ List.replicate (256 - b.length) 0#8)

theorem frameBody_length (head : BitVec 64) (a b : List Byte) : (frameBody head a b).length = 65 := by
  simp [frameBody, bytesToBlocks_length]

/-- The payloads of a frame. -/
def framePayload (head : BitVec 64) (a b : List Byte) : List (BitVec 64) :=
  let all := frameBody head a b ++ [crc64 (frameBody head a b)]
  all ++ rsBlocks all

theorem frameBlocks_payload (sync : BitVec 2) (head : BitVec 64) (a b : List Byte) :
    (frameBlocks sync head a b).map (·.2) = framePayload head a b := by
  have : ∀ (l : List (BitVec 64)) (k : Nat), ((l.zipIdx k).map fun x => ((if x.2 = 0 then sync else 1#2), x.1)).map (·.2) = l := by
    intro l
    induction l with
    | nil => intro k; rfl
    | cons a t ih => intro k; simp only [List.zipIdx_cons, List.map_cons]; rw [ih]
  exact this _ 0

theorem frameBlocks_length (sync : BitVec 2) (head : BitVec 64) (a b : List Byte) : (frameBlocks sync head a b).length = 68 := by
  rw [← List.length_map (f := (·.2)), frameBlocks_payload]
  simp [framePayload, frameBody_length, rsBlocks_length]

theorem frameBlocks_sync (sync : BitVec 2) (head : BitVec 64) (a b : List Byte) :
    ((frameBlocks sync head a b).headD (0#2, 0#64)).1 = sync := by
  simp [frameBlocks]

/-- The decoder takes a frame's payloads as they stand (R81). -/
theorem rsDecode_framePayload (head : BitVec 64) (a b : List Byte) :
    rsDecode (framePayload head a b) = some (framePayload head a b, []) := by
  have h : isCodeword (framePayload head a b) = true := isCodeword_parity _ (by simp [frameBody_length])
  simp [rsDecode, h]

theorem framePayload_crc (head : BitVec 64) (a b : List Byte) :
    crc64 ((framePayload head a b).take 65) = (framePayload head a b).getD 65 0#64 := by
  have h := frameBody_length head a b
  have h1 : (framePayload head a b).take 65 = frameBody head a b := by
    simp only [framePayload, List.append_assoc]; exact List.take_left' h
  have h2 : (framePayload head a b).getD 65 0#64 = crc64 (frameBody head a b) := by
    simp only [framePayload, List.append_assoc, List.getD_eq_getElem?_getD]
    rw [List.getElem?_append_right (by omega), h]
    rfl
  rw [h1, h2]

/-- A frame sent on lane 0 alone is received as it was sent (R42 to R45, R78 to R82). -/
theorem receive_one_lane (d : Dev) (p : Nat) (sync : BitVec 2) (head : BitVec 64) (a b : List Byte)
    (hl : d.lanes p = [0]) (hp : d.fld F.PHY_LANE_STATUS_PHYS (4 * p) = 0)
    (hi : d.flag F.PHY_LANE_STATUS_INVERTED (4 * p) = false) :
    (d.receive p [(laneLevels (Tbl.getD (d.lnk p).scrRx 0 0#58) (frameBlocks sync head a b)).1]).1 =
      some (sync, framePayload head a b) := by
  have hr : (d.readBlocks p [(laneLevels (Tbl.getD (d.lnk p).scrRx 0 0#58) (frameBlocks sync head a b)).1]).1 =
      frameBlocks sync head a b := by
    have hb := laneBlocks_laneLevels (frameBlocks sync head a b) (Tbl.getD (d.lnk p).scrRx 0 0#58)
    rw [frameBlocks_length] at hb
    have hm : ∀ l : List Block, l.length = 68 → ((List.range 68).map fun k => l[k]?.getD (0#2, 0#64)) = l := by
      intro l h
      apply List.ext_getElem
      · simp [h]
      · intro i h1 h2
        simp [h2]
    simp [Dev.readBlocks, hl, hp, hi, hb, Nat.mod_one, hm _ (frameBlocks_length sync head a b)]
  have hc := framePayload_crc head a b
  simp only [Dev.receive, hr, frameBlocks_payload, rsDecode_framePayload, frameBlocks_sync]
  simp [hc]

end Sys2Proof.Machine
end

