-- ==== Sys2Proof/Laws/Table.lean ====
section
/-!
SUPPORT. Tables: reading after writing, and the canonical form of memory.
-/

namespace Sys2Proof.Machine

variable {α : Type}

@[simp] theorem Tbl.get_nil (k : Nat) : Tbl.get ([] : Tbl α) k = none := rfl

@[simp] theorem Tbl.get_set_same (t : Tbl α) (k : Nat) (v : α) : Tbl.get (Tbl.set t k v) k = some v := by
  induction t with
  | nil => simp [Tbl.set, Tbl.get]
  | cons e t ih =>
    obtain ⟨k', v'⟩ := e
    by_cases h : k' = k
    · simp [Tbl.set, Tbl.get, h]
    · by_cases h2 : k < k'
      · simp [Tbl.set, Tbl.get, h, h2]
      · simp [Tbl.set, Tbl.get, h, h2, ih]

@[simp] theorem Tbl.get_set_ne (t : Tbl α) (k j : Nat) (v : α) (h : j ≠ k) :
    Tbl.get (Tbl.set t k v) j = Tbl.get t j := by
  induction t with
  | nil => simp [Tbl.set, Tbl.get, h.symm]
  | cons e t ih =>
    obtain ⟨k', v'⟩ := e
    by_cases h1 : k' = k
    · subst h1; simp [Tbl.set, Tbl.get, h.symm]
    · by_cases h2 : k < k'
      · simp [Tbl.set, Tbl.get, h1, h2, h.symm]
      · simp [Tbl.set, h1, h2, Tbl.get, ih]

@[simp] theorem Tbl.getD_set_same (t : Tbl α) (k : Nat) (v x : α) : Tbl.getD (Tbl.set t k v) k x = v := by
  simp [Tbl.getD]

@[simp] theorem Tbl.getD_set_ne (t : Tbl α) (k j : Nat) (v x : α) (h : j ≠ k) :
    Tbl.getD (Tbl.set t k v) j x = Tbl.getD t j x := by simp [Tbl.getD, h]

@[simp] theorem Tbl.get_erase_same (t : Tbl α) (k : Nat) : Tbl.get (Tbl.erase t k) k = none := by
  induction t with
  | nil => rfl
  | cons e t ih =>
    obtain ⟨k', v'⟩ := e
    by_cases h : k' = k
    · subst h; simpa [Tbl.erase] using ih
    · have : (k' != k) = true := by simpa using h
      simpa [Tbl.erase, this, Tbl.get, h] using ih

@[simp] theorem Tbl.get_erase_ne (t : Tbl α) (k j : Nat) (h : j ≠ k) : Tbl.get (Tbl.erase t k) j = Tbl.get t j := by
  induction t with
  | nil => rfl
  | cons e t ih =>
    obtain ⟨k', v'⟩ := e
    by_cases h1 : k' = k
    · subst h1
      simpa [Tbl.erase, Tbl.get, h.symm] using ih
    · have h2 : (k' != k) = true := by simpa using h1
      have ih' : Tbl.get (t.filter fun e => e.1 != k) j = Tbl.get t j := ih
      simp [Tbl.erase, h2, Tbl.get, ih']

/-! Memory. -/

/-- The first address of the memory after one byte is stored. -/
theorem Mem.write_head (m : List Host.Cell) (a : Nat) (b : Byte) :
    ∃ c m', Mem.write m a b = c :: m' ∧ (c.1 = a ∨ ∃ c0 m0, m = c0 :: m0 ∧ c.1 = c0.1) := by
  match m with
  | [] => exact ⟨_, _, rfl, .inl rfl⟩
  | (a', b') :: m =>
    by_cases h : a' = a
    · exact ⟨(a, b), m, by simp [Mem.write, h], .inl rfl⟩
    · by_cases h2 : a < a'
      · exact ⟨(a, b), (a', b') :: m, by simp [Mem.write, h, h2], .inl rfl⟩
      · exact ⟨(a', b'), Mem.write m a b, by simp [Mem.write, h, h2], .inr ⟨_, _, rfl, rfl⟩⟩

/-- Storing a byte keeps the canonical form. -/
theorem Mem.write_wf (m : List Host.Cell) (a : Nat) (b : Byte) (h : Memory.wf m = true) :
    Memory.wf (Mem.write m a b) = true := by
  induction m with
  | nil => rfl
  | cons c m ih =>
    obtain ⟨a', b'⟩ := c
    have hm : Memory.wf m = true := by
      cases m with
      | nil => rfl
      | cons c' m' => simp [Memory.wf] at h; exact h.2
    by_cases h1 : a' = a
    · subst h1
      cases m with
      | nil => simp [Mem.write, Memory.wf]
      | cons c' m' => simpa [Mem.write, Memory.wf] using h
    · by_cases h2 : a < a'
      · simp [Mem.write, h1, h2, Memory.wf, h]
      · obtain ⟨c, m', e, hc⟩ := Mem.write_head m a b
        have := ih hm
        rw [e] at this
        simp only [Mem.write, h1, h2, if_false, e, Memory.wf, this, Bool.and_true, decide_eq_true_eq]
        rcases hc with hc | ⟨c0, m0, e0, hc⟩
        · omega
        · subst e0; simp [Memory.wf] at h; omega

/-- Storing bytes keeps the canonical form. -/
theorem Mem.writeBytes_wf (m : List Host.Cell) (a : Nat) (bs : List Byte) (h : Memory.wf m = true) :
    Memory.wf (Mem.writeBytes m a bs) = true := by
  induction bs generalizing m a with
  | nil => exact h
  | cons b bs ih => exact ih _ _ (Mem.write_wf m a b h)

/-- The stores of a command keep the canonical form. -/
theorem applyWrites_wf (m : List Host.Cell) (ws : List MemWr) (h : Memory.wf m = true) :
    Memory.wf (applyWrites m ws) = true := by
  unfold applyWrites
  induction ws generalizing m with
  | nil => exact h
  | cons w ws ih => exact ih _ (Mem.writeBytes_wf _ _ _ h)

/-- Memory in canonical form, as a list without repeats in rising order. -/
theorem Memory.wf_iff (m : List Host.Cell) : Memory.wf m = true ↔ m.Pairwise (fun a b => a.1 < b.1) := by
  induction m with
  | nil => simp [Memory.wf]
  | cons c m ih =>
    cases m with
    | nil => simp [Memory.wf]
    | cons c' m =>
      rw [Memory.wf, Bool.and_eq_true, ih, decide_eq_true_eq]
      constructor
      · rintro ⟨h1, h2⟩
        refine List.pairwise_cons.2 ⟨?_, h2⟩
        intro x hx
        rcases List.mem_cons.1 hx with rfl | hx
        · exact h1
        · exact Nat.lt_trans h1 ((List.pairwise_cons.1 h2).1 x hx)
      · intro h
        exact ⟨(List.pairwise_cons.1 h).1 c' (by simp), (List.pairwise_cons.1 h).2⟩

/-- What a reset keeps of the memory is in canonical form too. -/
theorem outsideMem_wf (m : List Host.Cell) (h : Memory.wf m = true) : Memory.wf (outsideMem m) = true :=
  (Memory.wf_iff _).2 (((Memory.wf_iff m).1 h).filter _)

/-- Reading the byte just stored. -/
@[simp] theorem Mem.read_write_same (m : List Host.Cell) (a : Nat) (b : Byte) : Mem.read (Mem.write m a b) a = some b := by
  have : ∀ m : List Host.Cell, Mem.write m a b = Tbl.set m a b := by
    intro m; induction m with
    | nil => rfl
    | cons c m ih => obtain ⟨a', b'⟩ := c; simp [Mem.write, Tbl.set, ih]
  simp [Mem.read, this]

/-- Storing a byte leaves every other byte as it was. -/
@[simp] theorem Mem.read_write_ne (m : List Host.Cell) (a j : Nat) (b : Byte) (h : j ≠ a) :
    Mem.read (Mem.write m a b) j = Mem.read m j := by
  have : ∀ m : List Host.Cell, Mem.write m a b = Tbl.set m a b := by
    intro m; induction m with
    | nil => rfl
    | cons c m ih => obtain ⟨a', b'⟩ := c; simp [Mem.write, Tbl.set, ih]
  simp [Mem.read, this, h]

/-- Storing bytes leaves every byte outside them as it was. -/
theorem Mem.read_writeBytes_out (m : List Host.Cell) (a j : Nat) (bs : List Byte) (h : j < a ∨ a + bs.length ≤ j) :
    Mem.read (Mem.writeBytes m a bs) j = Mem.read m j := by
  induction bs generalizing m a with
  | nil => rfl
  | cons b bs ih =>
    have hl : (b :: bs).length = bs.length + 1 := rfl
    rw [Mem.writeBytes, ih _ _ (by omega), Mem.read_write_ne _ _ _ _ (by omega)]

end Sys2Proof.Machine
end

