-- ==== Sys2Proof/Laws/State.lean ====
section
/-!
SUPPORT. The fields of `Dev` under its basic updates: what a register write, a counter, a message to the outside and a store leave
as it was; and what running a command makes of a state.
-/

namespace Sys2Proof.Machine

/-! `Dev.setReg`. -/

@[simp] theorem Dev.setReg_part (d : Dev) (r : Reg) (i : Nat) (w : Word) : (d.setReg r i w).part = d.part := rfl
@[simp] theorem Dev.setReg_shadow (d : Dev) (r : Reg) (i : Nat) (w : Word) : (d.setReg r i w).shadow = d.shadow := rfl
@[simp] theorem Dev.setReg_cnts (d : Dev) (r : Reg) (i : Nat) (w : Word) : (d.setReg r i w).cnts = d.cnts := rfl
@[simp] theorem Dev.setReg_clk (d : Dev) (r : Reg) (i : Nat) (w : Word) : (d.setReg r i w).clk = d.clk := rfl
@[simp] theorem Dev.setReg_evr (d : Dev) (r : Reg) (i : Nat) (w : Word) : (d.setReg r i w).evr = d.evr := rfl
@[simp] theorem Dev.setReg_pmc (d : Dev) (r : Reg) (i : Nat) (w : Word) : (d.setReg r i w).pmc = d.pmc := rfl
@[simp] theorem Dev.setReg_cc (d : Dev) (r : Reg) (i : Nat) (w : Word) : (d.setReg r i w).cc = d.cc := rfl
@[simp] theorem Dev.setReg_sec (d : Dev) (r : Reg) (i : Nat) (w : Word) : (d.setReg r i w).sec = d.sec := rfl
@[simp] theorem Dev.setReg_nvs (d : Dev) (r : Reg) (i : Nat) (w : Word) : (d.setReg r i w).nvs = d.nvs := rfl
@[simp] theorem Dev.setReg_mbx (d : Dev) (r : Reg) (i : Nat) (w : Word) : (d.setReg r i w).mbx = d.mbx := rfl
@[simp] theorem Dev.setReg_locks (d : Dev) (r : Reg) (i : Nat) (w : Word) : (d.setReg r i w).locks = d.locks := rfl
@[simp] theorem Dev.setReg_own (d : Dev) (r : Reg) (i : Nat) (w : Word) : (d.setReg r i w).own = d.own := rfl
@[simp] theorem Dev.setReg_pins (d : Dev) (r : Reg) (i : Nat) (w : Word) : (d.setReg r i w).pins = d.pins := rfl
@[simp] theorem Dev.setReg_phy (d : Dev) (r : Reg) (i : Nat) (w : Word) : (d.setReg r i w).phy = d.phy := rfl
@[simp] theorem Dev.setReg_link (d : Dev) (r : Reg) (i : Nat) (w : Word) : (d.setReg r i w).link = d.link := rfl
@[simp] theorem Dev.setReg_swc (d : Dev) (r : Reg) (i : Nat) (w : Word) : (d.setReg r i w).swc = d.swc := rfl
@[simp] theorem Dev.setReg_rte (d : Dev) (r : Reg) (i : Nat) (w : Word) : (d.setReg r i w).rte = d.rte := rfl
@[simp] theorem Dev.setReg_xlt (d : Dev) (r : Reg) (i : Nat) (w : Word) : (d.setReg r i w).xlt = d.xlt := rfl
@[simp] theorem Dev.setReg_prot (d : Dev) (r : Reg) (i : Nat) (w : Word) : (d.setReg r i w).prot = d.prot := rfl
@[simp] theorem Dev.setReg_wq (d : Dev) (r : Reg) (i : Nat) (w : Word) : (d.setReg r i w).wq = d.wq := rfl
@[simp] theorem Dev.setReg_trn (d : Dev) (r : Reg) (i : Nat) (w : Word) : (d.setReg r i w).trn = d.trn := rfl
@[simp] theorem Dev.setReg_mte (d : Dev) (r : Reg) (i : Nat) (w : Word) : (d.setReg r i w).mte = d.mte := rfl
@[simp] theorem Dev.setReg_mbr (d : Dev) (r : Reg) (i : Nat) (w : Word) : (d.setReg r i w).mbr = d.mbr := rfl
@[simp] theorem Dev.setReg_hsw (d : Dev) (r : Reg) (i : Nat) (w : Word) : (d.setReg r i w).hsw = d.hsw := rfl
@[simp] theorem Dev.setReg_eng (d : Dev) (r : Reg) (i : Nat) (w : Word) : (d.setReg r i w).eng = d.eng := rfl
@[simp] theorem Dev.setReg_pwr (d : Dev) (r : Reg) (i : Nat) (w : Word) : (d.setReg r i w).pwr = d.pwr := rfl
@[simp] theorem Dev.setReg_col (d : Dev) (r : Reg) (i : Nat) (w : Word) : (d.setReg r i w).col = d.col := rfl
@[simp] theorem Dev.setReg_inj (d : Dev) (r : Reg) (i : Nat) (w : Word) : (d.setReg r i w).inj = d.inj := rfl
@[simp] theorem Dev.setReg_mem (d : Dev) (r : Reg) (i : Nat) (w : Word) : (d.setReg r i w).mem = d.mem := rfl
@[simp] theorem Dev.setReg_wr (d : Dev) (r : Reg) (i : Nat) (w : Word) : (d.setReg r i w).wr = d.wr := rfl
@[simp] theorem Dev.setReg_wipe (d : Dev) (r : Reg) (i : Nat) (w : Word) : (d.setReg r i w).wipe = d.wipe := rfl
@[simp] theorem Dev.setReg_out (d : Dev) (r : Reg) (i : Nat) (w : Word) : (d.setReg r i w).out = d.out := rfl
@[simp] theorem Dev.setReg_free (d : Dev) (r : Reg) (i : Nat) (w : Word) : (d.setReg r i w).free = d.free := rfl

/-! `Dev.setFld`. -/

@[simp] theorem Dev.setFld_part (d : Dev) (f : Fld) (i v : Nat) : (d.setFld f i v).part = d.part := rfl
@[simp] theorem Dev.setFld_shadow (d : Dev) (f : Fld) (i v : Nat) : (d.setFld f i v).shadow = d.shadow := rfl
@[simp] theorem Dev.setFld_cnts (d : Dev) (f : Fld) (i v : Nat) : (d.setFld f i v).cnts = d.cnts := rfl
@[simp] theorem Dev.setFld_clk (d : Dev) (f : Fld) (i v : Nat) : (d.setFld f i v).clk = d.clk := rfl
@[simp] theorem Dev.setFld_evr (d : Dev) (f : Fld) (i v : Nat) : (d.setFld f i v).evr = d.evr := rfl
@[simp] theorem Dev.setFld_pmc (d : Dev) (f : Fld) (i v : Nat) : (d.setFld f i v).pmc = d.pmc := rfl
@[simp] theorem Dev.setFld_cc (d : Dev) (f : Fld) (i v : Nat) : (d.setFld f i v).cc = d.cc := rfl
@[simp] theorem Dev.setFld_sec (d : Dev) (f : Fld) (i v : Nat) : (d.setFld f i v).sec = d.sec := rfl
@[simp] theorem Dev.setFld_nvs (d : Dev) (f : Fld) (i v : Nat) : (d.setFld f i v).nvs = d.nvs := rfl
@[simp] theorem Dev.setFld_mbx (d : Dev) (f : Fld) (i v : Nat) : (d.setFld f i v).mbx = d.mbx := rfl
@[simp] theorem Dev.setFld_locks (d : Dev) (f : Fld) (i v : Nat) : (d.setFld f i v).locks = d.locks := rfl
@[simp] theorem Dev.setFld_own (d : Dev) (f : Fld) (i v : Nat) : (d.setFld f i v).own = d.own := rfl
@[simp] theorem Dev.setFld_pins (d : Dev) (f : Fld) (i v : Nat) : (d.setFld f i v).pins = d.pins := rfl
@[simp] theorem Dev.setFld_phy (d : Dev) (f : Fld) (i v : Nat) : (d.setFld f i v).phy = d.phy := rfl
@[simp] theorem Dev.setFld_link (d : Dev) (f : Fld) (i v : Nat) : (d.setFld f i v).link = d.link := rfl
@[simp] theorem Dev.setFld_swc (d : Dev) (f : Fld) (i v : Nat) : (d.setFld f i v).swc = d.swc := rfl
@[simp] theorem Dev.setFld_rte (d : Dev) (f : Fld) (i v : Nat) : (d.setFld f i v).rte = d.rte := rfl
@[simp] theorem Dev.setFld_xlt (d : Dev) (f : Fld) (i v : Nat) : (d.setFld f i v).xlt = d.xlt := rfl
@[simp] theorem Dev.setFld_prot (d : Dev) (f : Fld) (i v : Nat) : (d.setFld f i v).prot = d.prot := rfl
@[simp] theorem Dev.setFld_wq (d : Dev) (f : Fld) (i v : Nat) : (d.setFld f i v).wq = d.wq := rfl
@[simp] theorem Dev.setFld_trn (d : Dev) (f : Fld) (i v : Nat) : (d.setFld f i v).trn = d.trn := rfl
@[simp] theorem Dev.setFld_mte (d : Dev) (f : Fld) (i v : Nat) : (d.setFld f i v).mte = d.mte := rfl
@[simp] theorem Dev.setFld_mbr (d : Dev) (f : Fld) (i v : Nat) : (d.setFld f i v).mbr = d.mbr := rfl
@[simp] theorem Dev.setFld_hsw (d : Dev) (f : Fld) (i v : Nat) : (d.setFld f i v).hsw = d.hsw := rfl
@[simp] theorem Dev.setFld_eng (d : Dev) (f : Fld) (i v : Nat) : (d.setFld f i v).eng = d.eng := rfl
@[simp] theorem Dev.setFld_pwr (d : Dev) (f : Fld) (i v : Nat) : (d.setFld f i v).pwr = d.pwr := rfl
@[simp] theorem Dev.setFld_col (d : Dev) (f : Fld) (i v : Nat) : (d.setFld f i v).col = d.col := rfl
@[simp] theorem Dev.setFld_inj (d : Dev) (f : Fld) (i v : Nat) : (d.setFld f i v).inj = d.inj := rfl
@[simp] theorem Dev.setFld_mem (d : Dev) (f : Fld) (i v : Nat) : (d.setFld f i v).mem = d.mem := rfl
@[simp] theorem Dev.setFld_wr (d : Dev) (f : Fld) (i v : Nat) : (d.setFld f i v).wr = d.wr := rfl
@[simp] theorem Dev.setFld_wipe (d : Dev) (f : Fld) (i v : Nat) : (d.setFld f i v).wipe = d.wipe := rfl
@[simp] theorem Dev.setFld_out (d : Dev) (f : Fld) (i v : Nat) : (d.setFld f i v).out = d.out := rfl
@[simp] theorem Dev.setFld_free (d : Dev) (f : Fld) (i v : Nat) : (d.setFld f i v).free = d.free := rfl

/-! `Dev.bump`. -/

@[simp] theorem Dev.bump_part (d : Dev) (f : Fld) (i n : Nat) : (d.bump f i n).part = d.part := rfl
@[simp] theorem Dev.bump_shadow (d : Dev) (f : Fld) (i n : Nat) : (d.bump f i n).shadow = d.shadow := rfl
@[simp] theorem Dev.bump_cnts (d : Dev) (f : Fld) (i n : Nat) : (d.bump f i n).cnts = d.cnts := rfl
@[simp] theorem Dev.bump_clk (d : Dev) (f : Fld) (i n : Nat) : (d.bump f i n).clk = d.clk := rfl
@[simp] theorem Dev.bump_evr (d : Dev) (f : Fld) (i n : Nat) : (d.bump f i n).evr = d.evr := rfl
@[simp] theorem Dev.bump_pmc (d : Dev) (f : Fld) (i n : Nat) : (d.bump f i n).pmc = d.pmc := rfl
@[simp] theorem Dev.bump_cc (d : Dev) (f : Fld) (i n : Nat) : (d.bump f i n).cc = d.cc := rfl
@[simp] theorem Dev.bump_sec (d : Dev) (f : Fld) (i n : Nat) : (d.bump f i n).sec = d.sec := rfl
@[simp] theorem Dev.bump_nvs (d : Dev) (f : Fld) (i n : Nat) : (d.bump f i n).nvs = d.nvs := rfl
@[simp] theorem Dev.bump_mbx (d : Dev) (f : Fld) (i n : Nat) : (d.bump f i n).mbx = d.mbx := rfl
@[simp] theorem Dev.bump_locks (d : Dev) (f : Fld) (i n : Nat) : (d.bump f i n).locks = d.locks := rfl
@[simp] theorem Dev.bump_own (d : Dev) (f : Fld) (i n : Nat) : (d.bump f i n).own = d.own := rfl
@[simp] theorem Dev.bump_pins (d : Dev) (f : Fld) (i n : Nat) : (d.bump f i n).pins = d.pins := rfl
@[simp] theorem Dev.bump_phy (d : Dev) (f : Fld) (i n : Nat) : (d.bump f i n).phy = d.phy := rfl
@[simp] theorem Dev.bump_link (d : Dev) (f : Fld) (i n : Nat) : (d.bump f i n).link = d.link := rfl
@[simp] theorem Dev.bump_swc (d : Dev) (f : Fld) (i n : Nat) : (d.bump f i n).swc = d.swc := rfl
@[simp] theorem Dev.bump_rte (d : Dev) (f : Fld) (i n : Nat) : (d.bump f i n).rte = d.rte := rfl
@[simp] theorem Dev.bump_xlt (d : Dev) (f : Fld) (i n : Nat) : (d.bump f i n).xlt = d.xlt := rfl
@[simp] theorem Dev.bump_prot (d : Dev) (f : Fld) (i n : Nat) : (d.bump f i n).prot = d.prot := rfl
@[simp] theorem Dev.bump_wq (d : Dev) (f : Fld) (i n : Nat) : (d.bump f i n).wq = d.wq := rfl
@[simp] theorem Dev.bump_trn (d : Dev) (f : Fld) (i n : Nat) : (d.bump f i n).trn = d.trn := rfl
@[simp] theorem Dev.bump_mte (d : Dev) (f : Fld) (i n : Nat) : (d.bump f i n).mte = d.mte := rfl
@[simp] theorem Dev.bump_mbr (d : Dev) (f : Fld) (i n : Nat) : (d.bump f i n).mbr = d.mbr := rfl
@[simp] theorem Dev.bump_hsw (d : Dev) (f : Fld) (i n : Nat) : (d.bump f i n).hsw = d.hsw := rfl
@[simp] theorem Dev.bump_eng (d : Dev) (f : Fld) (i n : Nat) : (d.bump f i n).eng = d.eng := rfl
@[simp] theorem Dev.bump_pwr (d : Dev) (f : Fld) (i n : Nat) : (d.bump f i n).pwr = d.pwr := rfl
@[simp] theorem Dev.bump_col (d : Dev) (f : Fld) (i n : Nat) : (d.bump f i n).col = d.col := rfl
@[simp] theorem Dev.bump_inj (d : Dev) (f : Fld) (i n : Nat) : (d.bump f i n).inj = d.inj := rfl
@[simp] theorem Dev.bump_mem (d : Dev) (f : Fld) (i n : Nat) : (d.bump f i n).mem = d.mem := rfl
@[simp] theorem Dev.bump_wr (d : Dev) (f : Fld) (i n : Nat) : (d.bump f i n).wr = d.wr := rfl
@[simp] theorem Dev.bump_wipe (d : Dev) (f : Fld) (i n : Nat) : (d.bump f i n).wipe = d.wipe := rfl
@[simp] theorem Dev.bump_out (d : Dev) (f : Fld) (i n : Nat) : (d.bump f i n).out = d.out := rfl
@[simp] theorem Dev.bump_free (d : Dev) (f : Fld) (i n : Nat) : (d.bump f i n).free = d.free := rfl

/-! `Dev.count`. -/

@[simp] theorem Dev.count_part (d : Dev) (g j n : Nat) : (d.count g j n).part = d.part := rfl
@[simp] theorem Dev.count_regs (d : Dev) (g j n : Nat) : (d.count g j n).regs = d.regs := rfl
@[simp] theorem Dev.count_shadow (d : Dev) (g j n : Nat) : (d.count g j n).shadow = d.shadow := rfl
@[simp] theorem Dev.count_clk (d : Dev) (g j n : Nat) : (d.count g j n).clk = d.clk := rfl
@[simp] theorem Dev.count_evr (d : Dev) (g j n : Nat) : (d.count g j n).evr = d.evr := rfl
@[simp] theorem Dev.count_pmc (d : Dev) (g j n : Nat) : (d.count g j n).pmc = d.pmc := rfl
@[simp] theorem Dev.count_cc (d : Dev) (g j n : Nat) : (d.count g j n).cc = d.cc := rfl
@[simp] theorem Dev.count_sec (d : Dev) (g j n : Nat) : (d.count g j n).sec = d.sec := rfl
@[simp] theorem Dev.count_nvs (d : Dev) (g j n : Nat) : (d.count g j n).nvs = d.nvs := rfl
@[simp] theorem Dev.count_mbx (d : Dev) (g j n : Nat) : (d.count g j n).mbx = d.mbx := rfl
@[simp] theorem Dev.count_locks (d : Dev) (g j n : Nat) : (d.count g j n).locks = d.locks := rfl
@[simp] theorem Dev.count_own (d : Dev) (g j n : Nat) : (d.count g j n).own = d.own := rfl
@[simp] theorem Dev.count_pins (d : Dev) (g j n : Nat) : (d.count g j n).pins = d.pins := rfl
@[simp] theorem Dev.count_phy (d : Dev) (g j n : Nat) : (d.count g j n).phy = d.phy := rfl
@[simp] theorem Dev.count_link (d : Dev) (g j n : Nat) : (d.count g j n).link = d.link := rfl
@[simp] theorem Dev.count_swc (d : Dev) (g j n : Nat) : (d.count g j n).swc = d.swc := rfl
@[simp] theorem Dev.count_rte (d : Dev) (g j n : Nat) : (d.count g j n).rte = d.rte := rfl
@[simp] theorem Dev.count_xlt (d : Dev) (g j n : Nat) : (d.count g j n).xlt = d.xlt := rfl
@[simp] theorem Dev.count_prot (d : Dev) (g j n : Nat) : (d.count g j n).prot = d.prot := rfl
@[simp] theorem Dev.count_wq (d : Dev) (g j n : Nat) : (d.count g j n).wq = d.wq := rfl
@[simp] theorem Dev.count_trn (d : Dev) (g j n : Nat) : (d.count g j n).trn = d.trn := rfl
@[simp] theorem Dev.count_mte (d : Dev) (g j n : Nat) : (d.count g j n).mte = d.mte := rfl
@[simp] theorem Dev.count_mbr (d : Dev) (g j n : Nat) : (d.count g j n).mbr = d.mbr := rfl
@[simp] theorem Dev.count_hsw (d : Dev) (g j n : Nat) : (d.count g j n).hsw = d.hsw := rfl
@[simp] theorem Dev.count_eng (d : Dev) (g j n : Nat) : (d.count g j n).eng = d.eng := rfl
@[simp] theorem Dev.count_pwr (d : Dev) (g j n : Nat) : (d.count g j n).pwr = d.pwr := rfl
@[simp] theorem Dev.count_col (d : Dev) (g j n : Nat) : (d.count g j n).col = d.col := rfl
@[simp] theorem Dev.count_inj (d : Dev) (g j n : Nat) : (d.count g j n).inj = d.inj := rfl
@[simp] theorem Dev.count_mem (d : Dev) (g j n : Nat) : (d.count g j n).mem = d.mem := rfl
@[simp] theorem Dev.count_wr (d : Dev) (g j n : Nat) : (d.count g j n).wr = d.wr := rfl
@[simp] theorem Dev.count_wipe (d : Dev) (g j n : Nat) : (d.count g j n).wipe = d.wipe := rfl
@[simp] theorem Dev.count_out (d : Dev) (g j n : Nat) : (d.count g j n).out = d.out := rfl
@[simp] theorem Dev.count_free (d : Dev) (g j n : Nat) : (d.count g j n).free = d.free := rfl

/-! `Dev.emit`. -/

@[simp] theorem Dev.emit_part (d : Dev) (o : Out) : (d.emit o).part = d.part := rfl
@[simp] theorem Dev.emit_regs (d : Dev) (o : Out) : (d.emit o).regs = d.regs := rfl
@[simp] theorem Dev.emit_shadow (d : Dev) (o : Out) : (d.emit o).shadow = d.shadow := rfl
@[simp] theorem Dev.emit_cnts (d : Dev) (o : Out) : (d.emit o).cnts = d.cnts := rfl
@[simp] theorem Dev.emit_clk (d : Dev) (o : Out) : (d.emit o).clk = d.clk := rfl
@[simp] theorem Dev.emit_evr (d : Dev) (o : Out) : (d.emit o).evr = d.evr := rfl
@[simp] theorem Dev.emit_pmc (d : Dev) (o : Out) : (d.emit o).pmc = d.pmc := rfl
@[simp] theorem Dev.emit_cc (d : Dev) (o : Out) : (d.emit o).cc = d.cc := rfl
@[simp] theorem Dev.emit_sec (d : Dev) (o : Out) : (d.emit o).sec = d.sec := rfl
@[simp] theorem Dev.emit_nvs (d : Dev) (o : Out) : (d.emit o).nvs = d.nvs := rfl
@[simp] theorem Dev.emit_mbx (d : Dev) (o : Out) : (d.emit o).mbx = d.mbx := rfl
@[simp] theorem Dev.emit_locks (d : Dev) (o : Out) : (d.emit o).locks = d.locks := rfl
@[simp] theorem Dev.emit_own (d : Dev) (o : Out) : (d.emit o).own = d.own := rfl
@[simp] theorem Dev.emit_pins (d : Dev) (o : Out) : (d.emit o).pins = d.pins := rfl
@[simp] theorem Dev.emit_phy (d : Dev) (o : Out) : (d.emit o).phy = d.phy := rfl
@[simp] theorem Dev.emit_link (d : Dev) (o : Out) : (d.emit o).link = d.link := rfl
@[simp] theorem Dev.emit_swc (d : Dev) (o : Out) : (d.emit o).swc = d.swc := rfl
@[simp] theorem Dev.emit_rte (d : Dev) (o : Out) : (d.emit o).rte = d.rte := rfl
@[simp] theorem Dev.emit_xlt (d : Dev) (o : Out) : (d.emit o).xlt = d.xlt := rfl
@[simp] theorem Dev.emit_prot (d : Dev) (o : Out) : (d.emit o).prot = d.prot := rfl
@[simp] theorem Dev.emit_wq (d : Dev) (o : Out) : (d.emit o).wq = d.wq := rfl
@[simp] theorem Dev.emit_trn (d : Dev) (o : Out) : (d.emit o).trn = d.trn := rfl
@[simp] theorem Dev.emit_mte (d : Dev) (o : Out) : (d.emit o).mte = d.mte := rfl
@[simp] theorem Dev.emit_mbr (d : Dev) (o : Out) : (d.emit o).mbr = d.mbr := rfl
@[simp] theorem Dev.emit_hsw (d : Dev) (o : Out) : (d.emit o).hsw = d.hsw := rfl
@[simp] theorem Dev.emit_eng (d : Dev) (o : Out) : (d.emit o).eng = d.eng := rfl
@[simp] theorem Dev.emit_pwr (d : Dev) (o : Out) : (d.emit o).pwr = d.pwr := rfl
@[simp] theorem Dev.emit_col (d : Dev) (o : Out) : (d.emit o).col = d.col := rfl
@[simp] theorem Dev.emit_inj (d : Dev) (o : Out) : (d.emit o).inj = d.inj := rfl
@[simp] theorem Dev.emit_mem (d : Dev) (o : Out) : (d.emit o).mem = d.mem := rfl
@[simp] theorem Dev.emit_wr (d : Dev) (o : Out) : (d.emit o).wr = d.wr := rfl
@[simp] theorem Dev.emit_wipe (d : Dev) (o : Out) : (d.emit o).wipe = d.wipe := rfl
@[simp] theorem Dev.emit_free (d : Dev) (o : Out) : (d.emit o).free = d.free := rfl

/-! `Dev.store`. -/

@[simp] theorem Dev.store_part (d : Dev) (sp : Space) (a : Nat) (bs : List Byte) : (d.store sp a bs).part = d.part := rfl
@[simp] theorem Dev.store_regs (d : Dev) (sp : Space) (a : Nat) (bs : List Byte) : (d.store sp a bs).regs = d.regs := rfl
@[simp] theorem Dev.store_shadow (d : Dev) (sp : Space) (a : Nat) (bs : List Byte) : (d.store sp a bs).shadow = d.shadow := rfl
@[simp] theorem Dev.store_cnts (d : Dev) (sp : Space) (a : Nat) (bs : List Byte) : (d.store sp a bs).cnts = d.cnts := rfl
@[simp] theorem Dev.store_clk (d : Dev) (sp : Space) (a : Nat) (bs : List Byte) : (d.store sp a bs).clk = d.clk := rfl
@[simp] theorem Dev.store_evr (d : Dev) (sp : Space) (a : Nat) (bs : List Byte) : (d.store sp a bs).evr = d.evr := rfl
@[simp] theorem Dev.store_pmc (d : Dev) (sp : Space) (a : Nat) (bs : List Byte) : (d.store sp a bs).pmc = d.pmc := rfl
@[simp] theorem Dev.store_cc (d : Dev) (sp : Space) (a : Nat) (bs : List Byte) : (d.store sp a bs).cc = d.cc := rfl
@[simp] theorem Dev.store_sec (d : Dev) (sp : Space) (a : Nat) (bs : List Byte) : (d.store sp a bs).sec = d.sec := rfl
@[simp] theorem Dev.store_nvs (d : Dev) (sp : Space) (a : Nat) (bs : List Byte) : (d.store sp a bs).nvs = d.nvs := rfl
@[simp] theorem Dev.store_mbx (d : Dev) (sp : Space) (a : Nat) (bs : List Byte) : (d.store sp a bs).mbx = d.mbx := rfl
@[simp] theorem Dev.store_locks (d : Dev) (sp : Space) (a : Nat) (bs : List Byte) : (d.store sp a bs).locks = d.locks := rfl
@[simp] theorem Dev.store_own (d : Dev) (sp : Space) (a : Nat) (bs : List Byte) : (d.store sp a bs).own = d.own := rfl
@[simp] theorem Dev.store_pins (d : Dev) (sp : Space) (a : Nat) (bs : List Byte) : (d.store sp a bs).pins = d.pins := rfl
@[simp] theorem Dev.store_phy (d : Dev) (sp : Space) (a : Nat) (bs : List Byte) : (d.store sp a bs).phy = d.phy := rfl
@[simp] theorem Dev.store_link (d : Dev) (sp : Space) (a : Nat) (bs : List Byte) : (d.store sp a bs).link = d.link := rfl
@[simp] theorem Dev.store_swc (d : Dev) (sp : Space) (a : Nat) (bs : List Byte) : (d.store sp a bs).swc = d.swc := rfl
@[simp] theorem Dev.store_rte (d : Dev) (sp : Space) (a : Nat) (bs : List Byte) : (d.store sp a bs).rte = d.rte := rfl
@[simp] theorem Dev.store_xlt (d : Dev) (sp : Space) (a : Nat) (bs : List Byte) : (d.store sp a bs).xlt = d.xlt := rfl
@[simp] theorem Dev.store_prot (d : Dev) (sp : Space) (a : Nat) (bs : List Byte) : (d.store sp a bs).prot = d.prot := rfl
@[simp] theorem Dev.store_wq (d : Dev) (sp : Space) (a : Nat) (bs : List Byte) : (d.store sp a bs).wq = d.wq := rfl
@[simp] theorem Dev.store_trn (d : Dev) (sp : Space) (a : Nat) (bs : List Byte) : (d.store sp a bs).trn = d.trn := rfl
@[simp] theorem Dev.store_mte (d : Dev) (sp : Space) (a : Nat) (bs : List Byte) : (d.store sp a bs).mte = d.mte := rfl
@[simp] theorem Dev.store_mbr (d : Dev) (sp : Space) (a : Nat) (bs : List Byte) : (d.store sp a bs).mbr = d.mbr := rfl
@[simp] theorem Dev.store_hsw (d : Dev) (sp : Space) (a : Nat) (bs : List Byte) : (d.store sp a bs).hsw = d.hsw := rfl
@[simp] theorem Dev.store_eng (d : Dev) (sp : Space) (a : Nat) (bs : List Byte) : (d.store sp a bs).eng = d.eng := rfl
@[simp] theorem Dev.store_pwr (d : Dev) (sp : Space) (a : Nat) (bs : List Byte) : (d.store sp a bs).pwr = d.pwr := rfl
@[simp] theorem Dev.store_col (d : Dev) (sp : Space) (a : Nat) (bs : List Byte) : (d.store sp a bs).col = d.col := rfl
@[simp] theorem Dev.store_inj (d : Dev) (sp : Space) (a : Nat) (bs : List Byte) : (d.store sp a bs).inj = d.inj := rfl
@[simp] theorem Dev.store_mem (d : Dev) (sp : Space) (a : Nat) (bs : List Byte) : (d.store sp a bs).mem = d.mem := rfl
@[simp] theorem Dev.store_wipe (d : Dev) (sp : Space) (a : Nat) (bs : List Byte) : (d.store sp a bs).wipe = d.wipe := rfl
@[simp] theorem Dev.store_out (d : Dev) (sp : Space) (a : Nat) (bs : List Byte) : (d.store sp a bs).out = d.out := rfl
@[simp] theorem Dev.store_free (d : Dev) (sp : Space) (a : Nat) (bs : List Byte) : (d.store sp a bs).free = d.free := rfl

@[simp] theorem Dev.emit_out (d : Dev) (o : Out) : (d.emit o).out = o :: d.out := rfl
@[simp] theorem Dev.store_wr (d : Dev) (sp : Space) (a : Nat) (bs : List Byte) :
    (d.store sp a bs).wr = d.wr ++ [{ space := sp, addr := a, bytes := bs }] := rfl

/-! `State.run`. -/

/-- Running a command answers a next state, whatever its effect. -/
theorem State.run_eq (s : State) (f : Dev → Dev) :
    s.run f = .next { s with dev := { f s.dev with
      part := s.dev.part
      mem := applyWrites (if (f s.dev).wipe then outsideMem s.dev.mem else s.dev.mem) (f s.dev).wr
      wr := []
      wipe := false } } := rfl

/-- A command that makes no store and keeps the part leaves its effect as it is. -/
theorem State.run_quiet (s : State) (f : Dev → Dev) (hp : (f s.dev).part = s.dev.part) (hm : (f s.dev).mem = s.dev.mem)
    (hw : (f s.dev).wr = []) (hz : (f s.dev).wipe = false) : s.run f = .next { s with dev := f s.dev } := by
  rw [State.run_eq, hw, hz, ← hp]
  simp only [applyWrites, Bool.false_eq_true, if_false, List.foldl_nil, ← hm]
  congr 2
  cases hd : f s.dev
  simp_all

/-- Running a command keeps the invariant. -/
theorem State.run_inv (s t : State) (f : Dev → Dev) (h : Inv s) (e : s.run f = .next t) : Inv t := by
  rw [State.run_eq] at e
  cases e
  refine ⟨applyWrites_wf _ _ ?_, rfl, rfl⟩
  by_cases hz : (f s.dev).wipe = true
  · simpa [hz] using outsideMem_wf _ h.1
  · simpa [hz] using h.1

/-- Running a command keeps the part and the queue. -/
theorem State.run_part (s t : State) (f : Dev → Dev) (e : s.run f = .next t) :
    t.dev.part = s.dev.part ∧ t.pending = s.pending := by
  rw [State.run_eq] at e
  cases e
  exact ⟨rfl, rfl⟩

/-- A command whose effect leaves the device rested answers what its effect gives. -/
theorem State.exec_of_run {c : Instr} {s : State} {f : Dev → Dev} {P : Dev → Prop} (e : exec c s = s.run f)
    (hp : (f s.dev).part = s.dev.part) (hm : (f s.dev).mem = s.dev.mem) (hw : (f s.dev).Rested) (h : P (f s.dev)) :
    ∃ t, exec c s = .next { s with dev := t } ∧ P t :=
  ⟨f s.dev, by rw [e, State.run_quiet s f hp hm hw.1 hw.2], h⟩

end Sys2Proof.Machine
end

