-- ==== Sys2Proof/Laws/Regs.lean ====
section
/-!
SUPPORT. Registers and fields: reading after writing.
-/

namespace Sys2Proof.Machine

/-- The keys of the register file tell registers apart. -/
theorem Reg.code_inj {r r' : Reg} (h : r.code = r'.code) : r = r' := by
  have := congrArg Reg.ofNat h
  simpa [Reg.code, Reg.ofNat_ctorIdx] using this

/-- A register word reads as it was last written. -/
@[simp] theorem Dev.rd_setReg_same (d : Dev) (r : Reg) (i : Nat) (w : Word) : (d.setReg r i w).rd r i = w := by
  simp [Dev.rd, Dev.setReg, Dev.word]

/-- Writing a register leaves every other register word as it was. -/
theorem Dev.rd_setReg_cell (d : Dev) (r r' : Reg) (i i' : Nat) (w : Word) (h : r'.cell i' ≠ r.cell i) :
    (d.setReg r i w).rd r' i' = d.rd r' i' := by
  unfold Dev.rd Dev.setReg Dev.word
  generalize r.cell i = c at h ⊢
  generalize r'.cell i' = c' at h ⊢
  obtain ⟨a, b⟩ := c
  obtain ⟨a', b'⟩ := c'
  dsimp only
  by_cases hr : a'.code = a.code
  · have : a' = a := Reg.code_inj hr
    subst this
    have hb : b' ≠ b := fun e => h (by rw [e])
    rw [Tbl.get_set_same, Option.bind_some, Tbl.get_set_ne _ _ _ _ hb]
    cases hg : Tbl.get d.regs a'.code <;> simp [Tbl.getD, hg]
  · rw [Tbl.get_set_ne _ _ _ _ hr]

/-- Registers whose words are held elsewhere: those with RWP fields (Table 18-7). -/
def Reg.lent (r : Reg) : Bool := r == .HSW_GRP_CFG || r == .HSW_PORT_CFG || r == .MBX_ROOT_MASK

/-- Every other register has its words to itself. -/
theorem Reg.cell_own (r : Reg) (i : Nat) (h : r.lent = false) : r.cell i = (r, i) := by
  cases r <;> first | rfl | simp [Reg.lent] at h

/-- Another register reads as before, unless one of the two lies in the persistent words. -/
theorem Dev.rd_setReg_ne (d : Dev) (r r' : Reg) (i i' : Nat) (w : Word) (h : r' ≠ r) (hr : r.lent = false)
    (hn : r ≠ .NVS_WORD) : (d.setReg r i w).rd r' i' = d.rd r' i' := by
  apply Dev.rd_setReg_cell
  rw [Reg.cell_own r i hr]
  intro e
  have e1 : (r'.cell i').1 = r := congrArg Prod.fst e
  cases hl : r'.lent with
  | false => rw [Reg.cell_own r' i' hl] at e1; exact h e1
  | true =>
    have h3 : r' = .HSW_GRP_CFG ∨ r' = .HSW_PORT_CFG ∨ r' = .MBX_ROOT_MASK := by
      simpa [Reg.lent, or_assoc] using hl
    rcases h3 with rfl | rfl | rfl <;> exact hn e1.symm

/-- Another copy of a register reads as before; `MBX_ROOT_MASK` has one. -/
theorem Dev.rd_setReg_other (d : Dev) (r : Reg) (i i' : Nat) (w : Word) (h : i' ≠ i) (hm : r ≠ .MBX_ROOT_MASK) :
    (d.setReg r i w).rd r i' = d.rd r i' := by
  apply Dev.rd_setReg_cell
  intro e
  cases hl : r.lent with
  | false =>
    rw [Reg.cell_own r i hl, Reg.cell_own r i' hl] at e
    exact h (congrArg Prod.snd e)
  | true =>
    have h3 : r = .HSW_GRP_CFG ∨ r = .HSW_PORT_CFG ∨ r = .MBX_ROOT_MASK := by
      simpa [Reg.lent, or_assoc] using hl
    rcases h3 with rfl | rfl | rfl
    · simp [Reg.cell] at e; omega
    · simp [Reg.cell] at e; omega
    · exact hm rfl

/-! Fields. -/

/-- What a field of a word reads after the field was put. -/
theorem Fld.ofWord_put (f : Fld) (w : Word) (v : Nat) (h : f.lo + f.w ≤ 32) : f.ofWord (f.put w v) = v % 2 ^ f.w := by
  apply Nat.eq_of_testBit_eq
  intro i
  simp only [Fld.ofWord, Fld.put, Fld.mask, Nat.testBit_mod_two_pow, Nat.testBit_div_two_pow]
  by_cases hi : i < f.w
  · have h32 : f.lo + i < 32 := by omega
    simp only [hi, decide_true, Bool.true_and, BitVec.testBit_toNat, BitVec.getLsbD_or, BitVec.getLsbD_and,
      BitVec.getLsbD_not, BitVec.getLsbD_shiftLeft, BitVec.getLsbD_ofNat, Nat.testBit_two_pow_sub_one,
      Nat.testBit_mod_two_pow]
    have e : i + f.lo - f.lo = i := by omega
    have : ¬ i + f.lo < f.lo := by omega
    have h31 : i < 32 := by omega
    have h33 : i + f.lo < 32 := by omega
    simp [e, this, hi, h31, h33]
  · simp [hi]

/-- Another field of a word reads as before: its bits lie apart. -/
theorem Fld.ofWord_put_apart (f g : Fld) (w : Word) (v : Nat) (h : f.lo + f.w ≤ g.lo ∨ g.lo + g.w ≤ f.lo) :
    g.ofWord (f.put w v) = g.ofWord w := by
  apply Nat.eq_of_testBit_eq
  intro i
  simp only [Fld.ofWord, Fld.put, Fld.mask, Nat.testBit_mod_two_pow, Nat.testBit_div_two_pow]
  by_cases hi : i < g.w
  · simp only [hi, decide_true, Bool.true_and, BitVec.testBit_toNat, BitVec.getLsbD_or, BitVec.getLsbD_and,
      BitVec.getLsbD_not, BitVec.getLsbD_shiftLeft, BitVec.getLsbD_ofNat, Nat.testBit_two_pow_sub_one,
      Nat.testBit_mod_two_pow]
    by_cases h32 : i + g.lo < 32
    · by_cases hlo : i + g.lo < f.lo
      · simp [h32, hlo]
      · have : ¬ i + g.lo - f.lo < f.w := by omega
        simp [h32, hlo, this]
    · simp [h32, BitVec.getLsbD_of_ge _ _ (by omega : 32 ≤ i + g.lo)]
  · simp [hi]

/-- A field reads as it was written. -/
theorem Dev.fld_setFld_same (d : Dev) (f : Fld) (i v : Nat) (h : f.lo + f.w ≤ 32) :
    (d.setFld f i v).fld f i = v % 2 ^ f.w := by
  simp [Dev.fld, Dev.setFld, Fld.ofWord_put f _ v h]

/-- A field of the same register whose bits lie apart reads as before. -/
theorem Dev.fld_setFld_apart (d : Dev) (f g : Fld) (i v : Nat) (hr : g.reg = f.reg)
    (h : f.lo + f.w ≤ g.lo ∨ g.lo + g.w ≤ f.lo) : (d.setFld f i v).fld g i = d.fld g i := by
  simp [Dev.fld, Dev.setFld, hr, Fld.ofWord_put_apart f g _ v h]

/-- A field of another copy reads as before. -/
theorem Dev.rd_setFld_other (d : Dev) (f : Fld) (i i' v : Nat) (h : i' ≠ i) (hm : f.reg ≠ .MBX_ROOT_MASK) :
    (d.setFld f i v).rd f.reg i' = d.rd f.reg i' :=
  Dev.rd_setReg_other d f.reg i i' _ h hm

/-- A word of another register reads as before. -/
theorem Dev.rd_setFld_ne (d : Dev) (f : Fld) (r : Reg) (i i' v : Nat) (h : r ≠ f.reg) (hr : f.reg.lent = false)
    (hn : f.reg ≠ .NVS_WORD) : (d.setFld f i v).rd r i' = d.rd r i' :=
  Dev.rd_setReg_ne d f.reg r i i' _ h hr hn

end Sys2Proof.Machine
end

