-- ==== Sys2Proof/Laws/Event.lean ====
section
/-!
SUPPORT. What recording an event can do: it touches the recorder, and what its profiles read, and nothing else.
-/

namespace Sys2Proof.Machine

/-- A quiet register is held in a quiet word. -/
theorem Reg.quiet_cell (r : Reg) (i : Nat) (h : r.quiet = true) : (r.cell i).1.quiet = true := by
  cases hl : r.lent with
  | false => rw [Reg.cell_own r i hl]; exact h
  | true =>
    have h3 : r = .HSW_GRP_CFG ∨ r = .HSW_PORT_CFG ∨ r = .MBX_ROOT_MASK := by
      simpa [Reg.lent, or_assoc] using hl
    rcases h3 with rfl | rfl | rfl <;> rfl

/-- A register that is not quiet has its words to itself. -/
theorem Reg.noisy_own (r : Reg) (h : r.quiet = false) : r.lent = false ∧ r ≠ .NVS_WORD := by
  constructor
  · cases hl : r.lent with
    | false => rfl
    | true =>
      have h3 : r = .HSW_GRP_CFG ∨ r = .HSW_PORT_CFG ∨ r = .MBX_ROOT_MASK := by
        simpa [Reg.lent, or_assoc] using hl
      rcases h3 with rfl | rfl | rfl <;> exact absurd h (by decide)
  · rintro rfl; exact absurd h (by decide)

theorem Dev.Recorded.refl (d : Dev) : d.Recorded d := ⟨rfl, fun _ _ _ => rfl, .inl rfl⟩

/-- Setting WORN twice is setting it once. -/
theorem Fld.put_worn_twice (w : Word) : F.NVS_STATUS_WORN.put (F.NVS_STATUS_WORN.put w 1) 1 = F.NVS_STATUS_WORN.put w 1 := by
  simp only [Fld.put]
  generalize F.NVS_STATUS_WORN.mask = m
  generalize (BitVec.ofNat 32 (1 % 2 ^ F.NVS_STATUS_WORN.w) <<< F.NVS_STATUS_WORN.lo) = b
  apply BitVec.eq_of_getLsbD_eq
  intro i hi
  simp only [BitVec.getLsbD_or, BitVec.getLsbD_and]
  cases w.getLsbD i <;> cases m.getLsbD i <;> cases b.getLsbD i <;> simp [hi] <;> cases (~~~m).getLsbD i <;> simp

theorem Dev.Recorded.trans {a b c : Dev} (h : a.Recorded b) (k : b.Recorded c) : a.Recorded c := by
  refine ⟨?_, fun r i hr => (k.2.1 r i hr).trans (h.2.1 r i hr), ?_⟩
  · have h1 := h.1
    have k1 := k.1
    rw [k1]
    rw [h1]
  · rcases h.2.2 with e | e <;> rcases k.2.2 with f | f <;> rw [f, e]
    · exact .inl rfl
    · exact .inr rfl
    · exact .inr rfl
    · exact .inr (Fld.put_worn_twice _)

/-- Writing a register that is not quiet. -/
theorem Dev.Recorded.setReg (d : Dev) (r : Reg) (i : Nat) (w : Word) (h : r.quiet = false) (hn : r ≠ .NVS_STATUS) :
    d.Recorded (d.setReg r i w) := by
  obtain ⟨h1, h2⟩ := Reg.noisy_own r h
  exact ⟨rfl, fun r' i' hr => Dev.rd_setReg_ne d r r' i i' w (by rintro rfl; simp [h] at hr) h1 h2,
    .inl (Dev.rd_setReg_ne d r _ i 0 w (Ne.symm hn) h1 h2)⟩

theorem Dev.Recorded.setFld (d : Dev) (f : Fld) (i v : Nat) (h : f.reg.quiet = false) (hn : f.reg ≠ .NVS_STATUS) :
    d.Recorded (d.setFld f i v) := Dev.Recorded.setReg d _ _ _ h hn

/-- A record slot is worn. -/
theorem Dev.Recorded.worn (d : Dev) : d.Recorded (d.setFld F.NVS_STATUS_WORN 0 1) := by
  have h : Reg.NVS_STATUS.quiet = false := by decide
  obtain ⟨h1, h2⟩ := Reg.noisy_own _ h
  refine ⟨rfl, fun r' i' hr => ?_, .inr ?_⟩
  · exact Dev.rd_setReg_ne d .NVS_STATUS r' 0 i' _ (by rintro rfl; simp [h] at hr) h1 h2
  · exact Dev.rd_setReg_same ..

theorem Dev.Recorded.shadow (d : Dev) (fn off : Nat) (w : Word) : d.Recorded (d.latchShadow fn off w) :=
  ⟨rfl, fun _ _ _ => rfl, .inl rfl⟩

theorem Dev.Recorded.free (d : Dev) (n : Nat) : d.Recorded { d with free := n } := ⟨rfl, fun _ _ _ => rfl, .inl rfl⟩

theorem Dev.Recorded.evr (d : Dev) (e : Evr) : d.Recorded { d with evr := e } := ⟨rfl, fun _ _ _ => rfl, .inl rfl⟩

/-- A read of a word is within what a recording does (R475). -/
theorem Dev.readWord_recorded (d : Dev) (fn off : Nat) : d.Recorded (d.readWord fn off).2 := by
  unfold Dev.readWord
  split
  · split
    · exact .refl d
    · exact .shadow ..
  · split
    · exact .refl d
    · split
      · exact .free d _
      · split
        · unfold Dev.readBank
          split
          · exact .refl d
          · split
            · exact .free d _
            · exact .refl d
        · split
          · dsimp only; split <;> exact .refl d
          · split
            · exact .refl d
            · split
              · exact .refl d
              · split
                · exact .refl d
                · split
                  · split
                    · exact .refl d
                    · exact .shadow ..
                  · dsimp only
                    split
                    · exact .refl d
                    · rename_i h
                      apply Dev.Recorded.setReg
                      · simp [Reg.quiet, h]
                      · rintro rfl; exact h (by decide)

theorem Dev.capture_recorded (d : Dev) (p n : Nat) : d.Recorded (d.capture p n).2 := by
  unfold Dev.capture
  generalize List.range n = is
  suffices h : ∀ (is : List Nat) (ws : List Word) (d' : Dev), d.Recorded d' →
      d.Recorded (is.foldl (fun (x : List Word × Dev) i =>
        ((x.1 ++ [(x.2.readWord 4224 (x.2.fld F.EVR_PROF_REG_OFFSET (31 * p + i) * 4)).1]),
          (x.2.readWord 4224 (x.2.fld F.EVR_PROF_REG_OFFSET (31 * p + i) * 4)).2)) (ws, d')).2 from h is [] d (.refl d)
  intro is
  induction is with
  | nil => intro ws d' h; exact h
  | cons i is ih => intro ws d' h; exact ih _ _ (h.trans (Dev.readWord_recorded ..))

theorem Dev.recordPerm_recorded (d : Dev) (slot : Nat) (e : EvRec) : d.Recorded (d.recordPerm slot e).1 := by
  unfold Dev.recordPerm
  dsimp only
  split
  · exact .worn d
  · exact .evr d _

theorem Dev.record_recorded (d : Dev) (code prof : Nat) (perm : Bool) (ctx regs : List Word) (supp : Nat) :
    d.Recorded (d.record code prof perm ctx regs supp).1 := by
  unfold Dev.record
  dsimp only
  have h0 := ((Dev.Recorded.evr d
    { d.evr with circ := Tbl.set d.evr.circ (d.evr.circNext % 4096)
                   { code := code, profile := prof, perm := perm, ctx := ctx, regs := regs, tick := d.clk.tick,
                     rnum := d.evr.circNext, supp := supp, fabric := d.flag F.TCK_STATUS_FABRIC 0,
                     epoch := d.fld F.TCK_STATUS_EPOCH 0, empty := false },
                 circNext := d.evr.circNext + 1 }).trans
    (Dev.Recorded.setFld _ F.EVR_STATUS_CIRC_COUNT 0 (d.evr.circNext + 1) rfl (by decide)))
  split
  · exact h0
  · split
    · exact (h0.trans (Dev.recordPerm_recorded ..)).trans (.evr _ _)
    · split
      · exact ((h0.trans (Dev.recordPerm_recorded ..)).trans (.evr _ _)).trans (.setFld _ _ _ _ rfl (by decide))
      · exact (h0.trans (.setFld _ _ _ _ rfl (by decide))).trans (.evr _ _)

theorem Dev.handleEvent_recorded (d : Dev) (code : Nat) (ctx : List Word) : d.Recorded (d.handleEvent code ctx).1 := by
  unfold Dev.handleEvent
  dsimp only
  generalize (if (code == 2) = true then (true, Tbl.getD d.evr.buckets code { units := 0, last := 0, supp := 0 })
      else d.bucketTake code) = k
  have h1 : d.Recorded (if (code == 2) = true then d
      else
        { d with evr := { d.evr with buckets := Tbl.set d.evr.buckets code (if k.1 then { k.2 with supp := 0 } else k.2) } }) := by
    split
    · exact .refl d
    · exact .evr d _
  generalize (if (code == 2) = true then d
      else
        { d with evr := { d.evr with buckets := Tbl.set d.evr.buckets code (if k.1 then { k.2 with supp := 0 } else k.2) } }) = d1 at h1 ⊢
  have h2 : ∀ p n, d.Recorded (d1.capture p n).2 := fun p n => h1.trans (Dev.capture_recorded ..)
  cases d.profileOf code with
  | none =>
    dsimp only
    repeat' split
    all_goals first
      | exact .refl d
      | exact .setFld _ _ _ _ rfl (by decide)
      | exact h1.trans (.setFld _ _ _ _ rfl (by decide))
      | exact h1.trans (Dev.record_recorded ..)
      | contradiction
  | some p =>
    dsimp only
    repeat' split
    all_goals first
      | exact .refl d
      | exact .setFld _ _ _ _ rfl (by decide)
      | exact h1.trans (.setFld _ _ _ _ rfl (by decide))
      | exact (h2 _ _).trans (Dev.record_recorded ..)

/-- Recording an event leaves everything as it was but what `Dev.Recorded` names. -/
theorem Dev.raise_recorded (d : Dev) (code : Nat) (ctx : List Nat) : d.Recorded (d.raise code ctx) := by
  unfold Dev.raise
  dsimp only
  split
  · exact Dev.handleEvent_recorded ..
  · exact (Dev.handleEvent_recorded ..).trans (Dev.handleEvent_recorded ..)

/-- A quiet register reads as before an event. -/
@[simp] theorem Dev.raise_rd (d : Dev) (code : Nat) (ctx : List Nat) (r : Reg) (i : Nat) (h : r.quiet = true) :
    (d.raise code ctx).rd r i = d.rd r i := (Dev.raise_recorded d code ctx).2.1 r i h

/-- So does a field of one. -/
@[simp] theorem Dev.raise_fld (d : Dev) (code : Nat) (ctx : List Nat) (f : Fld) (i : Nat) (h : f.reg.quiet = true) :
    (d.raise code ctx).fld f i = d.fld f i := by simp [Dev.fld, h]

@[simp] theorem Dev.raise_part (d : Dev) (code : Nat) (ctx : List Nat) : (d.raise code ctx).part = d.part := by
  rw [(Dev.raise_recorded d code ctx).1]
@[simp] theorem Dev.raise_cnts (d : Dev) (code : Nat) (ctx : List Nat) : (d.raise code ctx).cnts = d.cnts := by
  rw [(Dev.raise_recorded d code ctx).1]
@[simp] theorem Dev.raise_clk (d : Dev) (code : Nat) (ctx : List Nat) : (d.raise code ctx).clk = d.clk := by
  rw [(Dev.raise_recorded d code ctx).1]
@[simp] theorem Dev.raise_pmc (d : Dev) (code : Nat) (ctx : List Nat) : (d.raise code ctx).pmc = d.pmc := by
  rw [(Dev.raise_recorded d code ctx).1]
@[simp] theorem Dev.raise_cc (d : Dev) (code : Nat) (ctx : List Nat) : (d.raise code ctx).cc = d.cc := by
  rw [(Dev.raise_recorded d code ctx).1]
@[simp] theorem Dev.raise_sec (d : Dev) (code : Nat) (ctx : List Nat) : (d.raise code ctx).sec = d.sec := by
  rw [(Dev.raise_recorded d code ctx).1]
@[simp] theorem Dev.raise_nvs (d : Dev) (code : Nat) (ctx : List Nat) : (d.raise code ctx).nvs = d.nvs := by
  rw [(Dev.raise_recorded d code ctx).1]
@[simp] theorem Dev.raise_mbx (d : Dev) (code : Nat) (ctx : List Nat) : (d.raise code ctx).mbx = d.mbx := by
  rw [(Dev.raise_recorded d code ctx).1]
@[simp] theorem Dev.raise_locks (d : Dev) (code : Nat) (ctx : List Nat) : (d.raise code ctx).locks = d.locks := by
  rw [(Dev.raise_recorded d code ctx).1]
@[simp] theorem Dev.raise_own (d : Dev) (code : Nat) (ctx : List Nat) : (d.raise code ctx).own = d.own := by
  rw [(Dev.raise_recorded d code ctx).1]
@[simp] theorem Dev.raise_pins (d : Dev) (code : Nat) (ctx : List Nat) : (d.raise code ctx).pins = d.pins := by
  rw [(Dev.raise_recorded d code ctx).1]
@[simp] theorem Dev.raise_phy (d : Dev) (code : Nat) (ctx : List Nat) : (d.raise code ctx).phy = d.phy := by
  rw [(Dev.raise_recorded d code ctx).1]
@[simp] theorem Dev.raise_link (d : Dev) (code : Nat) (ctx : List Nat) : (d.raise code ctx).link = d.link := by
  rw [(Dev.raise_recorded d code ctx).1]
@[simp] theorem Dev.raise_swc (d : Dev) (code : Nat) (ctx : List Nat) : (d.raise code ctx).swc = d.swc := by
  rw [(Dev.raise_recorded d code ctx).1]
@[simp] theorem Dev.raise_rte (d : Dev) (code : Nat) (ctx : List Nat) : (d.raise code ctx).rte = d.rte := by
  rw [(Dev.raise_recorded d code ctx).1]
@[simp] theorem Dev.raise_xlt (d : Dev) (code : Nat) (ctx : List Nat) : (d.raise code ctx).xlt = d.xlt := by
  rw [(Dev.raise_recorded d code ctx).1]
@[simp] theorem Dev.raise_prot (d : Dev) (code : Nat) (ctx : List Nat) : (d.raise code ctx).prot = d.prot := by
  rw [(Dev.raise_recorded d code ctx).1]
@[simp] theorem Dev.raise_wq (d : Dev) (code : Nat) (ctx : List Nat) : (d.raise code ctx).wq = d.wq := by
  rw [(Dev.raise_recorded d code ctx).1]
@[simp] theorem Dev.raise_trn (d : Dev) (code : Nat) (ctx : List Nat) : (d.raise code ctx).trn = d.trn := by
  rw [(Dev.raise_recorded d code ctx).1]
@[simp] theorem Dev.raise_mte (d : Dev) (code : Nat) (ctx : List Nat) : (d.raise code ctx).mte = d.mte := by
  rw [(Dev.raise_recorded d code ctx).1]
@[simp] theorem Dev.raise_mbr (d : Dev) (code : Nat) (ctx : List Nat) : (d.raise code ctx).mbr = d.mbr := by
  rw [(Dev.raise_recorded d code ctx).1]
@[simp] theorem Dev.raise_hsw (d : Dev) (code : Nat) (ctx : List Nat) : (d.raise code ctx).hsw = d.hsw := by
  rw [(Dev.raise_recorded d code ctx).1]
@[simp] theorem Dev.raise_eng (d : Dev) (code : Nat) (ctx : List Nat) : (d.raise code ctx).eng = d.eng := by
  rw [(Dev.raise_recorded d code ctx).1]
@[simp] theorem Dev.raise_pwr (d : Dev) (code : Nat) (ctx : List Nat) : (d.raise code ctx).pwr = d.pwr := by
  rw [(Dev.raise_recorded d code ctx).1]
@[simp] theorem Dev.raise_col (d : Dev) (code : Nat) (ctx : List Nat) : (d.raise code ctx).col = d.col := by
  rw [(Dev.raise_recorded d code ctx).1]
@[simp] theorem Dev.raise_inj (d : Dev) (code : Nat) (ctx : List Nat) : (d.raise code ctx).inj = d.inj := by
  rw [(Dev.raise_recorded d code ctx).1]
@[simp] theorem Dev.raise_mem (d : Dev) (code : Nat) (ctx : List Nat) : (d.raise code ctx).mem = d.mem := by
  rw [(Dev.raise_recorded d code ctx).1]
@[simp] theorem Dev.raise_wr (d : Dev) (code : Nat) (ctx : List Nat) : (d.raise code ctx).wr = d.wr := by
  rw [(Dev.raise_recorded d code ctx).1]
@[simp] theorem Dev.raise_wipe (d : Dev) (code : Nat) (ctx : List Nat) : (d.raise code ctx).wipe = d.wipe := by
  rw [(Dev.raise_recorded d code ctx).1]
@[simp] theorem Dev.raise_out (d : Dev) (code : Nat) (ctx : List Nat) : (d.raise code ctx).out = d.out := by
  rw [(Dev.raise_recorded d code ctx).1]

/-! An error flag (Table 20-11) and a fault of class F3 write registers, and the latter raises an event. -/

@[simp] theorem Dev.glbErr_part (d : Dev) (fn : Nat) (g : Fld) (off : Nat) : (d.glbErr fn g off).part = d.part := by
  unfold Dev.glbErr; dsimp only; split <;> rfl
@[simp] theorem Dev.glbErr_cnts (d : Dev) (fn : Nat) (g : Fld) (off : Nat) : (d.glbErr fn g off).cnts = d.cnts := by
  unfold Dev.glbErr; dsimp only; split <;> rfl
@[simp] theorem Dev.glbErr_clk (d : Dev) (fn : Nat) (g : Fld) (off : Nat) : (d.glbErr fn g off).clk = d.clk := by
  unfold Dev.glbErr; dsimp only; split <;> rfl
@[simp] theorem Dev.glbErr_pmc (d : Dev) (fn : Nat) (g : Fld) (off : Nat) : (d.glbErr fn g off).pmc = d.pmc := by
  unfold Dev.glbErr; dsimp only; split <;> rfl
@[simp] theorem Dev.glbErr_cc (d : Dev) (fn : Nat) (g : Fld) (off : Nat) : (d.glbErr fn g off).cc = d.cc := by
  unfold Dev.glbErr; dsimp only; split <;> rfl
@[simp] theorem Dev.glbErr_sec (d : Dev) (fn : Nat) (g : Fld) (off : Nat) : (d.glbErr fn g off).sec = d.sec := by
  unfold Dev.glbErr; dsimp only; split <;> rfl
@[simp] theorem Dev.glbErr_nvs (d : Dev) (fn : Nat) (g : Fld) (off : Nat) : (d.glbErr fn g off).nvs = d.nvs := by
  unfold Dev.glbErr; dsimp only; split <;> rfl
@[simp] theorem Dev.glbErr_mbx (d : Dev) (fn : Nat) (g : Fld) (off : Nat) : (d.glbErr fn g off).mbx = d.mbx := by
  unfold Dev.glbErr; dsimp only; split <;> rfl
@[simp] theorem Dev.glbErr_locks (d : Dev) (fn : Nat) (g : Fld) (off : Nat) : (d.glbErr fn g off).locks = d.locks := by
  unfold Dev.glbErr; dsimp only; split <;> rfl
@[simp] theorem Dev.glbErr_own (d : Dev) (fn : Nat) (g : Fld) (off : Nat) : (d.glbErr fn g off).own = d.own := by
  unfold Dev.glbErr; dsimp only; split <;> rfl
@[simp] theorem Dev.glbErr_pins (d : Dev) (fn : Nat) (g : Fld) (off : Nat) : (d.glbErr fn g off).pins = d.pins := by
  unfold Dev.glbErr; dsimp only; split <;> rfl
@[simp] theorem Dev.glbErr_phy (d : Dev) (fn : Nat) (g : Fld) (off : Nat) : (d.glbErr fn g off).phy = d.phy := by
  unfold Dev.glbErr; dsimp only; split <;> rfl
@[simp] theorem Dev.glbErr_link (d : Dev) (fn : Nat) (g : Fld) (off : Nat) : (d.glbErr fn g off).link = d.link := by
  unfold Dev.glbErr; dsimp only; split <;> rfl
@[simp] theorem Dev.glbErr_swc (d : Dev) (fn : Nat) (g : Fld) (off : Nat) : (d.glbErr fn g off).swc = d.swc := by
  unfold Dev.glbErr; dsimp only; split <;> rfl
@[simp] theorem Dev.glbErr_rte (d : Dev) (fn : Nat) (g : Fld) (off : Nat) : (d.glbErr fn g off).rte = d.rte := by
  unfold Dev.glbErr; dsimp only; split <;> rfl
@[simp] theorem Dev.glbErr_xlt (d : Dev) (fn : Nat) (g : Fld) (off : Nat) : (d.glbErr fn g off).xlt = d.xlt := by
  unfold Dev.glbErr; dsimp only; split <;> rfl
@[simp] theorem Dev.glbErr_prot (d : Dev) (fn : Nat) (g : Fld) (off : Nat) : (d.glbErr fn g off).prot = d.prot := by
  unfold Dev.glbErr; dsimp only; split <;> rfl
@[simp] theorem Dev.glbErr_wq (d : Dev) (fn : Nat) (g : Fld) (off : Nat) : (d.glbErr fn g off).wq = d.wq := by
  unfold Dev.glbErr; dsimp only; split <;> rfl
@[simp] theorem Dev.glbErr_trn (d : Dev) (fn : Nat) (g : Fld) (off : Nat) : (d.glbErr fn g off).trn = d.trn := by
  unfold Dev.glbErr; dsimp only; split <;> rfl
@[simp] theorem Dev.glbErr_mte (d : Dev) (fn : Nat) (g : Fld) (off : Nat) : (d.glbErr fn g off).mte = d.mte := by
  unfold Dev.glbErr; dsimp only; split <;> rfl
@[simp] theorem Dev.glbErr_mbr (d : Dev) (fn : Nat) (g : Fld) (off : Nat) : (d.glbErr fn g off).mbr = d.mbr := by
  unfold Dev.glbErr; dsimp only; split <;> rfl
@[simp] theorem Dev.glbErr_hsw (d : Dev) (fn : Nat) (g : Fld) (off : Nat) : (d.glbErr fn g off).hsw = d.hsw := by
  unfold Dev.glbErr; dsimp only; split <;> rfl
@[simp] theorem Dev.glbErr_eng (d : Dev) (fn : Nat) (g : Fld) (off : Nat) : (d.glbErr fn g off).eng = d.eng := by
  unfold Dev.glbErr; dsimp only; split <;> rfl
@[simp] theorem Dev.glbErr_pwr (d : Dev) (fn : Nat) (g : Fld) (off : Nat) : (d.glbErr fn g off).pwr = d.pwr := by
  unfold Dev.glbErr; dsimp only; split <;> rfl
@[simp] theorem Dev.glbErr_col (d : Dev) (fn : Nat) (g : Fld) (off : Nat) : (d.glbErr fn g off).col = d.col := by
  unfold Dev.glbErr; dsimp only; split <;> rfl
@[simp] theorem Dev.glbErr_inj (d : Dev) (fn : Nat) (g : Fld) (off : Nat) : (d.glbErr fn g off).inj = d.inj := by
  unfold Dev.glbErr; dsimp only; split <;> rfl
@[simp] theorem Dev.glbErr_mem (d : Dev) (fn : Nat) (g : Fld) (off : Nat) : (d.glbErr fn g off).mem = d.mem := by
  unfold Dev.glbErr; dsimp only; split <;> rfl
@[simp] theorem Dev.glbErr_wr (d : Dev) (fn : Nat) (g : Fld) (off : Nat) : (d.glbErr fn g off).wr = d.wr := by
  unfold Dev.glbErr; dsimp only; split <;> rfl
@[simp] theorem Dev.glbErr_wipe (d : Dev) (fn : Nat) (g : Fld) (off : Nat) : (d.glbErr fn g off).wipe = d.wipe := by
  unfold Dev.glbErr; dsimp only; split <;> rfl
@[simp] theorem Dev.glbErr_out (d : Dev) (fn : Nat) (g : Fld) (off : Nat) : (d.glbErr fn g off).out = d.out := by
  unfold Dev.glbErr; dsimp only; split <;> rfl
@[simp] theorem Dev.glbErr_evr (d : Dev) (fn : Nat) (g : Fld) (off : Nat) : (d.glbErr fn g off).evr = d.evr := by
  unfold Dev.glbErr; dsimp only; split <;> rfl
@[simp] theorem Dev.glbErr_shadow (d : Dev) (fn : Nat) (g : Fld) (off : Nat) : (d.glbErr fn g off).shadow = d.shadow := by
  unfold Dev.glbErr; dsimp only; split <;> rfl
@[simp] theorem Dev.glbErr_free (d : Dev) (fn : Nat) (g : Fld) (off : Nat) : (d.glbErr fn g off).free = d.free := by
  unfold Dev.glbErr; dsimp only; split <;> rfl
@[simp] theorem Dev.fault3_part (d : Dev) (code : Nat) : (d.fault3 code).part = d.part := by
  unfold Dev.fault3; dsimp only; split <;> simp
@[simp] theorem Dev.fault3_cnts (d : Dev) (code : Nat) : (d.fault3 code).cnts = d.cnts := by
  unfold Dev.fault3; dsimp only; split <;> simp
@[simp] theorem Dev.fault3_clk (d : Dev) (code : Nat) : (d.fault3 code).clk = d.clk := by
  unfold Dev.fault3; dsimp only; split <;> simp
@[simp] theorem Dev.fault3_pmc (d : Dev) (code : Nat) : (d.fault3 code).pmc = d.pmc := by
  unfold Dev.fault3; dsimp only; split <;> simp
@[simp] theorem Dev.fault3_cc (d : Dev) (code : Nat) : (d.fault3 code).cc = d.cc := by
  unfold Dev.fault3; dsimp only; split <;> simp
@[simp] theorem Dev.fault3_sec (d : Dev) (code : Nat) : (d.fault3 code).sec = d.sec := by
  unfold Dev.fault3; dsimp only; split <;> simp
@[simp] theorem Dev.fault3_nvs (d : Dev) (code : Nat) : (d.fault3 code).nvs = d.nvs := by
  unfold Dev.fault3; dsimp only; split <;> simp
@[simp] theorem Dev.fault3_mbx (d : Dev) (code : Nat) : (d.fault3 code).mbx = d.mbx := by
  unfold Dev.fault3; dsimp only; split <;> simp
@[simp] theorem Dev.fault3_locks (d : Dev) (code : Nat) : (d.fault3 code).locks = d.locks := by
  unfold Dev.fault3; dsimp only; split <;> simp
@[simp] theorem Dev.fault3_own (d : Dev) (code : Nat) : (d.fault3 code).own = d.own := by
  unfold Dev.fault3; dsimp only; split <;> simp
@[simp] theorem Dev.fault3_pins (d : Dev) (code : Nat) : (d.fault3 code).pins = d.pins := by
  unfold Dev.fault3; dsimp only; split <;> simp
@[simp] theorem Dev.fault3_phy (d : Dev) (code : Nat) : (d.fault3 code).phy = d.phy := by
  unfold Dev.fault3; dsimp only; split <;> simp
@[simp] theorem Dev.fault3_link (d : Dev) (code : Nat) : (d.fault3 code).link = d.link := by
  unfold Dev.fault3; dsimp only; split <;> simp
@[simp] theorem Dev.fault3_swc (d : Dev) (code : Nat) : (d.fault3 code).swc = d.swc := by
  unfold Dev.fault3; dsimp only; split <;> simp
@[simp] theorem Dev.fault3_rte (d : Dev) (code : Nat) : (d.fault3 code).rte = d.rte := by
  unfold Dev.fault3; dsimp only; split <;> simp
@[simp] theorem Dev.fault3_xlt (d : Dev) (code : Nat) : (d.fault3 code).xlt = d.xlt := by
  unfold Dev.fault3; dsimp only; split <;> simp
@[simp] theorem Dev.fault3_prot (d : Dev) (code : Nat) : (d.fault3 code).prot = d.prot := by
  unfold Dev.fault3; dsimp only; split <;> simp
@[simp] theorem Dev.fault3_wq (d : Dev) (code : Nat) : (d.fault3 code).wq = d.wq := by
  unfold Dev.fault3; dsimp only; split <;> simp
@[simp] theorem Dev.fault3_trn (d : Dev) (code : Nat) : (d.fault3 code).trn = d.trn := by
  unfold Dev.fault3; dsimp only; split <;> simp
@[simp] theorem Dev.fault3_mte (d : Dev) (code : Nat) : (d.fault3 code).mte = d.mte := by
  unfold Dev.fault3; dsimp only; split <;> simp
@[simp] theorem Dev.fault3_mbr (d : Dev) (code : Nat) : (d.fault3 code).mbr = d.mbr := by
  unfold Dev.fault3; dsimp only; split <;> simp
@[simp] theorem Dev.fault3_hsw (d : Dev) (code : Nat) : (d.fault3 code).hsw = d.hsw := by
  unfold Dev.fault3; dsimp only; split <;> simp
@[simp] theorem Dev.fault3_eng (d : Dev) (code : Nat) : (d.fault3 code).eng = d.eng := by
  unfold Dev.fault3; dsimp only; split <;> simp
@[simp] theorem Dev.fault3_pwr (d : Dev) (code : Nat) : (d.fault3 code).pwr = d.pwr := by
  unfold Dev.fault3; dsimp only; split <;> simp
@[simp] theorem Dev.fault3_col (d : Dev) (code : Nat) : (d.fault3 code).col = d.col := by
  unfold Dev.fault3; dsimp only; split <;> simp
@[simp] theorem Dev.fault3_inj (d : Dev) (code : Nat) : (d.fault3 code).inj = d.inj := by
  unfold Dev.fault3; dsimp only; split <;> simp
@[simp] theorem Dev.fault3_mem (d : Dev) (code : Nat) : (d.fault3 code).mem = d.mem := by
  unfold Dev.fault3; dsimp only; split <;> simp
@[simp] theorem Dev.fault3_wr (d : Dev) (code : Nat) : (d.fault3 code).wr = d.wr := by
  unfold Dev.fault3; dsimp only; split <;> simp
@[simp] theorem Dev.fault3_wipe (d : Dev) (code : Nat) : (d.fault3 code).wipe = d.wipe := by
  unfold Dev.fault3; dsimp only; split <;> simp
@[simp] theorem Dev.fault3_out (d : Dev) (code : Nat) : (d.fault3 code).out = d.out := by
  unfold Dev.fault3; dsimp only; split <;> simp

end Sys2Proof.Machine
end

