-- ==== Sys2Proof/WellFormed.lean ====
section
/-!
DEFINITION. What a command's operands must satisfy to be one that can arrive: lengths and sizes that the operand types do not
fix.
-/

namespace Sys2Proof

/-- Sizes of an access that a host can make (R527). -/
def accessSize (n : Nat) : Bool := n == 1 || n == 2 || n == 4 || n == 8

/-- What a register write aims at: its size is one a host can make, and bytes stay within their window (R527, R530). -/
def Tgt.wf : Tgt → Bool
  | .reg off size _ => accessSize size && decide (off.toNat + size ≤ 2 ^ 25)
  | .bulk off bytes => !bytes.isEmpty && decide (off.val + bytes.length ≤ 1048576)
  | .page _ bytes => !bytes.isEmpty

/-- No number is listed twice. -/
def distinct : List Nat → Bool
  | [] => true
  | n :: ns => !ns.contains n && distinct ns

/-- What an edge measures: each region, port and lane at most once. -/
def EdgeIn.wf (e : EdgeIn) : Bool :=
  distinct (e.volts.map (·.1.val)) && distinct (e.hrTemp.map (·.1.val)) && distinct (e.dieTemp.map (·.1.val)) &&
    distinct (e.modLow.map (·.val)) && distinct (e.fom.map fun x => 4 * x.1.val + x.2.1.val) &&
    distinct (e.prbs.map fun x => 4 * x.1.val + x.2.1.val)

/-- Request words of a mailbox message: the doorbell word and at most 16 arguments (Table 15-1). -/
def requestWords (ws : List Word) : Bool := !ws.isEmpty && decide (ws.length ≤ 17)

/-- A received frame comes on at most four lanes, all of one length (R78). -/
def laneShape (lanes : List (List (BitVec 2))) : Bool :=
  decide (lanes.length ≤ 4) && lanes.all fun l => l.length == (lanes.headD []).length

/-- Well-formed commands. -/
def Instr.wf : Instr → Bool
  | .tickEdge e => e.wf
  | .linkFrameReceived _ lanes _ _ => laneShape lanes
  | .initFrameReceived _ lanes _ _ => laneShape lanes
  | .ringFetchDone _ data _ => data.length % 64 == 0
  | .contextFetchDone _ bytes _ _ => bytes.all fun bs => bs.length == 256
  | .memWr _ off _ data _ => off.toNat % 64 == 0 && data.length == 64
  | .memWrPtl _ off _ data _ _ => off.toNat % 64 == 0 && data.length == 64
  | .memRd _ off _ => off.toNat % 64 == 0
  | .tunnelTlpSend _ _ tlp => !tlp.isEmpty
  | .engPkgLoad _ pkg => pkg.costs.length == 16
  | .bootImageLoaded b => b.pkgs.all fun x => x.pkg.costs.length == 16
  | .hbmTrainingDone b => b.pkgs.all fun x => x.pkg.costs.length == 16
  | .bmcMessage _ (.request ws) => requestWords ws
  | .peerReq (.issue _ _ ws) => requestWords ws
  | .routed (.issue _ fwd _ ws) => requestWords ws && decide (fwd.length ≤ 16)
  | .readClear _ off size => accessSize size && decide (off.toNat + size ≤ 2 ^ 25)
  | .registerWrite _ tgt _ => tgt.wf
  | _ => true

end Sys2Proof
end

