-- ==== Sys2Proof/Tests/Slice0.lean ====
section
/-!
SUPPORT. Tests: commands that the checks of WellFormed refuse, the spec's worked examples, and for every obligation a state and
operands that meet the hypotheses of each of its clauses.
-/

namespace Sys2Proof.Tests

open Sys2Proof.Machine

/-! Small states and packets. -/

/-- The state after reset with its device changed by `f`. -/
def mk (f : Dev → Dev) : State := { State.reset with dev := f State.reset.dev }


/-- A tick edge at which nothing is measured. -/
def edge0 : EdgeIn :=
  { late := [], volts := [], hrTemp := [], dieTemp := [], modLow := [], fom := [], prbs := [], energy := 0,
    dispatches := 0, ccStep := 0 }

/-- A training control block whose back-channel word is of type 3 (Table 02-8), sealed with its CRC. -/
def tcb0 : BitVec 64 :=
  let w : BitVec 64 := 0xB5#64 <<< 56 ||| 15#64 <<< 46 ||| 0x3000#64 <<< 26
  w ||| BitVec.ofNat 64 (crc8 w)


/-- A good frame without cells: number `seq`, no boundary in it, acknowledging frame 65535. -/
def frame0 (seq : Nat) : List Block := frameBlocks 1#2 (linkHeader seq 65535 [] 128 0) [] []

/-- The levels of a frame sent on one lane with a scrambler of zeros. -/
def rxLanes (bs : List Block) : List (List (BitVec 2)) := [(laneLevels 0#58 bs).1]

/-- Port 3 is ACTIVE on its lane 0, and expects frame 7. -/
def rxState : State := mk fun d =>
  ((((d.setFld F.PHY_STATUS_STATE 3 4).setFld F.PHY_STATUS_ACTIVE_LANES 3 1).setFld F.LNK_STATUS_STATE 3 2).setFld
    F.LNK_SEQ_RX_NEXT 3 7)

/-- The first block of an init frame (Table 03-3). -/
def initHead : BitVec 64 := BitVec.ofNat 64 (0xB6 * 2 ^ 56 + 128 * 2 ^ 40 + 0x3000 * 2 ^ 24)

/-- An init record of port 9 of device 5, epoch 2, that gives 9 cells to every virtual channel (Table 03-4). -/
def initRec : List Byte :=
  [1#8, 9#8, 2#8, 0#8, 5#8, 0#8, 0#8, 0#8] ++ List.replicate 8 0#8 ++ (List.range 12).flatMap (fun _ => [9#8, 0#8, 0#8, 0#8])

/-- An init frame with that record. -/
def initFrame : List Block := frameBlocks 2#2 initHead initRec []

/-- Port 3 waits for its first init record. -/
def initState : State := mk fun d =>
  let d := (((d.setFld F.PHY_STATUS_STATE 3 3).setFld F.PHY_STATUS_STAGE 3 9).setFld F.PHY_STATUS_ACTIVE_LANES 3 1).setFld
    F.LNK_STATUS_STATE 3 1
  { d with link := [(3, { LinkPort.reset with claimed := true, sendInit := true })] }


/-- An SCT_DATA packet of class 2 to endpoint 3 of device 5, without payload. -/
def pk0 : Pkt :=
  { h0 := BitVec.ofNat 64 (2 ^ 62 + 2 * 2 ^ 60 + 2 ^ 44 + 163), h1 := 0#64, h2 := 0#64, h3 := 0#64, data := [], e2e := 0#32,
    aux := 0#24, tflags := 0#8 }

/-- That packet queued from internal port 132 for internal port 130. -/
def qp0 : QPkt := { pkt := pk0, inp := 132, out := 130, cls := 3, enq := 5, part := 1, ivc := 0, tick := 0 }


/-- Powered, out of reset, with boot complete and the control complex running. -/
def on (d : Dev) : Dev :=
  { d.setFld F.GLB_CC_STATUS_STATE 0 0 with pins := { d.pins with sysRst := false, pwrgood := true }, sec := { d.sec with step := 6 } }

/-- A running device changed by `f`. -/
def mkOn (f : Dev → Dev) : State := mk fun d => f (on d)

/-- A packet whose cells have all crossed to staging. -/
def arrived (p : Pkt) : StPkt := { q := { qp0 with pkt := p }, arrived := p.cells, started := false }

/-- A packet with its end-to-end check. -/
def sealed (p : Pkt) : Pkt := { p with e2e := p.e2eOf }

/-- A bare packet of a kind, with word TA, word TB and payload. -/
def bareOf (kind : Nat) (ta tb : BitVec 64) (data : List Byte) : Pkt :=
  { h0 := BitVec.ofNat 64 (2 ^ 62 + 3 * 2 ^ 60 + kind * 2 ^ 44 + (9 * 32 + 31) * 2 ^ 22 + 5 * 32 + 31), h1 := BitVec.ofNat 64 (data.length * 2 ^ 52),
    h2 := ta, h3 := tb, data := data, e2e := 0#32, aux := 0#24, tflags := 0#8 }

/-- The same with its check. -/
def pkOf (kind : Nat) (ta tb : BitVec 64) (data : List Byte) : Pkt := sealed (bareOf kind ta tb data)


/-- A digest built at tick 12. -/
def dg0 : Pkt := pkOf 0x11 77#64 (BitVec.ofNat 64 (2 ^ 40 + 2 ^ 39 + 12)) []

/-- A ROUTED request with three hops, of which one is done; the next goes out of port 7. -/
def rt0 : Pkt := bareOf 0x11 0#64 (BitVec.ofNat 64 (5 * 2 ^ 40 + 2 ^ 39))
  ([3#8, 1#8] ++ List.replicate 6 0#8 ++ [2#8, 7#8] ++ List.replicate 98 0#8)


/-- A PEER_REQ of term 3 with SEQ 2 and one word, and a PEER_RESULT for SEQ 2. -/
def pr0 : Pkt := pkOf 0x11 (BitVec.ofNat 64 (3 * 2 ^ 32)) (BitVec.ofNat 64 (2 * 2 ^ 40)) [1#8, 0#8, 2#8, 0#8, 9#8, 0#8, 0#8, 0#8]
def ps0 : Pkt := pkOf 0x11 0#64 (BitVec.ofNat 64 (3 * 2 ^ 40)) [2#8, 0#8, 0#8, 0xE0#8]


/-- An SCT_CTRL packet for connection 12 from endpoint 1 of device 9: SUBKIND, INCARN, ARG and payload. -/
def ctl (sub inc arg : Nat) (data : List Byte) : Pkt :=
  sealed { h0 := BitVec.ofNat 64 (2 ^ 62 + 3 * 2 ^ 60 + 3 * 2 ^ 44 + (9 * 32 + 1) * 2 ^ 22 + 5 * 32),
           h1 := BitVec.ofNat 64 (data.length * 2 ^ 52 + 12), h2 := BitVec.ofNat 64 (sub * 2 ^ 56 + inc * 2 ^ 48 + arg), h3 := 0#64,
           data := data, e2e := 0#32, aux := 0#24, tflags := 0#8 }

/-- An OPEN for endpoint 0: number 5, incarnation 2. -/
def open0 : Pkt := ctl 0x10 0 0 ([5#8, 0#8, 0#8, 2#8] ++ List.replicate 12 0#8)

/-- An entry with an empty descriptor. -/
def entry0 : Entry :=
  { idx := 0, desc := List.replicate 64 0#8, tick := 0, verdict := false, started := false, key := none, reserved := false,
    rdv := none, rts := false, retried := false, done := none }

/-- Endpoint 0 is listened on with queues 6 and 7; queue 7 is an ACTIVE receive queue with one NOTIFY taken. -/
def openState : State := mkOn fun d =>
  let d := (d.setFld F.WQ_Q_STATUS_STATE 7 1).setFld F.WQ_Q_CFG_KIND 7 2
  { d with
    trn := { d.trn with listen := [{ handle := 1, ep := 0, sq := 6, rq := 7, arg := 0#64, fn := 4099 }] }
    wq := [(7, { Queue.reset with taken := [{ entry0 with desc := 0x11#8 :: List.replicate 63 0#8 }] })]
    swc := { d.swc with stage := [(130, [arrived open0])] } }

/-- A PUT of `data` to offset 16 of region 2 on connection 12, PSN 7. -/
def put0 (data : List Byte) : Pkt := Pkt.make 1 0 (9 * 32 + 1) (5 * 32) 12 7 (sctWord 1 0 false false 3 1 2) 16 data 0 false false false

/-- The version of protection entry 2: a region of domain 4 and context 1 over addresses from 0x2000. -/
def prot2 : ProtVer :=
  { from_ := 0, owner := F.XLT_RGN_OWNER_PD.put 1#32 4, base := 0x2000, len := 4096, parent := 0#32,
    attr := F.XLT_RGN_ATTR_RIGHTS.put (F.XLT_RGN_ATTR_GEN.put (F.XLT_RGN_ATTR_EN.put 0#32 1) 1) 8 }

def putRegion : Region := { ver := prot2, xctx := prot2.xctx, base := 0x2000, staging := false }

/-- A leaf of context 1 that sends the page at 0x2000 to 0x5000 of hierarchy 3. -/
def leaf0 : XEnt := { ctx := prot2.xctx, level := 0, va := 0x2000, ent := 0x500D#64, locked := false, used := 0 }

/-- Connection 12 is READY and expects PSN 7. -/
def putState (data : List Byte) : State := mkOn fun d =>
  let d := ((d.setFld F.XLT_CTX_STATUS_STATE prot2.xctx 1).setFld F.XLT_CTX_CFG_HIER prot2.xctx 3)
  { d with
    trn := { d.trn with conns := [(12, { Conn.reset with state := 2, inc := 3, peerEp := 9 * 32 + 1, epsn := 7, pd := 4 })] }
    prot := { d.prot with ents := [(2, [prot2])] }
    xlt := { d.xlt with cache := [leaf0] }
    swc := { d.swc with stage := [(130, [arrived (put0 data)])] } }

/-- An acknowledgement of PSN 6 for connection 12. -/
def ack0 : Pkt := Pkt.make 2 0 (9 * 32 + 1) (5 * 32) 12 6 (BitVec.ofNat 64 (3 * 2 ^ 16)) 0 [] 0 false false false

/-- The answer to an atomic of connection 12 that was sent as PSN 5 for entry 4 of queue 6, which is HELD. -/
def atom0 : Pkt := Pkt.make 1 0 (9 * 32 + 1) (5 * 32) 12 5 (sctWord 6 0 false false 3 0 0) 0 [8#8, 0#8, 0#8, 0#8, 0#8, 0#8, 0#8, 1#8] 0 false false false
def atomOp : Op := { Op.blank (.entry 6 4) 4 with nsent := 1, first := 5, len := 8 }
def atomEntry : Entry := { entry0 with idx := 4, started := true }
def atomState : State := mkOn fun d =>
  { d.setFld F.WQ_Q_STATUS_STATE 6 2 with
    trn := { d.trn with conns := [(12, { Conn.reset with state := 2, inc := 3, peerEp := 9 * 32 + 1, sndUna := 5, sndNxt := 6, ops := [atomOp] })] }
    wq := [(6, { Queue.reset with taken := [atomEntry] })]
    swc := { d.swc with stage := [(130, [arrived atom0])] } }



/-- 4,096 protection entries are staged. -/
def fullState : State := mkOn fun d =>
  { d.setFld F.XLT_RGN_SEL_INDEX 4224 5 with
    clk := { d.clk with staged := List.replicate 4096 { due := none, fn := 0, act := .prot 5 prot2 } } }

theorem full_protSlots : 4096 ≤ fullState.dev.protSlots := by
  refine Nat.le_of_eq (Eq.symm ?_)
  show List.length (List.filter _ (List.replicate 4096 _)) = 4096
  rw [List.filter_replicate_of_pos rfl, List.length_replicate]



/-- An eager message of 3 bytes of connection 12, for context 5, with slot 3. -/
def msg0 : Msg :=
  { id := 2, ctx := 5, tag := 0#64, len := 3, rts := false, src := 9, conn := 12, cookie := 0, rkey := 2, roff := 0, rgen := 1,
    data := [1#8, 2#8, 3#8], whole := true, bad := 0, slot := some 3, into := none }

/-- A RECV at place 3 for messages of tag 0 from any source, into 8 bytes of region 2. -/
def recv0 : Entry :=
  { entry0 with
    idx := 3
    desc := [0x10#8] ++ List.replicate 8 0#8 ++ [0x20#8] ++ List.replicate 6 0#8 ++ [8#8, 0#8, 0#8, 0#8, 2#8] ++ List.replicate 22 0#8 ++
      [0x80#8] ++ List.replicate 20 0#8 }



/-- The region of entry 2 in domain 0, for local writes. -/
def prot3 : ProtVer := { prot2 with owner := 0#32, attr := F.XLT_RGN_ATTR_RIGHTS.put prot2.attr 2 }



/-- An allreduce of 2 INT64 elements by the first operator that adds, in fast mode; a barrier. -/
def par0 : ColPar := { cop := 0, dtype := 3, rop := 0, mode := 0, countm1 := 0 }
def barPar : ColPar := { cop := 3, dtype := 0, rop := 0, mode := 0, countm1 := 0 }

/-- Child 3 offers block 0 with the value 7. -/
def offer0 : ColOffer := { inp := 3, block := 0, cells := 1, data := [7#8, 0#8, 0#8, 0#8, 0#8, 0#8, 0#8, 0#8] }

/-- The operation, with or without that offer beside the value 5 of child 4. -/
def colOp0 (on : Bool) : ColOp :=
  { ColOp.new 0 4 with par := some par0, offers := if on then [offer0] else [], acc := if on then [(0, ([4], [⟨5, 0⟩]))] else [] }
def barOp : ColOp := { ColOp.new 0 4 with par := some barPar, closed := true }

/-- Group 2 has the children 3, 4 and 5; a fast block costs 2 of a grant of 9. -/
def colState0 (on : Bool) : State := mkOn fun d =>
  { (((d.setReg .COL_GRP_CHILD 8 0x38#32).setFld F.COL_GRP_STATUS_STATE 2 2).setFld F.COL_GRP_CFG_PARENT 2 9).setFld
      F.PWR_COST_COST 3 2 with
    pwr := { d.pwr with cap := [(0, 9)], grant := [(3, 9)] }
    col := { d.col with grps := [(2, { base := 0, ops := [colOp0 on], tail := [], posted := [] })] } }

/-- A packet of the tree that came in through a port. -/
def treePkt (kind port : Nat) (ta tb : Nat) (data : List Byte) : StPkt :=
  let p := Pkt.make kind 1 31 (5 * 32 + 31) 2 0 (BitVec.ofNat 64 ta) tb data 0 false false true
  { q := { qp0 with pkt := p, inp := port }, arrived := p.cells, started := false }

def upPkt : StPkt := treePkt 8 3 (3 * 2 ^ 35) (2 ^ 16) offer0.data
def endPkt : StPkt := treePkt 9 9 (2 ^ 56 + 3 * 2 ^ 38) 0 []

/-- WINDOW (1) or FAIL (2), with the argument 20. -/
def ctlPkt (sub : Nat) : StPkt := treePkt 0xA 9 (sub * 2 ^ 56) (20 * 2 ^ 24) []

def put (s : State) (q : Nat) (x : StPkt) : State := { s with dev := { s.dev with swc := { s.dev.swc with stage := [(q, [x])] } } }
def colState1 : State := put (colState0 false) 152 upPkt
def colState2 : State :=
  let s := put (colState0 false) 152 endPkt
  { s with dev := { s.dev with col := { s.dev.col with grps := [(2, { base := 0, ops := [barOp], tail := [], posted := [] })] } } }
def colState3 (sub : Nat) : State := put (colState0 false) 159 (ctlPkt sub)



/-- A valid, writable extent of path set 1. -/
def dir0 : DirEnt := { flags := 3, pset := 1, gen := 4, key := 7, offset := 0x1000 }

/-- A leaf of context 6 that sends the page at 0x2000 to 0x5000 of the pool. -/
def poolLeaf : XEnt := { ctx := 6, level := 0, va := 0x2000, ent := 0x50CD#64, locked := false, used := 0 }

/-- A read of hierarchy 3 that waits for its line. -/
def brRead0 : BrReq :=
  { id := 5, hier := 3, write := false, off := 0x2000, tag := 9, runs := [], poison := false, stage := 3, pool := 0x5000, ent := none,
    conn := 0, left := 0, at_ := 0, told := false }

/-- The bridge of hierarchy 3 is ACTIVE with a window of 1 GiB; slots 0 and 1 of path set 1 hold the READY connections `ns`. -/
def brDev (ns : List Nat) (d : Dev) : Dev :=
  let d := ((d.setFld F.MBR_HIER_STATUS_STATE 3 1).setFld F.MBR_HIER_CTX_XCTX 3 6).setFld F.XLT_CTX_STATUS_STATE 6 1
  let d := (d.setFld F.MBR_DIR_LO_LOG 0 10).setFld F.XLT_CTX_CFG_KIND 6 2
  let d := (List.range ns.length).foldl (fun d i => d.setReg .MBR_PSET_CONN (4 + i) (BitVec.ofNat 32 (2 ^ 31 + ns.getD i 0))) d
  { d with trn := { d.trn with conns := ns.map fun n => (n, { Conn.reset with state := 2, localEp := 24 }) } }

/-- It has the extent in its directory cache and the page in the translation cache. -/
def brState0 : State := mkOn fun d =>
  let d := brDev [12] d
  { d with mbr := { d.mbr with dir := [(0, dir0)], shown := [(3, 1)] }, xlt := { d.xlt with cache := [poolLeaf] } }

/-- One request is outstanding. -/
def brWith (r : BrReq) : State := mkOn fun d => { brDev [12] d with mbr := { d.mbr with reqs := [r] } }

/-- The directory entry of extent 0 stands in HBM. -/
def dirState : State :=
  let s := brWith { brRead0 with stage := 2 }
  { s with dev := { s.dev with mem := (dir0.body 0 ++ dir0.commit 0).mapIdx fun i b => (Space.hbm.base + i, b) } }

/-- A read went out on connection 12, and a notice has reached that connection; path set 1 holds 12 and 13. -/
def repathState : State := mkOn fun d =>
  { brDev [12, 13] d with
    mbr := { d.mbr with reqs := [{ brRead0 with stage := 3, conn := 12, ent := some dir0 }], repath := [(12, 0)] } }



/-- Host-lane ports with the role UPSTREAM for a hierarchy. -/
def hswState (ps : List (Nat × Nat)) (f : Dev → Dev) : State := mkOn fun d =>
  let d := f d
  { d with hsw := { d.hsw with port := ps.map fun p => (p.1, F.HSW_PORT_CFG_ROLE.put (F.HSW_PORT_CFG_HIER.put 0#32 p.2) 1) } }

/-- A record of 3 bytes stands in area 1 of the staging region of tunnel 2, and its immediate has committed. -/
def tunState0 : State := mkOn fun d =>
  { d with
    hsw := { d.hsw with tuns := [(2, { Tun.reset with imms := [2 ^ 30 + 16], base := 0x10000 })] }
    mem := (tunBytes 0 0 [1#8, 2#8, 3#8]).mapIdx fun i b => (Space.hbm.base + 0x20000 + i, b) }



/-- Channel 4099, whose function is at L0, holds a request with these words; firmware owns the pages of its bulk window. -/
def asks (ws : List Nat) (d : Dev) : Dev :=
  let d := (d.setFld F.MBX_RESULT_STATE 4099 1).setReg .MBX_ROOT_MASK 0 8#32
  let d := (List.range 8).foldl (fun (d : Dev) i => d.setReg .MBX_BULK_OWN (8 * 4099 + i) (~~~0#32)) d
  { d with mbx := { d.mbx with req := [(4099, ws.map (BitVec.ofNat 32))] } }

/-- The same with the function at L1; hierarchy 3 has one virtual function, 20. -/
def asksL1 (ws : List Nat) (d : Dev) : Dev :=
  let d := (asks ws d).setReg .MBX_ROOT_MASK 0 0#32
  { d with own := { d.own with vfHier := [(20, 3)] } }

/-- A request on the channel of virtual function 20. -/
def asksVf (ws : List Nat) (d : Dev) : Dev :=
  let d := d.setFld F.MBX_RESULT_STATE 20 1
  { d with mbx := { d.mbx with req := [(20, ws.map (BitVec.ofNat 32))] }, own := { d.own with vfHier := [(20, 3)] } }

/-- An image of a kind that passes every check. -/
def image0 (kind : Nat) : Image :=
  { readOk := true, magicOk := true, format := 1#8, kind := BitVec.ofNat 8 kind, svn := 3#8, flags := 0#8, version := 0x102#32,
    length := 4096#32, cpWrite := 2#16, cpReadMin := 1#16, keyUnnasOk := true, sigUnnasOk := true, custPk := [],
    sigCustOk := true, digestOk := true }

/-! WellFormed: one ill-formed command for each check, which the check refuses. -/

/-- An image that failed its read. -/
def imageBad : Image := { image0 0 with readOk := false }

theorem test_wf_edge_volts : Instr.wf (.tickEdge { edge0 with volts := [(3, 900), (3, 880)] }) = false := by decide
theorem test_wf_edge_hrTemp : Instr.wf (.tickEdge { edge0 with hrTemp := [(3, 40), (3, 41)] }) = false := by decide
theorem test_wf_edge_dieTemp : Instr.wf (.tickEdge { edge0 with dieTemp := [(1, 40), (1, 41)] }) = false := by decide
theorem test_wf_edge_modLow : Instr.wf (.tickEdge { edge0 with modLow := [7, 7] }) = false := by decide
theorem test_wf_edge_fom : Instr.wf (.tickEdge { edge0 with fom := [(7, 1, 9#8), (7, 1, 8#8)] }) = false := by decide
theorem test_wf_edge_prbs : Instr.wf (.tickEdge { edge0 with prbs := [(7, 1, 9), (7, 1, 8)] }) = false := by decide
theorem test_wf_lanes : Instr.wf (.linkFrameReceived 3 [[0#2], []] 0 0) = false := by decide
theorem test_wf_init_lanes : Instr.wf (.initFrameReceived 3 [[], [], [], [], []] 0 0) = false := by decide
theorem test_wf_ring : Instr.wf (.ringFetchDone 6#16 [0#8] .ok) = false := by decide
theorem test_wf_context : Instr.wf (.contextFetchDone 12#24 [0#8] .ok []) = false := by decide
theorem test_wf_memWr : Instr.wf (.memWr 3 1#52 0#16 (List.replicate 64 0#8) false) = false := by decide
theorem test_wf_memWrPtl : Instr.wf (.memWrPtl 3 0#52 0#16 [] 0#64 false) = false := by decide
theorem test_wf_memRd : Instr.wf (.memRd 3 32#52 0#16) = false := by decide
theorem test_wf_tunnel : Instr.wf (.tunnelTlpSend 2 1 []) = false := by decide
theorem test_wf_package :
    Instr.wf (.engPkgLoad 4099 { image := imageBad, id := 1#16, version := 1#16, handlers := 1#8, costs := [], minHr := 1, queues := false, retain := (0, 0) })
      = false := by decide
/-- A package of one handler that gives no costs. -/
def bootPkgBad : BootPkg :=
  { slot := 2, pkg := { image := image0 2, id := 1#16, version := 1#16, handlers := 1#8, costs := [], minHr := 1, queues := false, retain := (0, 0) },
    hrs := 1#64, queues := [], ctx := 0#16 }

theorem test_wf_bootImage : Instr.wf (.bootImageLoaded ⟨image0 1, [bootPkgBad]⟩) = false := by decide
theorem test_wf_bootTraining : Instr.wf (.hbmTrainingDone ⟨true, [bootPkgBad]⟩) = false := by decide
theorem test_wf_bmc : Instr.wf (.bmcMessage 3#8 (.request [])) = false := by decide
theorem test_wf_peer : Instr.wf (.peerReq (.issue 9#17 1#16 (List.replicate 18 0#32))) = false := by decide
theorem test_wf_routed : Instr.wf (.routed (.issue 0 (List.replicate 17 1) 1#16 [1#32])) = false := by decide
theorem test_wf_readClear : Instr.wf (.readClear .fw 0x1FFFFFF#25 4) = false := by decide
theorem test_wf_register : Instr.wf (.registerWrite .fw (.reg 0#25 3 0#64) false) = false := by decide
theorem test_wf_bulk : Instr.wf (.registerWrite .fw (.bulk 1048575 [1#8, 2#8]) false) = false := by decide
theorem test_wf_page : Instr.wf (.registerWrite .fw (.page 0 []) false) = false := by decide
theorem test_wf_accepts : Instr.wf (.registerWrite .fw (.reg 4#25 4 1#64) false) = true := by decide

/-! The queue of commands: an empty queue idles. -/

theorem test_idle : Machine.step State.reset = .next State.reset := rfl

/-- No row of the opcode table gives bits, so no word spells a command. -/
theorem test_no_word : Sys2Proof.decodeTableWord 8 0 = none := by decide

/-! Register offsets, from the captions of the register tables. -/

/-- Table 01-9: TCK_PARENT stands at 0x000C of the TCK/PWR block, which begins at 0x0140_0000 (R39). -/
theorem test_offset_parent : Reg.addr .TCK_PARENT 0 = 0x140000C := by decide

/-! The worked example 'an exact FP64 sum' of chapter 10 (Table 10-11). -/

/-- Step 1: Z encodes -2^1000 as the descriptor 0x45_0000_0000 and limb 32. -/
theorem test_exact_encode :
    (exactOf 0 0xFE70000000000000).encode 0 =
      [0#8, 0#8, 0#8, 0#8, 0x45#8, 0#8, 0#8, 0#8, 4#8, 0#8, 0#8, 0#8, 0#8] := by decide +kernel

/-- Step 3: Y's partial is 269 bytes long and its descriptor is 0x45_FFFF_FFFF. -/
theorem test_exact_partial :
    (((exactOf 0 0xFE70000000000000).add (exactOf 0 0x11)).encode 0).length = 269 ∧
    (((exactOf 0 0xFE70000000000000).add (exactOf 0 0x11)).encode 0).take 5 = [0xFF#8, 0xFF#8, 0xFF#8, 0xFF#8, 0x45#8] := by decide +kernel

/-- Steps 4 and 5: the sum of all three rounds to 17 units of the smallest subnormal. -/
theorem test_exact_sum :
    (((exactOf 0 0xFE70000000000000).add (exactOf 0 0x11)).add (exactOf 0 0x7E70000000000000)).round 0 = 0x11 := by decide +kernel

/-- In fast mode 17 units are absorbed by -2^1000, and the sum with 2^1000 is then +0. -/
theorem test_fast_sum :
    fpAdd 0 0x11 0xFE70000000000000 = 0xFE70000000000000 ∧ fpAdd 0 0x7E70000000000000 0xFE70000000000000 = 0 := by decide +kernel

/-! The worked example 'one counter across two snapshots' of chapter 17: all groups selected. -/

theorem test_entry_count : entryCount 0x1FFF = 3140 ∧ snapStride 0x1FFF = 28672 := by decide

/-! The example of chapter 5: endpoint 0x0_9631 is endpoint 17 of device 0x04B1. -/

theorem test_endpoint : devOf 0x9631 = 0x4B1 ∧ 0x9631 % 32 = 17 := by decide

/-! Every clause of every obligation has a state and operands that meet its hypotheses together. -/

theorem test_meets_TickAdvances :
    (∃ (s : State), s.dev.inReset = false) :=
  ⟨mk id, by decide⟩

theorem test_meets_ClockSourceTaken :
    (∃ (s : State) (p : Port), s.dev.Rested ∧ s.dev.inReset = false ∧ (s.dev.inStage p.val 2 = true ∨ (s.dev.phyState p.val = 6 ∧ s.dev.phyStage p.val = 2)) ∧ s.dev.clkState = 0 ∧ s.dev.flag F.TCK_PARENT_ROOT 0 = false) ∧
    (∃ (s : State) (p : Port), s.dev.Rested ∧ s.dev.clkState = 4 ∧ s.dev.namedSource = some p.val) ∧
    (∃ (s : State) (p : Port), s.dev.Rested ∧ s.dev.clk.planned = some p.val ∧ s.dev.clockUsable p.val = true ∧ s.dev.clkState ≠ 0 ∧ s.dev.clkState ≠ 5) ∧
    (∃ (s : State), s.dev.Rested ∧ s.dev.clkState = 6 ∧ s.dev.clk.planned = none) ∧
    (∃ (s : State) (p : Port), s.dev.Rested ∧ s.dev.clkState = 5 ∧ s.dev.namedParent p.val = true ∧ s.dev.phyState p.val = 4 ∧ s.dev.clockUsable p.val = true) :=
  ⟨⟨mk fun d => (d.setFld F.PHY_STATUS_STATE 5 3).setFld F.PHY_STATUS_STAGE 5 2, 5, by decide⟩,
    ⟨mk fun d => { (d.setFld F.TCK_STATUS_CLK_STATE 0 4).setFld F.TCK_PARENT_STANDBY 0 9 with clk := { d.clk with live := [9] } }, 9, by decide⟩,
    ⟨mk fun d => { d.setFld F.TCK_STATUS_CLK_STATE 0 1 with clk := { d.clk with live := [9], planned := some 9 } }, 9, by decide⟩,
    ⟨mk fun d => d.setFld F.TCK_STATUS_CLK_STATE 0 6, by decide⟩,
    ⟨mk fun d => { ((d.setFld F.TCK_STATUS_CLK_STATE 0 5).setFld F.TCK_PARENT_PARENT 0 7).setFld F.PHY_STATUS_STATE 7 4 with clk := { d.clk with live := [7] } }, 7, by decide⟩⟩

theorem test_meets_ClockSourceLost :
    (∃ (s : State), s.dev.Rested ∧ (s.dev.clkState = 2 ∨ s.dev.clkState = 3)) ∧
    (∃ (s : State), s.dev.clkState = 4 ∧ s.dev.namedSource = none ∧ s.dev.flag F.TCK_PARENT_REF_OK 0 = false ∧ s.dev.clk.holdoverAt + 78125 ≤ s.dev.clk.edges) :=
  ⟨⟨mk fun d => { (d.setFld F.TCK_STATUS_CLK_STATE 0 2).setFld F.TCK_PARENT_ACTIVE 0 9 with clk := { d.clk with live := [9], edges := 100 } }, by decide⟩,
    ⟨mk fun d => { d.setFld F.TCK_STATUS_CLK_STATE 0 4 with clk := { d.clk with edges := 78125 } }, by decide⟩⟩

theorem test_meets_TickHoldAndMeasures :
    (∃ (s : State) (h : Fin 24), s.dev.Rested ∧ s.dev.inReset = false ∧ s.dev.level (.pf h) ≤ 1) ∧
    (∃ (s : State) (src : Src) (e : Nat), s.dev.Rested ∧ Tbl.get s.dev.clk.holdAt src.fn = some e ∧ e + 65536 ≤ s.dev.clk.edges) ∧
    (∃ (s : State) (p : Port), s.dev.Rested ∧ s.dev.inReset = false ∧ s.dev.phyState p.val = 4) ∧
    (∃ (s : State) (h : Hedge) (l : Nat) (n : Nat), s.dev.Rested ∧ Tbl.get s.dev.clk.floor h.val = some (l, some n) ∧ n + 1024 ≤ s.dev.clk.edges) ∧
    (∃ (s : State) (u : Fin 10), s.dev.Rested ∧ s.dev.inReset = false ∧ s.dev.leftOver u.val = true ∧ u.val ∉ s.dev.clk.deferred) ∧
    (∃ (s : State) (src : Src), s.dev.Rested ∧ s.dev.inReset = false ∧ s.dev.level src = 0) ∧
    (∃ (s : State) (src : Src), s.dev.Rested ∧ s.dev.level src ≠ 0) :=
  ⟨⟨mk fun d => (d.setFld F.TCK_HOLD_HOLD 4099 1).stage 4099 false .pmcNow, 3, by decide⟩,
    ⟨mk fun d => { d with clk := { d.clk with holdAt := [(4099, 5)], edges := 70000, staged := [{ due := none, fn := 4099, act := .pmcNow }] } }, .pf 3, 5, by decide⟩,
    ⟨mk fun d => d.setFld F.PHY_STATUS_STATE 3 4, 3, by decide⟩,
    ⟨mk fun d => { d with clk := { d.clk with floor := [(4, (1, some 3))], edges := 1100 } }, 4, 1, 3, by decide⟩,
    ⟨mk fun d => { d with clk := { d.clk with late := { d.clk.late with audit := [(5, 0)] } } }, 4, by decide⟩,
    ⟨mk id, .fw, by decide⟩,
    ⟨mk id, .pf 3, by decide⟩⟩

theorem test_meets_ModulePresence :
    (∃ (s : State) (p : Port), s.dev.col.grps = [] ∧ s.dev.flag F.PHY_STATUS_PRESENT p.val = true ∧ 2 ≤ (s.dev.port p.val).highRun) ∧
    (∃ (s : State) (p : Port), s.dev.Rested ∧ s.dev.flag F.PHY_STATUS_PRESENT p.val = false ∧ 25000 ≤ (s.dev.port p.val).lowRun) ∧
    (∃ (s : State) (p : Port) (e : Nat), s.dev.Rested ∧ (s.dev.port p.val).resetAt = some e ∧ s.dev.clk.edges ≤ e + 3125000) ∧
    (∃ (s : State) (p : Port) (e : Nat), s.dev.col.grps = [] ∧ (s.dev.port p.val).resetAt = some e ∧ (s.dev.port p.val).ready = false ∧ e + 3125000 < s.dev.clk.edges ∧ s.dev.flag F.PHY_CFG_FIXED p.val = false ∧ (s.dev.phyState p.val = 2 ∨ s.dev.inStage p.val 1 = true)) ∧
    (∃ (s : State) (p : Port), s.dev.Rested ∧ (∀ k ∈ List.range 8, (s.dev.port (p.val / 8 * 8 + k)).reading = false) ∧ (((List.range 8).map fun k => p.val / 8 * 8 + k).find? s.dev.waitsRead = some p.val)) ∧
    (∃ (s : State) (p : Port), s.dev.col.grps = [] ∧ s.dev.inStage p.val 1 = true ∧ (s.dev.port p.val).reading = true) :=
  ⟨⟨mk fun d => { (d.setFld F.PHY_STATUS_PRESENT 3 1).setFld F.PHY_STATUS_STATE 3 4 with phy := [(3, { PhyPort.reset with highRun := 2, saved := [(1#32, 2#32)] })] }, 3, by decide⟩,
    ⟨mk fun d => { d with phy := [(3, { PhyPort.reset with lowRun := 25000 })] }, 3, by decide⟩,
    ⟨mk fun d => { d with phy := [(3, { PhyPort.reset with resetAt := some 0 })] }, 3, 0, by decide⟩,
    ⟨mk fun d => { d.setFld F.PHY_STATUS_STATE 3 2 with phy := [(3, { PhyPort.reset with resetAt := some 0 })], clk := { d.clk with edges := 3125001 } }, 3, 0, by decide⟩,
    ⟨mk fun d => { (d.setFld F.PHY_STATUS_STATE 3 3).setFld F.PHY_STATUS_STAGE 3 1 with phy := [(3, { PhyPort.reset with ready := true })] }, 3, by decide⟩,
    ⟨mk fun d => { (d.setFld F.PHY_STATUS_STATE 3 3).setFld F.PHY_STATUS_STAGE 3 1 with phy := [(3, { PhyPort.reset with ready := true, reading := true })] }, 3, by decide⟩⟩

theorem test_meets_BringUpAdvances :
    (∃ (s : State) (p : Port), s.dev.col.grps = [] ∧ s.dev.phyState p.val = 2 ∧ s.dev.fld F.PWR_COST_COST 2 ≤ Tbl.getD s.dev.pwr.grant 2 0 ∧ s.dev.fld F.PWR_COST_COST 2 ≤ Tbl.getD s.dev.pwr.cap (1 + p.val / 16) 0) ∧
    (∃ (s : State) (p : Port), s.dev.col.grps = [] ∧ s.dev.inStage p.val 2 = true ∧ (s.dev.port p.val).stageAt + 16 ≤ s.dev.clk.edges) ∧
    (∃ (s : State) (p : Port) (xs : List LanePhase), s.dev.col.grps = [] ∧ s.dev.inStage p.val 3 = true ∧ xs.length = 4 ∧ ((xs.all fun x => match bestCtle x.trials with | some (_, _, f) => decide (s.dev.fld F.PHY_CFG_FOM_MIN p.val ≤ f) | none => false) = true) ∧ s.dev.carried p.val = 15 ∧ s.dev.fld F.PHY_CTRL_WIDTH p.val = 0) ∧
    (∃ (s : State) (p : Port) (ms : List Nat), s.dev.col.grps = [] ∧ s.dev.inStage p.val 4 = true ∧ (∀ l ∈ List.range 4, ms.getD l 1500 < 1000 ∨ 2000 < ms.getD l 1500)) ∧
    (∃ (s : State) (p : Port) (o : List Nat), s.dev.col.grps = [] ∧ s.dev.inStage p.val 5 = true ∧ (∀ l ∈ List.range 4, (s.dev.port p.val).fit.testBit l = true → o.getD l 4 = l)) ∧
    (∃ (s : State) (p : Port) (lk : List Bool) (sk : List Nat), s.dev.col.grps = [] ∧ s.dev.inStage p.val 6 = true ∧ (∀ l ∈ List.range 4, (s.dev.port p.val).fit.testBit l = true → lk.getD l false = true) ∧ skewOk (s.dev.port p.val).fit sk = true) ∧
    (∃ (s : State) (p : Port) (xs : List Nat), s.dev.col.grps = [] ∧ s.dev.inStage p.val 7 = true ∧ (∀ l ∈ List.range 4, s.dev.tuned p.val l = true) ∧ (∀ l ∈ List.range 4, s.dev.fld F.PHY_CFG_FOM_MIN p.val ≤ ((Tbl.get (s.dev.port p.val).tune l).bind (·.top)).getD 0) ∧ (∀ l ∈ List.range 4, xs.getD l 0 ≤ s.dev.fld F.PHY_CFG_PRBS_LIMIT p.val) ∧ (s.dev.port p.val).fit = 15 ∧ (s.dev.port p.val).farFit = 15 ∧ (s.dev.port p.val).farWidth = 0 ∧ s.dev.carried p.val = 15 ∧ s.dev.fld F.PHY_CTRL_WIDTH p.val = 0) ∧
    (∃ (s : State) (p : Port), s.dev.Rested ∧ s.dev.inStage p.val 8 = true) ∧
    (∃ (s : State) (p : Port), s.dev.Rested ∧ s.dev.phyState p.val = 6 ∧ s.dev.phyStage p.val = 2 ∧ (s.dev.port p.val).stageAt + 16 ≤ s.dev.clk.edges) :=
  ⟨⟨mk fun d => { d.setFld F.PHY_STATUS_STATE 3 2 with pwr := { d.pwr with grant := [(2, 4096)], cap := [(1, 4096)] } }, 3, by decide⟩,
    ⟨mk fun d => { (d.setFld F.PHY_STATUS_STATE 3 3).setFld F.PHY_STATUS_STAGE 3 2 with clk := { d.clk with edges := 16 } }, 3, by decide⟩,
    ⟨mk fun d => (d.setFld F.PHY_STATUS_STATE 3 3).setFld F.PHY_STATUS_STAGE 3 3, 3, List.replicate 4 { trials := [(0, 200)], code := 1#8 }, by decide⟩,
    ⟨mk fun d => { (d.setFld F.PHY_STATUS_STATE 3 3).setFld F.PHY_STATUS_STAGE 3 4 with phy := [(3, { PhyPort.reset with fit := 15 })] }, 3, [500, 2500, 999, 2001], by decide⟩,
    ⟨mk fun d => { (d.setFld F.PHY_STATUS_STATE 3 3).setFld F.PHY_STATUS_STAGE 3 5 with phy := [(3, { PhyPort.reset with fit := 15 })] }, 3, [0, 1, 2, 3], by decide⟩,
    ⟨mk fun d => { (d.setFld F.PHY_STATUS_STATE 3 3).setFld F.PHY_STATUS_STAGE 3 6 with phy := [(3, { PhyPort.reset with fit := 15 })] }, 3, [true, true, true, true], [0, 64, 3, 1], by decide⟩,
    ⟨mk fun d => { (d.setFld F.PHY_STATUS_STATE 3 3).setFld F.PHY_STATUS_STAGE 3 7 with phy := [(3, { PhyPort.reset with fit := 15, farFit := 15, tune := (List.range 4).map fun l => (l, { phase := 4, preset := 3, best := 3, top := some 200, act := 3, fom := 200, told := false, doneAt := 0 }) })], clk := { d.clk with edges := 987 } }, 3, [0, 1, 0, 2], by decide⟩,
    ⟨mk fun d => (d.setFld F.PHY_STATUS_STATE 3 3).setFld F.PHY_STATUS_STAGE 3 8, 3, by decide⟩,
    ⟨mk fun d => { (d.setFld F.PHY_STATUS_STATE 3 6).setFld F.PHY_STATUS_STAGE 3 2 with clk := { d.clk with edges := 16 } }, 3, by decide⟩⟩

theorem test_meets_BringUpFails :
    (∃ (s : State) (p : Port), s.dev.col.grps = [] ∧ s.dev.phyState p.val = 3 ∧ (s.dev.port p.val).stageAt + stageLimit (s.dev.phyStage p.val) < s.dev.clk.edges ∧ (s.dev.phyStage p.val ≠ 1 ∨ (s.dev.port p.val).reading = true) ∧ (s.dev.phyStage p.val ≠ 2 ∨ s.dev.island = false ∨ s.dev.namedParent p.val = false)) ∧
    (∃ (s : State) (p : Port), s.dev.col.grps = [] ∧ (s.dev.phyState p.val = 4 ∨ s.dev.phyState p.val = 5)) ∧
    (∃ (s : State) (p : Port), s.dev.col.grps = [] ∧ s.dev.phyState p.val = 5 ∧ (s.dev.port p.val).stageAt + qsLimit (s.dev.port p.val).qsStep < s.dev.clk.edges) ∧
    (∃ (s : State) (p : Port) (e : Nat), s.dev.Rested ∧ s.dev.phyState p.val = 1 ∧ (s.dev.port p.val).restartAt = some e ∧ e + 1600 ≤ s.dev.clk.edges ∧ s.dev.flag F.PHY_CFG_AUTO_RESTART p.val = true ∧ s.dev.fld F.PHY_STATUS_REASON p.val ≠ 0x30 ∧ s.dev.fld F.PHY_STATUS_REASON p.val ≠ 0x01 ∧ s.dev.fld F.PHY_STATUS_REASON p.val ≠ 0x13 ∧ s.dev.flag F.PHY_CTRL_ENABLE p.val = true ∧ s.dev.flag F.PHY_STATUS_PRESENT p.val = true) :=
  ⟨⟨mk fun d => { (d.setFld F.PHY_STATUS_STATE 3 3).setFld F.PHY_STATUS_STAGE 3 4 with clk := { d.clk with edges := 301 } }, 3, by decide⟩,
    ⟨mk fun d => { (d.setFld F.PHY_STATUS_STATE 3 4).setFld F.LNK_STATUS_STATE 3 2 with clk := { d.clk with live := [3] } }, 3, by decide⟩,
    ⟨mk fun d => { d.setFld F.PHY_STATUS_STATE 3 5 with phy := [(3, { PhyPort.reset with qsStep := 2 })], clk := { d.clk with edges := 30 } }, 3, by decide⟩,
    ⟨mk fun d => { ((((d.setFld F.PHY_STATUS_STATE 3 1).setFld F.PHY_STATUS_REASON 3 0x12).setFld F.PHY_STATUS_PRESENT 3 1).setFld F.PHY_CTRL_ENABLE 3 1).setFld F.PHY_CFG_AUTO_RESTART 3 1 with phy := [(3, { PhyPort.reset with restartAt := some 0 })], clk := { d.clk with edges := 1600 } }, 3, 0, by decide⟩⟩

theorem test_meets_RetrainWithoutLoss :
    (∃ (s : State) (p : Port) (l : Fin 4) (code : Byte), s.dev.col.grps = [] ∧ (s.dev.headersFail p.val l.val = true ∨ code = 0#8 ∨ code = 255#8) ∧ (s.dev.phyState p.val = 4 ∨ s.dev.phyState p.val = 5) ∧ (s.dev.fld F.PHY_STATUS_ACTIVE_LANES p.val).testBit l.val = true ∧ s.dev.flag F.PHY_STATUS_SAVED p.val = true) ∧
    (∃ (s : State) (p : Port), s.dev.col.grps = [] ∧ s.dev.phyState p.val = 4 ∧ s.dev.flag F.PHY_STATUS_SAVED p.val = true ∧ (s.dev.port p.val).powered = 15) ∧
    (∃ (s : State) (p : Port) (w : BitVec 64), s.dev.col.grps = [] ∧ s.dev.phyState p.val = 3 ∧ 6 ≤ s.dev.phyStage p.val ∧ bits w 56 8 = 0xB5 ∧ bits w 0 8 = crc8 w ∧ bits w 26 16 / 2 ^ 12 % 4 = 3 ∧ bits w 26 16 / 8 % 2 = 0) ∧
    (∃ (s : State) (src : Src) (p : Port), s.dev.col.grps = [] ∧ s.dev.level src = 0 ∧ s.dev.rd .PHY_CTRL p.val = 1#32 ∧ s.dev.sec.recovery = false ∧ s.dev.phyState p.val = 4 ∧ s.dev.flag F.PHY_STATUS_SAVED p.val = true ∧ (s.dev.port p.val).powered = 15) ∧
    (∃ (s : State) (p : Port), s.dev.col.grps = [] ∧ s.dev.phyState p.val = 5) :=
  ⟨⟨mk fun d => { ((d.setFld F.PHY_STATUS_STATE 3 4).setFld F.PHY_STATUS_ACTIVE_LANES 3 15).setFld F.PHY_STATUS_SAVED 3 1 with phy := [(3, { PhyPort.reset with fit := 15 })] }, 3, 2, 255#8, by decide⟩,
    ⟨mk fun d => { (d.setFld F.PHY_STATUS_STATE 3 4).setFld F.PHY_STATUS_SAVED 3 1 with phy := [(3, { PhyPort.reset with powered := 15 })] }, 3, by decide⟩,
    ⟨mk fun d => (d.setFld F.PHY_STATUS_STATE 3 3).setFld F.PHY_STATUS_STAGE 3 7, 3, tcb0, by decide +kernel⟩,
    ⟨mk fun d => { ((d.setFld F.PHY_STATUS_STATE 3 4).setFld F.PHY_STATUS_SAVED 3 1).setReg .PHY_CTRL 3 1#32 with phy := [(3, { PhyPort.reset with powered := 15 })] }, .fw, 3, by decide⟩,
    ⟨mk fun d => { d.setFld F.PHY_STATUS_STATE 3 5 with phy := [(3, { PhyPort.reset with qsStep := 2 })] }, 3, by decide⟩⟩

theorem test_meets_PortControl :
    (∃ (s : State) (src : Src) (p : Port), s.dev.col.grps = [] ∧ s.dev.level src = 0 ∧ s.dev.sec.recovery = false ∧ s.dev.phyState p.val = 0 ∧ s.dev.rd .PHY_CTRL p.val &&& 0x80000301#32 = 0#32) ∧
    (∃ (s : State) (src : Src) (p : Port), s.dev.col.grps = [] ∧ s.dev.level src = 0 ∧ s.dev.rd .PHY_CTRL p.val = 1#32) ∧
    (∃ (s : State) (src : Src) (p : Port), s.dev.col.grps = [] ∧ s.dev.level src = 0 ∧ s.dev.sec.recovery = false ∧ s.dev.rd .PHY_CTRL p.val = 1#32 ∧ 2 ≤ s.dev.phyState p.val ∧ s.dev.phyState p.val ≠ 6 ∧ s.dev.flag F.PHY_STATUS_PRESENT p.val = true) ∧
    (∃ (s : State) (src : Src) (p : Port), s.dev.col.grps = [] ∧ s.dev.level src = 0 ∧ ((s.dev.rd .PHY_CTRL p.val = 0#32 ∧ s.dev.phyState p.val = 0) ∨ (s.dev.rd .PHY_CTRL p.val = 1#32 ∧ s.dev.sec.recovery = false))) ∧
    (∃ (s : State) (src : Src), s.dev.Rested ∧ s.dev.col.grps = [] ∧ s.dev.col.downs = [] ∧ s.dev.level src ≠ 0) :=
  ⟨⟨mk id, .fw, 3, by decide⟩,
    ⟨mk fun d => (d.setReg .PHY_CTRL 3 1#32).setFld F.PHY_STATUS_STATE 3 4, .fw, 3, by decide⟩,
    ⟨mk fun d => ((d.setReg .PHY_CTRL 3 1#32).setFld F.PHY_STATUS_STATE 3 4).setFld F.PHY_STATUS_PRESENT 3 1, .fw, 3, by decide⟩,
    ⟨mk fun d => { d.setFld F.PHY_STATUS_SAVED 3 1 with phy := [(3, { PhyPort.reset with saved := [(1#32, 2#32)] })] }, .fw, 3, by decide⟩,
    ⟨mk id, .vf 9, by decide⟩⟩

theorem test_meets_LaneAdaptation :
    (∃ (s : State) (p : Port) (w : BitVec 16), s.dev.col.grps = [] ∧ s.dev.phyState p.val = 4 ∧ s.dev.flag F.PHY_STATUS_SAVED p.val = false ∧ w.toNat / 2 ^ 12 % 4 = 0 ∧ Tbl.get (s.dev.port p.val).applied (w.toNat / 2 ^ 14) = none) ∧
    (∃ (s : State) (p : Port) (w : BitVec 16) (st : Nat), s.dev.Rested ∧ s.dev.col.grps = [] ∧ s.dev.col.downs = [] ∧ s.dev.phyState p.val = 4 ∧ w.toNat / 2 ^ 12 % 4 = 0 ∧ Tbl.get (s.dev.port p.val).applied (w.toNat / 2 ^ 14) = some (w.toNat % 256, st)) ∧
    (∃ (s : State) (p : Port) (l : Fin 4) (e : Nat) (c0 : Nat) (prev : Nat) (f0 : Nat), s.dev.Rested ∧ s.dev.phyState p.val = 4 ∧ s.dev.flag F.PHY_CFG_ADAPT p.val = true ∧ (s.dev.fld F.PHY_STATUS_ACTIVE_LANES p.val).testBit l.val = true ∧ Tbl.get (s.dev.port p.val).adapt l.val = some (e, c0, prev, f0, none) ∧ e + 1024 ≤ s.dev.clk.edges ∧ Tbl.get (s.dev.port p.val).bcOut l.val = none) ∧
    (∃ (s : State) (p : Port) (l : Fin 4), s.dev.Rested ∧ s.dev.phyState p.val = 4 ∧ 1024 ≤ Tbl.getD (s.dev.port p.val).fomLow l.val 0 ∧ l.val ∉ (s.dev.port p.val).fomRaised) :=
  ⟨⟨mk fun d => d.setFld F.PHY_STATUS_STATE 3 4, 3, 0x4512#16, by decide⟩,
    ⟨mk fun d => { d.setFld F.PHY_STATUS_STATE 3 4 with phy := [(3, { PhyPort.reset with applied := [(1, (0x12, 99))] })] }, 3, 0x4512#16, 99, by decide⟩,
    ⟨mk fun d => { ((d.setFld F.PHY_STATUS_STATE 3 4).setFld F.PHY_STATUS_ACTIVE_LANES 3 15).setFld F.PHY_CFG_ADAPT 3 1 with phy := [(3, { PhyPort.reset with adapt := [(2, 0, 5, 7, 90, none)] })], clk := { d.clk with edges := 1024 } }, 3, 2, 0, 5, 7, 90, by decide⟩,
    ⟨mk fun d => { d.setFld F.PHY_STATUS_STATE 3 4 with phy := [(3, { PhyPort.reset with fomLow := [(2, 1024)] })] }, 3, 2, by decide⟩⟩

theorem test_meets_LinkFrames :
    (∃ (s : State) (p : Port), s.dev.col.grps = [] ∧ s.dev.halted = false ∧ s.dev.phyState p.val = 4 ∧ s.dev.linkState p.val = 2 ∧ (s.dev.lnk p.val).sendInit = false ∧ (s.dev.lnk p.val).replay = none ∧ s.dev.storeFull p.val = false) ∧
    (∃ (s : State) (p : Port), s.dev.col.grps = [] ∧ s.dev.halted = false ∧ s.dev.phyState p.val = 4 ∧ s.dev.linkState p.val = 2 ∧ (s.dev.lnk p.val).sendInit = false ∧ (s.dev.lnk p.val).replay = none ∧ s.dev.storeFull p.val = true) ∧
    (∃ (s : State) (p : Port) (lanes : List (List (BitVec 2))) (ws : List (BitVec 64)), s.dev.col.grps = [] ∧ s.dev.linkState p.val = 2 ∧ (s.dev.receive p.val lanes).1 = some (1#2, ws) ∧ bits (ws.headD 0#64) 48 16 = s.dev.fld F.LNK_SEQ_RX_NEXT p.val ∧ (s.dev.lnk p.val).cells = []) ∧
    (∃ (s : State) (p : Port) (lanes : List (List (BitVec 2))) (ws : List (BitVec 64)), s.dev.col.grps = [] ∧ s.dev.linkState p.val = 2 ∧ (s.dev.receive p.val lanes).1 = some (1#2, ws) ∧ bits (ws.headD 0#64) 48 16 ≠ s.dev.fld F.LNK_SEQ_RX_NEXT p.val) :=
  ⟨⟨mk fun d => { (((d.setFld F.PHY_STATUS_STATE 3 4).setFld F.LNK_STATUS_STATE 3 2).setFld F.PHY_STATUS_ACTIVE_LANES 3 15).setFld F.LNK_SEQ_TX_NEXT 3 65535 with pins := { d.pins with sysRst := false, pwrgood := true } }, 3, by decide⟩,
    ⟨mk fun d => { (((d.setFld F.PHY_STATUS_STATE 3 4).setFld F.LNK_STATUS_STATE 3 2).setFld F.LNK_CFG_SPILL_EN 3 0).setFld F.LNK_STORE_ON_DIE 3 512 with pins := { d.pins with sysRst := false, pwrgood := true } }, 3, by decide⟩,
    ⟨rxState, 3, rxLanes (frame0 7), framePayload (linkHeader 7 65535 [] 128 0) [] [], by decide, by decide, receive_one_lane rxState.dev 3 1#2 _ [] [] (by decide) (by decide) (by decide), by decide, by decide⟩,
    ⟨rxState, 3, rxLanes (frame0 8), framePayload (linkHeader 8 65535 [] 128 0) [] [], by decide, by decide, receive_one_lane rxState.dev 3 1#2 _ [] [] (by decide) (by decide) (by decide), by decide⟩⟩

theorem test_meets_ReplayAndSession :
    (∃ (s : State) (p : Port) (n : Nat), s.dev.Rested ∧ s.dev.col.grps = [] ∧ s.dev.linkState p.val = 2 ∧ s.dev.fld F.LNK_REPLAY_TO_TIMEOUT p.val < n ∧ (s.dev.lnk p.val).store ≠ [] ∧ (s.dev.lnk p.val).replays + 1 < max 1 (s.dev.fld F.LNK_CFG_REPLAY_MAX p.val)) ∧
    (∃ (s : State) (p : Port), s.dev.col.grps = [] ∧ (s.dev.lnk p.val).fetching = true ∧ s.dev.arbWaits 1 p.val = false ∧ s.dev.arbWaits 7 p.val = false) ∧
    (∃ (s : State) (p : Port) (lanes : List (List (BitVec 2))) (ws : List (BitVec 64)), s.dev.col.grps = [] ∧ s.dev.linkState p.val = 1 ∧ s.dev.phyState p.val = 3 ∧ s.dev.rxSettled p.val = true ∧ (s.dev.lnk p.val).claimed = true ∧ (s.dev.receive p.val lanes).1 = some (2#2, ws) ∧ bits (ws.headD 0#64) 56 8 = 0xB6 ∧ bits (ws.headD 0#64) 24 16 / 2 ^ 12 % 4 = 3 ∧ bits (ws.headD 0#64) 24 16 / 8 % 2 = 0 ∧ initRecordOk (slotBytes ws 1) = true ∧ s.dev.continues p.val (slotBytes ws 1) = false) ∧
    (∃ (s : State) (p : Port), s.dev.col.grps = [] ∧ s.dev.windowEdge = true ∧ (s.dev.lnk p.val).auditAt ≠ some s.dev.clk.edges) ∧
    (∃ (s : State) (src : Src), s.dev.Rested ∧ s.dev.level src = 0) :=
  ⟨⟨mk fun d => { ((d.setFld F.LNK_STATUS_STATE 3 2).setFld F.LNK_CFG_REPLAY_MAX 3 3).setFld F.LNK_REPLAY_TO_TIMEOUT 3 500 with link := [(3, { LinkPort.reset with store := [{ seq := 65535, slotA := none, slotB := none, ret := [] }] })] }, 3, 501, by decide⟩,
    ⟨mk fun d => { d with link := [(3, { LinkPort.reset with fetching := true })] }, 3, by decide⟩,
    ⟨initState, 3, rxLanes initFrame, framePayload initHead initRec [], by decide, by decide, by decide, by decide, by decide, receive_one_lane initState.dev 3 2#2 _ initRec [] (by decide) (by decide) (by decide), by decide, by decide, by decide, by decide, by decide⟩,
    ⟨mk fun d => { d with clk := { d.clk with tick := 1024#64, prev := 1023#64 }, link := [(3, { LinkPort.reset with auditEnd := [(4, 7)] })] }, 3, by decide⟩,
    ⟨mk fun d => { d with link := [(3, { LinkPort.reset with store := [{ seq := 65535, slotA := none, slotB := none, ret := [] }] })] }, .fw, by decide⟩⟩

theorem test_meets_SwitchAccepts :
    (∃ (s : State) (p : Port) (c : List Byte) (cs : List (List Byte)), (s.dev.lnk p.val).cells = [] ∧ (s.dev.lnk p.val).slots = c :: cs ∧ idleSlot c = false ∧ framingOk (parsePkt c) c = true) ∧
    (∃ (s : State) (p : Port) (c : List Byte), (s.dev.lnk p.val).cells = [] ∧ (s.dev.lnk p.val).slots = [c] ∧ idleSlot c = false ∧ framingOk (parsePkt c) c = false ∧ (s.dev.lnk p.val).resync = false) ∧
    (∃ (s : State) (p : Port) (x : Pkt) (o : Nat), s.dev.Rested ∧ 0 < (s.dev.lnk p.val).need ∧ (s.dev.lnk p.val).need ≤ (s.dev.lnk p.val).cells.length ∧ (s.dev.lnk p.val).bad = 0 ∧ x = parsePkt (s.dev.lnk p.val).cells.flatten ∧ x.isDirect = false ∧ (s.dev.lnk p.val).hdrRoute = .deliver o ∧ 128 ≤ o) ∧
    (∃ (s : State) (p : Port) (x : Pkt) (o : Nat) (v : Nat) (nmin : Bool), s.dev.Rested ∧ 0 < (s.dev.lnk p.val).need ∧ (s.dev.lnk p.val).need ≤ (s.dev.lnk p.val).cells.length ∧ (s.dev.lnk p.val).bad = 0 ∧ x = parsePkt (s.dev.lnk p.val).cells.flatten ∧ x.isDirect = false ∧ (s.dev.lnk p.val).hdrRoute = .out o v nmin ∧ s.dev.linkState o ≠ 0) ∧
    (∃ (s : State) (p : Port) (x : Pkt), 0 < (s.dev.lnk p.val).need ∧ (s.dev.lnk p.val).need ≤ (s.dev.lnk p.val).cells.length ∧ (s.dev.lnk p.val).bad = 0 ∧ x = parsePkt (s.dev.lnk p.val).cells.flatten ∧ x.isDirect = true) ∧
    (∃ (s : State) (p : Port), 0 < (s.dev.lnk p.val).need ∧ (s.dev.lnk p.val).need ≤ (s.dev.lnk p.val).cells.length ∧ (s.dev.lnk p.val).bad = 1) ∧
    (∃ (s : State) (q : Fin 32) (x : Pkt) (rest : List (Pkt × Option Nat)) (part : Nat) (o : Nat), s.dev.Rested ∧ Tbl.getD s.dev.inj (128 + q.val) [] = (x, none) :: rest ∧ s.dev.halted = false ∧ s.dev.part.hasPort (128 + q.val) = true ∧ kindOk x.kind x.tc = true ∧ s.dev.partFor (128 + q.val) x = some part ∧ x.hops + 1 ≤ s.dev.hopMax ∧ s.dev.routeOf x none (128 + q.val) 0 = .deliver o ∧ 128 ≤ o) :=
  ⟨⟨mk fun d => { d with link := [(3, { LinkPort.reset with slots := [pk0.stamp.bytes, List.replicate 256 0#8] })] }, 3, pk0.stamp.bytes, [List.replicate 256 0#8], by decide +kernel⟩,
    ⟨mk fun d => { d with link := [(3, { LinkPort.reset with slots := [List.replicate 256 1#8] })] }, 3, List.replicate 256 1#8, by decide +kernel⟩,
    ⟨mk fun d => { d with link := [(3, { LinkPort.reset with cells := [pk0.bytes], need := 1, hdrRoute := .deliver 130 })] }, 3, parsePkt pk0.bytes, 130, by decide +kernel⟩,
    ⟨mk fun d => { d.setFld F.LNK_STATUS_STATE 7 2 with link := [(3, { LinkPort.reset with cells := [pk0.bytes], need := 1, hdrRoute := .out 7 1 false })] }, 3, parsePkt pk0.bytes, 7, 1, false, by decide +kernel⟩,
    ⟨mk fun d => { d with link := [(3, { LinkPort.reset with cells := [dg0.bytes], need := 1 })] }, 3, parsePkt dg0.bytes, by decide +kernel⟩,
    ⟨mk fun d => { d with link := [(3, { LinkPort.reset with cells := [pk0.bytes], need := 1, bad := 1 })] }, 3, by decide⟩,
    ⟨mk fun d => { ((d.setFld F.RTE_ID_VALID 0 1).setFld F.RTE_ID_DEVICE 0 5).setFld F.RTE_EP_PORT 3 130 with inj := [(132, [(pk0, none)])], pins := { d.pins with sysRst := false, pwrgood := true } }, 4, pk0, [], 1, 130, by decide +kernel⟩⟩

theorem test_meets_SwitchMatches :
    (∃ (s : State) (x : QPkt), s.dev.Rested ∧ s.dev.halted = false ∧ s.dev.swc.holds = [] ∧ s.dev.swc.queue = [x] ∧ x.cls ≤ 4 ∧ x.out < 160 ∧ s.dev.part.hasPort x.out = true ∧ s.dev.ready x = true) ∧
    (∃ (s : State), s.dev.Rested ∧ s.dev.swc.holds = [] ∧ s.dev.swc.queue = []) ∧
    (∃ (s : State), s.dev.Rested) :=
  ⟨⟨mk fun d => { d with swc := { d.swc with queue := [qp0] }, pins := { d.pins with sysRst := false, pwrgood := true } }, qp0, by decide⟩,
    ⟨mk id, by decide⟩,
    ⟨mk id, by decide⟩⟩

theorem test_meets_RouteTables :
    (∃ (s : State) (src : Src), s.dev.Rested ∧ s.dev.level src = 0 ∧ s.dev.flag F.RTE_TBL_STATUS_PENDING 0 = false) ∧
    (∃ (s : State) (src : Src), s.dev.Rested ∧ s.dev.level src = 0 ∧ s.dev.flag F.RTE_TBL_STATUS_PENDING 0 = true) ∧
    (∃ (s : State) (src : Src), s.dev.Rested ∧ s.dev.level src = 0 ∧ (s.dev.rd .RTE_TBL_CTRL 0).getLsbD 31 = false ∧ s.dev.flag F.RTE_TBL_STATUS_PENDING 0 = true) ∧
    (∃ (s : State) (n : Tick) (v : Nat), s.dev.Rested ∧ s.dev.rte.commit = some (n, v) ∧ n.toNat ≤ s.dev.clk.tick.toNat) ∧
    (∃ (s : State), s.dev.Rested ∧ s.dev.flag F.RTE_TBL_STATUS_COPYING 0 = true) :=
  ⟨⟨mk id, .fw, by decide⟩,
    ⟨mk fun d => d.setFld F.RTE_TBL_STATUS_PENDING 0 1, .fw, by decide⟩,
    ⟨mk fun d => { d.setFld F.RTE_TBL_STATUS_PENDING 0 1 with rte := { d.rte with commit := some (9#64, 3) } }, .fw, by decide⟩,
    ⟨mk fun d => { d.setFld F.RTE_TBL_STATUS_PENDING 0 1 with rte := { d.rte with commit := some (9#64, 3), staged := [(16384, 5#32)] }, clk := { d.clk with tick := 9#64 } }, 9#64, 3, by decide⟩,
    ⟨mk fun d => { d.setFld F.RTE_TBL_STATUS_COPYING 0 1 with rte := { d.rte with active := [(16384, 5#32)] } }, by decide⟩⟩

theorem test_meets_RoutePortsAndManagers :
    (∃ (s : State) (p : Port), s.dev.Rested ∧ s.dev.rte.removed.contains p.val = true ∧ s.dev.mayLive p.val = true ∧ s.dev.heldDown p.val = true) ∧
    (∃ (s : State) (p : Port) (x : Pkt), s.dev.Rested ∧ (s.dev.lnk p.val).inbox = [x] ∧ x.subkind = 1 ∧ Tbl.get s.dev.rte.kept p.val = none) ∧
    (∃ (s : State) (q : Fin 32) (x : StPkt), s.dev.halted = false ∧ s.dev.ccRuns = true ∧ Tbl.getD s.dev.swc.stage (128 + q.val) [] = [x] ∧ x.q.pkt.cells ≤ x.arrived ∧ x.q.pkt.kind = 0x11 ∧ x.q.pkt.isDirect = false ∧ x.q.pkt.subkind = 4 ∧ x.q.pkt.e2e = x.q.pkt.e2eOf ∧ s.dev.fld F.RTE_TERM_TERM 0 < x.q.pkt.ta 32 32) ∧
    (∃ (s : State), s.dev.Rested ∧ s.dev.flag F.RTE_ROLE_ACTIVE 0 = true ∧ (s.dev.rte.hbSent = 0 ∨ s.dev.rte.hbSent + 15625 ≤ s.dev.clk.edges)) ∧
    (∃ (s : State), s.dev.Rested ∧ s.dev.ccRuns = true ∧ s.dev.fld F.RTE_ROLE_ROLE 0 ≠ 0 ∧ s.dev.flag F.RTE_ROLE_ACTIVE 0 = false ∧ s.dev.rte.hbSeen + 312500 ≤ s.dev.clk.edges) ∧
    (∃ (s : State) (p : Port) (x : Pkt) (n : Nat) (k : Nat) (hops : Nat), s.dev.ccRuns = true ∧ (s.dev.lnk p.val).inbox = [x] ∧ x.subkind = 5 ∧ x.data.length = 108 ∧ hops = field x.data 0 1 0 8 ∧ k = field x.data 1 1 0 8 ∧ 0 < k ∧ k < hops ∧ hops ≤ 16 ∧ n = field ((x.data.set (24 + k) (BitVec.ofNat 8 p.val))) (8 + k) 1 0 8 ∧ n < 128 ∧ s.dev.linkState n = 2 ∧ (s.dev.lnk n).direct = [] ∧ 1 ≤ s.dev.avail n 9) ∧
    (∃ (s : State) (k : Fin 32) (p : Port) (ps : List Port), s.dev.ccRuns = true ∧ s.dev.peerWaits (2 ^ 17 + k.val) = false ∧ ps.length < 16 ∧ s.dev.linkState p.val = 2 ∧ (s.dev.lnk p.val).direct = [] ∧ 1 ≤ s.dev.avail p.val 9) :=
  ⟨⟨mk fun d => { d.setFld F.PHY_STATUS_STATE 3 4 with rte := { d.rte with removed := [3], upAt := [(3, 0)] }, clk := { d.clk with edges := 100000000 } }, 3, by decide⟩,
    ⟨mk fun d => { d with link := [(3, { LinkPort.reset with inbox := [dg0] })] }, 3, dg0, by decide +kernel⟩,
    ⟨mkOn fun d => { d with swc := { d.swc with stage := [(156, [arrived (pkOf 0x11 (BitVec.ofNat 64 (3 * 2 ^ 32)) (BitVec.ofNat 64 (4 * 2 ^ 40)) [])])] } }, 28, arrived (pkOf 0x11 (BitVec.ofNat 64 (3 * 2 ^ 32)) (BitVec.ofNat 64 (4 * 2 ^ 40)) []), by decide +kernel⟩,
    ⟨mk fun d => { d.setFld F.RTE_ROLE_ACTIVE 0 1 with clk := { d.clk with edges := 9 } }, by decide⟩,
    ⟨mkOn fun d => { (d.setFld F.RTE_ROLE_ROLE 0 1).setFld F.RTE_ID_VALID 0 1 with clk := { d.clk with edges := 312500 } }, by decide⟩,
    ⟨mkOn fun d => { (d.setFld F.LNK_STATUS_STATE 7 2).setFld F.LNK_VC_CREDIT_AVAIL (12 * 7 + 9) 5 with link := [(3, { LinkPort.reset with inbox := [rt0] })] }, 3, rt0, 7, 1, 3, by decide⟩,
    ⟨mkOn fun d => (d.setFld F.LNK_STATUS_STATE 7 2).setFld F.LNK_VC_CREDIT_AVAIL (12 * 7 + 9) 5, 2, 7, [9], by decide⟩⟩

theorem test_meets_ConnectionsOpen :
    (∃ (s : State) (q : Fin 32) (x : StPkt) (l : Listen) (idx : Nat) (n : Nat), s.dev.Front q x ∧ s.dev.ccRuns = true ∧ x.q.pkt.kind = 3 ∧ ctrlSub x.q.pkt = 0x10 ∧ x.q.pkt.e2e = x.q.pkt.e2eOf ∧ s.dev.trn.conns = [] ∧ (∀ t ∈ List.range 64, s.dev.tunState t = 0) ∧ field x.q.pkt.data 5 1 0 5 ≠ 24 ∧ s.dev.listenFor (field x.q.pkt.data 5 1 0 5) (BitVec.ofNat 64 (field x.q.pkt.data 8 8 0 64)) = some l ∧ s.dev.freeNotify l.rq = some idx ∧ s.dev.fld F.WQ_Q_CFG_PD l.sq = s.dev.fld F.WQ_Q_CFG_PD l.rq ∧ s.dev.allocConn.map (·.1) = some n) ∧
    (∃ (s : State) (q : Fin 32) (x : StPkt) (o : Nat), s.dev.Rested ∧ s.dev.Front q x ∧ s.dev.ccRuns = true ∧ x.q.pkt.kind = 3 ∧ ctrlSub x.q.pkt = 0x10 ∧ x.q.pkt.e2e = x.q.pkt.e2eOf ∧ s.dev.trn.conns = [] ∧ (∀ t ∈ List.range 64, s.dev.tunState t = 0) ∧ field x.q.pkt.data 5 1 0 5 ≠ 24 ∧ s.dev.listenFor (field x.q.pkt.data 5 1 0 5) (BitVec.ofNat 64 (field x.q.pkt.data 8 8 0 64)) = none ∧ s.dev.epPort 31 = some o) ∧
    (∃ (s : State) (q : Fin 32) (x : StPkt), s.dev.Front q x ∧ x.q.pkt.kind = 3 ∧ ctrlSub x.q.pkt = 0x11 ∧ x.q.pkt.e2e = x.q.pkt.e2eOf ∧ s.dev.usable x.q.pkt.conn = true ∧ s.dev.isResident x.q.pkt.conn = true ∧ (s.dev.conn x.q.pkt.conn).opening = true ∧ ctrlInc x.q.pkt = (s.dev.conn x.q.pkt.conn).inc ∧ (s.dev.conn x.q.pkt.conn).localEp ≠ 24 ∧ s.dev.tunOf x.q.pkt.conn = none) ∧
    (∃ (s : State) (q : Fin 32) (x : StPkt), s.dev.Front q x ∧ x.q.pkt.kind = 3 ∧ ctrlSub x.q.pkt = 0x12 ∧ x.q.pkt.e2e = x.q.pkt.e2eOf ∧ s.dev.usable x.q.pkt.conn = true ∧ s.dev.isResident x.q.pkt.conn = true ∧ (s.dev.conn x.q.pkt.conn).opening = true ∧ ctrlInc x.q.pkt = (s.dev.conn x.q.pkt.conn).inc ∧ (s.dev.conn x.q.pkt.conn).localEp ≠ 24 ∧ s.dev.tunOf x.q.pkt.conn = none) ∧
    (∃ (s : State) (n : BitVec 24) (o : Nat), s.dev.Rested ∧ (s.dev.conn n.toNat).opening = true ∧ (s.dev.conn n.toNat).triedAt + 1562 ≤ s.dev.clk.edges ∧ (s.dev.conn n.toNat).tries < 8 ∧ s.dev.epPort (s.dev.conn n.toNat).localEp = some o) :=
  ⟨⟨openState, 2, arrived open0, { handle := 1, ep := 0, sq := 6, rq := 7, arg := 0#64, fn := 4099 }, 0, 0, by decide +kernel⟩,
    ⟨mkOn fun d => { d.setFld F.RTE_EP_PORT 31 156 with swc := { d.swc with stage := [(130, [arrived open0])] } }, 2, arrived open0, 156, by decide +kernel⟩,
    ⟨mkOn fun d => { d with trn := { d.trn with conns := [(12, { Conn.reset with state := 1, inc := 3, chan := some 4099 })] }, swc := { d.swc with stage := [(130, [arrived (ctl 0x11 3 0 (List.replicate 8 9#8))])] } }, 2, arrived (ctl 0x11 3 0 (List.replicate 8 9#8)), by decide +kernel⟩,
    ⟨mkOn fun d => { d with trn := { d.trn with conns := [(12, { Conn.reset with state := 1, inc := 3, chan := some 4099 })] }, swc := { d.swc with stage := [(130, [arrived (ctl 0x12 3 5 [])])] } }, 2, arrived (ctl 0x12 3 5 []), by decide +kernel⟩,
    ⟨mkOn fun d => { d.setFld F.RTE_EP_PORT 0 130 with trn := { d.trn with conns := [(12, { Conn.reset with state := 1 })] }, clk := { d.clk with edges := 1562 } }, 12#24, 130, by decide⟩⟩

theorem test_meets_ConnectionsClose :
    (∃ (s : State) (q : Fin 32) (x : StPkt), s.dev.Front q x ∧ x.q.pkt.kind = 3 ∧ ctrlSub x.q.pkt = 0x13 ∧ x.q.pkt.e2e = x.q.pkt.e2eOf ∧ s.dev.usable x.q.pkt.conn = true ∧ s.dev.isResident x.q.pkt.conn = true ∧ ((s.dev.conn x.q.pkt.conn).state = 2 ∨ (s.dev.conn x.q.pkt.conn).state = 3 ∨ (s.dev.conn x.q.pkt.conn).state = 4) ∧ ctrlInc x.q.pkt = (s.dev.conn x.q.pkt.conn).inc ∧ x.q.pkt.src = (s.dev.conn x.q.pkt.conn).peerEp ∧ (s.dev.conn x.q.pkt.conn).localEp ≠ 24) ∧
    (∃ (s : State) (q : Fin 32) (x : StPkt), s.dev.Front q x ∧ x.q.pkt.kind = 3 ∧ ctrlSub x.q.pkt = 0x14 ∧ x.q.pkt.e2e = x.q.pkt.e2eOf ∧ s.dev.usable x.q.pkt.conn = true ∧ s.dev.isResident x.q.pkt.conn = true ∧ (s.dev.conn x.q.pkt.conn).closing = true ∧ ctrlInc x.q.pkt = (s.dev.conn x.q.pkt.conn).inc ∧ (s.dev.conn x.q.pkt.conn).localEp ≠ 24 ∧ (s.dev.conn x.q.pkt.conn).ops = [] ∧ (s.dev.conn x.q.pkt.conn).rcvd = [] ∧ s.dev.wq = [] ∧ s.dev.mte.resv = [] ∧ s.dev.mte.msgs = [] ∧ s.dev.mte.rdv = []) ∧
    (∃ (s : State) (n : BitVec 24), s.dev.Rested ∧ (s.dev.conn n.toNat).closing = true ∧ (s.dev.conn n.toNat).triedAt + 1562 ≤ s.dev.clk.edges ∧ (s.dev.conn n.toNat).localEp ≠ 24) :=
  ⟨⟨mkOn fun d => { d with trn := { d.trn with conns := [(12, { Conn.reset with state := 2, inc := 3, peerEp := 9 * 32 + 1 })] }, swc := { d.swc with stage := [(130, [arrived (ctl 0x13 3 0 [])])] } }, 2, arrived (ctl 0x13 3 0 []), by decide +kernel⟩,
    ⟨mkOn fun d => { d with trn := { d.trn with conns := [(12, { Conn.reset with state := 4, inc := 255 })] }, swc := { d.swc with stage := [(130, [arrived (ctl 0x14 255 0 [])])] } }, 2, arrived (ctl 0x14 255 0 []), by decide +kernel⟩,
    ⟨mkOn fun d => { d with trn := { d.trn with conns := [(12, { Conn.reset with state := 4, tries := 8 })] }, clk := { d.clk with edges := 1562 } }, 12#24, by decide⟩⟩

theorem test_meets_RequestsReceived :
    (∃ (s : State) (q : Fin 32) (x : StPkt) (r : Region), s.dev.Front q x ∧ x.q.pkt.kind = 1 ∧ x.q.pkt.isResp = false ∧ s.dev.Takes x ∧ x.q.pkt.len = 0 ∧ (s.dev.remoteCheck x.q.pkt.conn x.q.tick (s.dev.conn x.q.pkt.conn).pd x.q.pkt).toOption = some r) ∧
    (∃ (s : State) (q : Fin 32) (x : StPkt) (r : Region) (e : XEnt) (h : Nat) (va : Nat) (a : Nat), s.dev.Rested ∧ s.dev.Front q x ∧ x.q.pkt.kind = 1 ∧ x.q.pkt.isResp = false ∧ s.dev.Takes x ∧ 0 < x.q.pkt.len ∧ x.q.pkt.data.length = x.q.pkt.len ∧ (s.dev.remoteCheck x.q.pkt.conn x.q.tick (s.dev.conn x.q.pkt.conn).pd x.q.pkt).toOption = some r ∧ s.dev.Leaf e r.xctx va h a x.q.pkt.len 2 ∧ va = r.base + sctOff x.q.pkt) ∧
    (∃ (s : State) (q : Fin 32) (x : StPkt), s.dev.Rested ∧ s.dev.Front q x ∧ x.q.pkt.kind = 1 ∧ x.q.pkt.isResp = false ∧ (s.dev.usable x.q.pkt.conn = true → s.dev.isResident x.q.pkt.conn = true) ∧ x.q.pkt.e2e ≠ x.q.pkt.e2eOf) ∧
    (∃ (s : State) (n : BitVec 24), s.dev.Rested ∧ s.dev.trn.evict.contains n.toNat = true ∧ s.dev.arbWaits 5 n.toNat = false ∧ s.dev.trn.need = [] ∧ s.dev.trn.miss = []) ∧
    (∃ (s : State) (n : BitVec 24) (psn : BitVec 24) (r : Rcvd), Tbl.get (s.dev.conn n.toNat).rcvd psn.toNat = some r ∧ r.kept = true ∧ r.at_ + 262144 ≤ s.dev.clk.edges) :=
  ⟨⟨putState [], 2, arrived (put0 []), putRegion, by decide +kernel⟩,
    ⟨putState [1#8, 2#8, 3#8], 2, arrived (put0 [1#8, 2#8, 3#8]), putRegion, leaf0, 3, 0x2010, 0x5010, by decide, by decide +kernel, by decide, by decide, by decide +kernel, by decide, by decide, by decide +kernel, by decide +kernel, by decide +kernel⟩,
    ⟨mkOn fun d => { d with swc := { d.swc with stage := [(130, [arrived pk0])] } }, 2, arrived pk0, by decide +kernel⟩,
    ⟨mkOn fun d => { d with trn := { d.trn with conns := [(70000, { Conn.reset with state := 2, resident := true })], evict := [70000] } }, 70000#24, by decide⟩,
    ⟨mkOn fun d => { d with trn := { d.trn with conns := [(12, { Conn.reset with state := 2, rcvMap := 8#256, rcvd := [(3, { pkt := pk0, tick := 0, at_ := 0, synd := 0, busy := false, refused := false, kept := true, notify := none })] })] }, clk := { d.clk with edges := 262144 } }, 12#24, 3#24, { pkt := pk0, tick := 0, at_ := 0, synd := 0, busy := false, refused := false, kept := true, notify := none }, by decide⟩⟩

theorem test_meets_SendingAndAcks :
    (∃ (s : State) (n : BitVec 24) (k : Fin 1025) (o : Op) (bs : List Byte) (bad : Bool) (q : Nat), ((s.dev.conn n.toNat).state = 2 ∨ (s.dev.conn n.toNat).state = 3) ∧ (s.dev.conn n.toNat).busy = none ∧ (s.dev.conn n.toNat).resps = [] ∧ (s.dev.conn n.toNat).resend = [] ∧ (s.dev.conn n.toNat).nextNew = some o ∧ o.dataOf o.nsent = some (bs, bad) ∧ s.dev.paced (s.dev.conn n.toNat) (s.dev.cycles k.val) (o.pktSize o.nsent bs) = true ∧ ((match o.own with | .entry _ _ => true | _ => false) = false) ∧ s.dev.epPort (s.dev.conn n.toNat).localEp = some q) ∧
    (∃ (s : State) (q : Fin 32) (x : StPkt) (una : Nat), s.dev.Front q x ∧ x.q.pkt.kind = 2 ∧ x.q.pkt.e2e = x.q.pkt.e2eOf ∧ s.dev.isResident x.q.pkt.conn = true ∧ (s.dev.conn x.q.pkt.conn).ready = true ∧ (s.dev.conn x.q.pkt.conn).ops = [] ∧ x.q.pkt.ta 16 8 = (s.dev.conn x.q.pkt.conn).inc ∧ (s.dev.conn x.q.pkt.conn).absPsn x.q.pkt.psn = some una ∧ x.q.pkt.h2.getLsbD 31 = false) ∧
    (∃ (s : State) (n : BitVec 24) (ns : Nat) (q : Nat), s.dev.Rested ∧ (s.dev.conn n.toNat).acc ≠ 0 ∧ s.dev.fld F.TRN_CFG_ACK_DELAY 0 ≤ ns ∧ s.dev.epPort (s.dev.conn n.toNat).localEp = some q) ∧
    (∃ (s : State) (n : BitVec 24) (psn : BitVec 24) (g : GetJob), s.dev.Rested ∧ s.dev.halted = false ∧ s.dev.trn.gets = [g] ∧ g.conn = n.toNat ∧ g.psn = psn.toNat ∧ g.next + 1 = chunks g.len ∧ g.segs.any s.dev.segHeld = false) ∧
    (∃ (s : State) (q : Fin 32) (x : StPkt) (o : Op) (w : Nat) (i : Nat) (e : Entry), s.dev.Front q x ∧ x.q.pkt.isResp = true ∧ sctOp x.q.pkt = 6 ∧ s.dev.usable x.q.pkt.conn = true ∧ s.dev.isResident x.q.pkt.conn = true ∧ x.q.pkt.poison = false ∧ x.q.pkt.e2e = x.q.pkt.e2eOf ∧ (s.dev.conn x.q.pkt.conn).ready = true ∧ x.q.pkt.src = (s.dev.conn x.q.pkt.conn).peerEp ∧ sctInc x.q.pkt = (s.dev.conn x.q.pkt.conn).inc ∧ (s.dev.conn x.q.pkt.conn).ops = [o] ∧ o.kind = 4 ∧ o.nsent = 1 ∧ o.first % 2 ^ 24 = x.q.pkt.psn ∧ o.synd = none ∧ o.fault = 0 ∧ o.got = [] ∧ o.placing = [] ∧ o.own = .entry w i ∧ (s.dev.queue w).at_ i = some e ∧ e.done = none ∧ e.rdv = none ∧ s.dev.qState w = 2) :=
  ⟨⟨mkOn fun d => { d.setFld F.RTE_EP_PORT 0 130 with trn := { d.trn with conns := [(12, { Conn.reset with state := 2, sndNxt := 2 ^ 24, sndUna := 2 ^ 24, ops := [{ Op.blank .msg 1 with len := 3, inl := some [1#8, 2#8, 3#8] }] })] } }, 12#24, 5, { Op.blank .msg 1 with len := 3, inl := some [1#8, 2#8, 3#8] }, [1#8, 2#8, 3#8], false, 130, by decide⟩,
    ⟨mkOn fun d => { d with trn := { d.trn with conns := [(12, { Conn.reset with state := 2, inc := 3, peerEp := 9 * 32 + 1, sndUna := 5, sndNxt := 9, retry := 2 })] }, swc := { d.swc with stage := [(130, [arrived ack0])] } }, 2, arrived ack0, 7, by decide +kernel⟩,
    ⟨mkOn fun d => { d.setFld F.RTE_EP_PORT 0 130 with trn := { d.trn with conns := [(12, { Conn.reset with state := 2, acc := 2 })] } }, 12#24, 100000000, 130, by decide⟩,
    ⟨mkOn fun d => { d.setFld F.RTE_EP_PORT 0 130 with trn := { d.trn with conns := [(12, { Conn.reset with state := 2 })], gets := [{ conn := 12, psn := 7, len := 3, segs := [{ space := .host 3, addr := 4096, len := 3 }], next := 0, tick := 0, hbm := [] }] } }, 12#24, 7#24, { conn := 12, psn := 7, len := 3, segs := [{ space := .host 3, addr := 4096, len := 3 }], next := 0, tick := 0, hbm := [] }, by decide⟩,
    ⟨atomState, 2, arrived atom0, atomOp, 6, 4, atomEntry, by decide +kernel⟩⟩

theorem test_meets_RetriesAndNotices :
    (∃ (s : State) (n : BitVec 24) (k : Fin 1025) (b : Nat), (s.dev.conn n.toNat).timerBase = some b ∧ ((s.dev.conn n.toNat).state = 2 ∨ (s.dev.conn n.toNat).state = 3) ∧ (s.dev.conn n.toNat).busy = none ∧ b + (s.dev.conn n.toNat).rtoCycles ≤ s.dev.cycles k.val ∧ (s.dev.conn n.toNat).retry < (s.dev.conn n.toNat).retryMax) ∧
    (∃ (s : State) (q : Fin 32) (x : StPkt), s.dev.Front q x ∧ x.q.pkt.kind = 3 ∧ ctrlSub x.q.pkt = 1 ∧ x.q.pkt.e2e = x.q.pkt.e2eOf ∧ s.dev.usable x.q.pkt.conn = true ∧ s.dev.isResident x.q.pkt.conn = true ∧ ((s.dev.conn x.q.pkt.conn).state = 2 ∨ (s.dev.conn x.q.pkt.conn).state = 3) ∧ ctrlInc x.q.pkt = (s.dev.conn x.q.pkt.conn).inc ∧ x.q.pkt.src = (s.dev.conn x.q.pkt.conn).peerEp ∧ (s.dev.conn x.q.pkt.conn).busy = none) ∧
    (∃ (s : State) (n : BitVec 24) (e : Nat) (p : Nat), (s.dev.conn n.toNat).busy = some (e, p) ∧ e ≤ s.dev.clk.edges) ∧
    (∃ (s : State) (q : Fin 32) (x : StPkt), s.dev.Rested ∧ s.dev.Front q x ∧ x.q.pkt.kind = 0x10 ∧ field x.q.pkt.data 3 1 6 1 = 0 ∧ (s.dev.conn (field x.q.pkt.data 0 3 0 24)).free = false ∧ (s.dev.conn (field x.q.pkt.data 0 3 0 24)).failed = false ∧ (s.dev.conn (field x.q.pkt.data 0 3 0 24)).localEp ≠ 24 ∧ (s.dev.conn (field x.q.pkt.data 0 3 0 24)).localEp ≠ 31 ∧ s.dev.clk.edges + 2 ∉ (s.dev.conn (field x.q.pkt.data 0 3 0 24)).notice ∧ x.q.pkt.e2e = x.q.pkt.e2eOf) ∧
    (∃ (s : State) (n : BitVec 24) (e : Nat) (es : List Nat), (s.dev.conn n.toNat).notice = e :: es ∧ e ≤ s.dev.clk.edges) ∧
    (∃ (s : State) (n : BitVec 24) (bs : List Byte) (h : Nat) (a : Nat), s.dev.Rested ∧ s.dev.halted = false ∧ s.dev.trn.fetch.contains n.toNat = true ∧ s.dev.arbWaits 2 n.toNat = false ∧ s.dev.trn.evict.contains n.toNat = false ∧ s.dev.recordAt n.toNat = (.host h, a) ∧ s.dev.heldHier h = false ∧ recordOk n.toNat bs = true ∧ (∀ m ∈ s.dev.trn.miss, m.conn ≠ n.toNat)) :=
  ⟨⟨mkOn fun d => { d with trn := { d.trn with conns := [(12, { Conn.reset with state := 2, sndNxt := 6, sndUna := 5, retryMax := 3, rto := 20 })] }, clk := { d.clk with cycles := 100000 } }, 12#24, 5, 0, by decide⟩,
    ⟨mkOn fun d => { d with trn := { d.trn with conns := [(12, { Conn.reset with state := 2, inc := 3, peerEp := 9 * 32 + 1, sndNxt := 1, sndUna := 0 })] }, swc := { d.swc with stage := [(130, [arrived (ctl 1 3 77 [])])] } }, 2, arrived (ctl 1 3 77 []), by decide +kernel⟩,
    ⟨mkOn fun d => { d with trn := { d.trn with conns := [(12, { Conn.reset with state := 2, sndNxt := 6, sndUna := 3, busy := some (10, 4) })] }, clk := { d.clk with edges := 10 } }, 12#24, 10, 4, by decide⟩,
    ⟨mkOn fun d => { d with trn := { d.trn with conns := [(12, { Conn.reset with state := 2 })] }, swc := { d.swc with stage := [(130, [arrived (pkOf 0x10 0#64 0#64 ([12#8] ++ List.replicate 23 0#8))])] } }, 2, arrived (pkOf 0x10 0#64 0#64 ([12#8] ++ List.replicate 23 0#8)), by decide +kernel⟩,
    ⟨mkOn fun d => { d with trn := { d.trn with conns := [(12, { Conn.reset with state := 2, sndNxt := 6, sndUna := 3, notice := [10, 11] })] }, clk := { d.clk with edges := 10 } }, 12#24, 10, [11], by decide⟩,
    ⟨mkOn fun d => { d with trn := { d.trn with fetch := [12] } }, 12#24, List.replicate 256 0#8, 0, 3072, by decide +kernel⟩⟩

theorem test_meets_DoorbellsAndScans :
    (∃ (s : State) (q : BitVec 16), s.dev.Rested ∧ s.dev.halted = false ∧ (s.dev.qState q.toNat = 1 ∧ (s.dev.qKind q.toNat = 1 ∨ s.dev.qKind q.toNat = 2))) ∧
    (∃ (s : State) (q : BitVec 16), s.dev.Rested ∧ s.dev.halted = false ∧ (¬(s.dev.qState q.toNat = 1 ∧ (s.dev.qKind q.toNat = 1 ∨ s.dev.qKind q.toNat = 2)))) ∧
    (∃ (s : State) (q : BitVec 16) (data : List Byte), s.dev.Rested ∧ s.dev.halted = false ∧ s.dev.qState q.toNat = 1 ∧ s.dev.qKind q.toNat = 2 ∧ s.dev.flag F.WQ_Q_CFG_MEM q.toNat = false ∧ s.dev.queueSlot q.toNat = none ∧ (s.dev.queue q.toNat).scan = true ∧ (s.dev.queue q.toNat).rescan = false ∧ (s.dev.queue q.toNat).stall = false ∧ (s.dev.queue q.toNat).taken = [] ∧ (s.dev.queue q.toNat).kept = [] ∧ s.dev.fld F.WQ_Q_STATUS_CURSOR q.toNat + 1 < s.dev.qSize q.toNat ∧ field data 0 1 0 8 = 0x11 ∧ field data 63 1 6 2 = 1 ∧ field (data.drop 64) 63 1 6 2 = 0) ∧
    (∃ (s : State) (q : BitVec 16) (res : MemRes), s.dev.halted = false ∧ s.dev.qState q.toNat = 1 ∧ (s.dev.queue q.toNat).scan = true ∧ s.dev.flag F.WQ_Q_CFG_EQ_EN q.toNat = false ∧ res ≠ .ok) ∧
    (∃ (s : State) (q : BitVec 16) (e : Entry), s.dev.Rested ∧ s.dev.halted = false ∧ s.dev.qState q.toNat = 1 ∧ s.dev.queueSlot q.toNat = none ∧ (s.dev.queue q.toNat).taken = [e] ∧ e.started = false ∧ e.done = none ∧ e.opc = 4 ∧ (s.dev.conn e.conn).ready = true ∧ s.dev.isResident e.conn = true ∧ (s.dev.conn e.conn).ops = []) ∧
    (∃ (s : State) (q : BitVec 16) (e : Entry), s.dev.Rested ∧ s.dev.halted = false ∧ s.dev.qState q.toNat = 1 ∧ s.dev.queueSlot q.toNat = none ∧ (s.dev.queue q.toNat).taken = [e] ∧ e.started = false ∧ e.done = none ∧ e.onConn = true ∧ s.dev.isResident e.conn = false ∧ s.dev.trn.fetch.contains e.conn = false ∧ s.dev.trn.need = [] ∧ s.dev.slotsUsed < 65536) ∧
    (∃ (s : State) (c : BitVec 24) (id : Nat) (k : Nat) (data : List Byte) (o : Op) (h : Nat) (a : Nat), s.dev.Rested ∧ s.dev.halted = false ∧ (s.dev.conn c.toNat).ops = [o] ∧ o.id = id ∧ Tbl.get o.reading k = some (some [⟨.host h, a, data.length⟩]) ∧ s.dev.heldHier h = false) :=
  ⟨⟨mkOn fun d => (d.setFld F.WQ_Q_STATUS_STATE 7 1).setFld F.WQ_Q_CFG_KIND 7 2, 7#16, by decide⟩,
    ⟨mkOn fun d => (d.setFld F.WQ_Q_STATUS_STATE 7 4).setFld F.WQ_Q_CFG_KIND 7 2, 7#16, by decide⟩,
    ⟨mkOn fun d => { ((d.setFld F.WQ_Q_STATUS_STATE 7 1).setFld F.WQ_Q_CFG_KIND 7 2).setFld F.WQ_Q_CFG_LOG_SIZE 7 6 with wq := [(7, { Queue.reset with scan := true })] }, 7#16, 0x11#8 :: List.replicate 62 0#8 ++ [0x40#8], by decide⟩,
    ⟨mkOn fun d => { (d.setFld F.WQ_Q_STATUS_STATE 7 1).setFld F.WQ_Q_CFG_KIND 7 2 with wq := [(7, { Queue.reset with scan := true })] }, 7#16, .timeout, by decide⟩,
    ⟨mkOn fun d => { d.setFld F.WQ_Q_STATUS_STATE 6 1 with trn := { d.trn with conns := [(12, { Conn.reset with state := 2 })] }, wq := [(6, { Queue.reset with taken := [{ entry0 with desc := [4#8, 0#8, 0#8, 0#8, 12#8] ++ List.replicate 59 0#8 }] })] }, 6#16, { entry0 with desc := [4#8, 0#8, 0#8, 0#8, 12#8] ++ List.replicate 59 0#8 }, by decide⟩,
    ⟨mkOn fun d => { d.setFld F.WQ_Q_STATUS_STATE 6 1 with wq := [(6, { Queue.reset with taken := [{ entry0 with desc := [1#8, 0#8, 0#8, 0#8, 0#8, 0#8, 2#8] ++ List.replicate 57 0#8 }] })] }, 6#16, { entry0 with desc := [1#8, 0#8, 0#8, 0#8, 0#8, 0#8, 2#8] ++ List.replicate 57 0#8 }, by decide⟩,
    ⟨mkOn fun d => { d with trn := { d.trn with conns := [(12, { Conn.reset with state := 2, ops := [{ Op.blank (.entry 6 4) 1 with len := 2, reading := [(0, some [⟨.host 3, 0x5000, 2⟩])] }] })] } }, 12#24, 0, 0, [1#8, 2#8], { Op.blank (.entry 6 4) 1 with len := 2, reading := [(0, some [⟨.host 3, 0x5000, 2⟩])] }, 3, 0x5000, by decide⟩⟩

theorem test_meets_EventQueues :
    (∃ (s : State) (q : BitVec 16) (ns : Nat) (eq : Nat) (a : Nat), s.dev.Rested ∧ s.dev.halted = false ∧ eq = s.dev.fld F.WQ_Q_BIND_EQ q.toNat ∧ eq ≠ q.toNat ∧ s.dev.flag F.WQ_Q_CFG_EQ_EN q.toNat = true ∧ s.dev.fld F.WQ_EQ_COAL_DELAY eq ≠ 0 ∧ s.dev.fld F.WQ_EQ_COAL_DELAY eq ≤ ns ∧ (s.dev.queue q.toNat).pend ≠ 0 ∧ (s.dev.queue q.toNat).pend < 2 ^ 32 ∧ s.dev.qKind eq = 3 ∧ s.dev.qState eq = 1 ∧ s.dev.flag F.WQ_Q_STATUS_OVF eq = false ∧ s.dev.eqFull eq = false ∧ a = (s.dev.qSpace eq).base + s.dev.qAddr eq (s.dev.eqPos eq % s.dev.qSize eq)) ∧
    (∃ (s : State) (q : BitVec 16), s.dev.Rested ∧ s.dev.halted = false ∧ s.dev.qKind q.toNat = 3) ∧
    (∃ (s : State) (q : BitVec 16), s.dev.Rested ∧ s.dev.halted = false ∧ s.dev.qKind q.toNat = 3 ∧ s.dev.boundTo q.toNat = []) ∧
    (∃ (s : State) (q : BitVec 16), s.dev.Rested ∧ s.dev.halted = false ∧ s.dev.qKind q.toNat = 3) :=
  ⟨⟨mkOn fun d => { ((((d.setFld F.WQ_Q_STATUS_STATE 9 1).setFld F.WQ_Q_CFG_KIND 9 3).setFld F.WQ_Q_BIND_EQ 7 9).setFld F.WQ_Q_CFG_EQ_EN 7 1).setFld F.WQ_EQ_COAL_DELAY 9 100 with wq := [(7, { Queue.reset with pend := 5 })] }, 7#16, 100, 9, 24 * 2 ^ 60, by decide⟩,
    ⟨mkOn fun d => ((d.setFld F.WQ_Q_STATUS_STATE 9 1).setFld F.WQ_Q_CFG_KIND 9 3).setFld F.WQ_Q_STATUS_CURSOR 9 1, 9#16, by decide⟩,
    ⟨mkOn fun d => ((d.setFld F.WQ_Q_STATUS_STATE 9 1).setFld F.WQ_Q_CFG_KIND 9 3).setFld F.WQ_Q_STATUS_OVF 9 1, 9#16, by decide⟩,
    ⟨mkOn fun d => ((d.setFld F.WQ_Q_STATUS_STATE 9 1).setFld F.WQ_Q_CFG_KIND 9 3).setFld F.WQ_Q_STATUS_CURSOR 9 1, 9#16, by decide⟩⟩

theorem test_meets_QueueStates :
    (∃ (s : State) (src : Src) (v : Word) (q : Nat), s.dev.Rested ∧ s.dev.level src ≠ 3 ∧ s.dev.selValid src.fn .WQ_SEL = true ∧ q = s.dev.fld F.WQ_SEL_QUEUE src.fn ∧ v.getLsbD 31 = true ∧ v.getLsbD 30 = false ∧ s.dev.qState q = 0 ∧ s.dev.qKind q ≠ 0 ∧ 6 ≤ s.dev.fld F.WQ_Q_CFG_LOG_SIZE q ∧ s.dev.fld F.WQ_Q_CFG_LOG_SIZE q ≤ 16 ∧ s.dev.queueHeld q = false) ∧
    (∃ (s : State) (src : Src) (v : Word) (q : Nat), s.dev.Rested ∧ s.dev.level src ≠ 3 ∧ s.dev.selValid src.fn .WQ_SEL = true ∧ q = s.dev.fld F.WQ_SEL_QUEUE src.fn ∧ v.getLsbD 31 = true ∧ v.getLsbD 30 = false ∧ s.dev.qState q = 0 ∧ (s.dev.qKind q = 0 ∨ s.dev.fld F.WQ_Q_CFG_LOG_SIZE q < 6 ∨ 16 < s.dev.fld F.WQ_Q_CFG_LOG_SIZE q)) ∧
    (∃ (s : State) (src : Src) (v : Word) (q : Nat), s.dev.level src ≠ 3 ∧ s.dev.selValid src.fn .WQ_SEL = true ∧ q = s.dev.fld F.WQ_SEL_QUEUE src.fn ∧ v.getLsbD 31 = true ∧ v.getLsbD 30 = true ∧ (s.dev.qState q = 1 ∧ (s.dev.qKind q = 1 ∨ s.dev.qKind q = 2)) ∧ s.dev.col.grps = []) ∧
    (∃ (s : State) (src : Src) (v : Word) (q : Nat), s.dev.level src ≠ 3 ∧ s.dev.selValid src.fn .WQ_SEL = true ∧ q = s.dev.fld F.WQ_SEL_QUEUE src.fn ∧ v.getLsbD 31 = false ∧ (s.dev.qState q = 1 ∧ (s.dev.qKind q = 1 ∨ s.dev.qKind q = 2)) ∧ s.dev.col.grps = []) ∧
    (∃ (s : State) (src : Src) (v : Word) (q : Nat), s.dev.Rested ∧ s.dev.level src ≠ 3 ∧ s.dev.selValid src.fn .WQ_SEL = true ∧ q = s.dev.fld F.WQ_SEL_QUEUE src.fn ∧ v.getLsbD 31 = false ∧ s.dev.qState q = 1 ∧ s.dev.qKind q = 3) ∧
    (∃ (s : State) (h : Fin 24) (q : Nat) (x : Queue), s.dev.Rested ∧ s.dev.wq = [(q, x)] ∧ s.dev.qState q = 1 ∧ s.dev.flag F.WQ_Q_CFG_MEM q = false ∧ s.dev.queueFn q = 4096 + h.val) ∧
    (∃ (s : State) (h : Fin 24) (q : Nat) (x : Queue), s.dev.Rested ∧ s.dev.wq = [(q, x)] ∧ x.prior = 1 ∧ x.taken = [] ∧ x.kept = [] ∧ x.keptEv = [] ∧ s.dev.qState q = 2 ∧ s.dev.qKind q = 2 ∧ s.dev.queueFn q = 4096 + h.val ∧ s.dev.hsw.unreach = [] ∧ s.dev.xlt.wait = []) :=
  ⟨⟨mkOn fun d => ((d.setFld F.WQ_Q_CFG_KIND 7 2).setFld F.WQ_Q_CFG_LOG_SIZE 7 6).setFld F.WQ_SEL_QUEUE 4224 7, .fw, 0x80000000#32, 7, by decide⟩,
    ⟨mkOn fun d => (d.setFld F.WQ_Q_CFG_KIND 7 2).setFld F.WQ_SEL_QUEUE 4224 7, .fw, 0x80000000#32, 7, by decide⟩,
    ⟨mkOn fun d => ((d.setFld F.WQ_Q_CFG_KIND 7 2).setFld F.WQ_SEL_QUEUE 4224 7).setFld F.WQ_Q_STATUS_STATE 7 1, .fw, 0xC0000000#32, 7, by decide⟩,
    ⟨mkOn fun d => (((d.setFld F.WQ_Q_CFG_KIND 7 2).setFld F.WQ_SEL_QUEUE 4224 7).setFld F.WQ_Q_STATUS_STATE 7 1).setFld F.WQ_Q_CTRL_ENABLE 7 1, .fw, 0#32, 7, by decide⟩,
    ⟨mkOn fun d => (((d.setFld F.WQ_Q_CFG_KIND 7 3).setFld F.WQ_SEL_QUEUE 4224 7).setFld F.WQ_Q_STATUS_STATE 7 1).setFld F.WQ_Q_CTRL_ENABLE 7 1, .fw, 0#32, 7, by decide⟩,
    ⟨mkOn fun d => { d.setFld F.WQ_Q_STATUS_STATE 7 1 with wq := [(7, Queue.reset)], own := { d.own with queue := [(7, 4099)] } }, 3, 7, Queue.reset, by decide⟩,
    ⟨mkOn fun d => { (d.setFld F.WQ_Q_STATUS_STATE 7 2).setFld F.WQ_Q_CFG_KIND 7 2 with wq := [(7, { Queue.reset with prior := 1, rescan := true })], own := { d.own with queue := [(7, 4099)] }, hsw := { d.hsw with held := [4099] } }, 3, 7, { Queue.reset with prior := 1, rescan := true }, by decide⟩⟩

theorem test_meets_ProtectionStaging :
    (∃ (s : State) (src : Src) (v : Word), s.dev.Rested ∧ s.dev.level src = 0 ∧ F.XLT_RGN_CMD_STAGE.ofWord v = 1 ∧ F.XLT_RGN_CMD_LOAD.ofWord v = 0 ∧ s.dev.fld F.XLT_RGN_SEL_INDEX src.fn ≠ 0 ∧ s.dev.inRange src.fn (s.dev.fld F.XLT_RGN_SEL_INDEX src.fn) = true ∧ s.dev.protSlots < 4096 ∧ Tbl.get s.dev.clk.holdAt src.fn = none) ∧
    (∃ (s : State) (src : Src) (v : Word), s.dev.Rested ∧ s.dev.level src = 1 ∧ F.XLT_RGN_CMD_STAGE.ofWord v = 1 ∧ F.XLT_RGN_CMD_LOAD.ofWord v = 0 ∧ s.dev.fld F.XLT_RGN_SEL_INDEX src.fn ≠ 0 ∧ s.dev.inRange src.fn (s.dev.fld F.XLT_RGN_SEL_INDEX src.fn) = false) ∧
    (∃ (s : State) (src : Src) (v : Word), s.dev.Rested ∧ s.dev.level src = 0 ∧ F.XLT_RGN_CMD_STAGE.ofWord v = 1 ∧ F.XLT_RGN_CMD_LOAD.ofWord v = 0 ∧ s.dev.fld F.XLT_RGN_SEL_INDEX src.fn ≠ 0 ∧ s.dev.inRange src.fn (s.dev.fld F.XLT_RGN_SEL_INDEX src.fn) = true ∧ 4096 ≤ s.dev.protSlots) ∧
    (∃ (s : State) (src : Src) (v : Word), s.dev.Rested ∧ s.dev.level src ≤ 1 ∧ F.XLT_RGN_CMD_STAGE.ofWord v = 1 ∧ F.XLT_RGN_CMD_LOAD.ofWord v = 0 ∧ s.dev.fld F.XLT_RGN_SEL_INDEX src.fn = 0) ∧
    (∃ (s : State) (src : Src) (v : Word) (e : ProtVer), s.dev.Rested ∧ s.dev.level src ≤ 1 ∧ F.XLT_RGN_CMD_STAGE.ofWord v = 0 ∧ F.XLT_RGN_CMD_LOAD.ofWord v = 1 ∧ e = s.dev.protAt s.dev.tickNow (s.dev.fld F.XLT_RGN_SEL_INDEX src.fn)) :=
  ⟨⟨mkOn fun d => d.setFld F.XLT_RGN_SEL_INDEX 4224 5, .fw, 0x80000000#32, by decide⟩,
    ⟨mkOn fun d => d.setFld F.XLT_RGN_SEL_INDEX 4099 5, .pf 3, 0x80000000#32, by decide +kernel⟩,
    ⟨fullState, .fw, 0x80000000#32, by decide, by decide, by decide, by decide, by decide, by decide, full_protSlots⟩,
    ⟨mkOn fun d => d, .fw, 0x80000000#32, by decide⟩,
    ⟨mkOn fun d => { d.setFld F.XLT_RGN_SEL_INDEX 4224 2 with prot := { d.prot with ents := [(2, [prot2])] } }, .fw, 0x40000000#32, prot2, by decide⟩⟩

theorem test_meets_MessageMatching :
    (∃ (s : State) (m : BitVec 16) (i : Nat) (x : Msg) (rest : List MteIn) (a : Nat), s.dev.Rested ∧ s.dev.mctxState m.toNat = 1 ∧ s.dev.hrAwake m.toNat = true ∧ (s.dev.mctx m.toNat).input = .arrival i :: rest ∧ (s.dev.mctx m.toNat).posted = [] ∧ (s.dev.mctx m.toNat).reads = [] ∧ Tbl.get s.dev.mte.msgs i = some x ∧ s.dev.fld F.MTE_HR_OCC_ENTRIES (m.toNat % 64) < 4096 ∧ a = (s.dev.slotAt x.ctx (x.slot.getD 0)).1.base + (s.dev.slotAt x.ctx (x.slot.getD 0)).2) ∧
    (∃ (s : State) (m : BitVec 16) (i : Nat) (x : Msg) (c : MCtx) (p : Posted) (e : Entry) (r : Region), s.dev.Rested ∧ s.dev.mctxState m.toNat = 1 ∧ s.dev.hrAwake m.toNat = true ∧ s.dev.mte.ctxs = [(m.toNat, c)] ∧ c.input = [.arrival i] ∧ c.posted = [p] ∧ c.unexpected = [] ∧ c.reads = [] ∧ s.dev.mte.spilled = [] ∧ Tbl.get s.dev.mte.msgs i = some x ∧ x.rts = true ∧ x.slot = none ∧ 0 < min x.len e.len ∧ s.dev.fits x p.q p.idx = true ∧ (s.dev.queue p.q).at_ p.idx = some e ∧ (s.dev.localCheck s.dev.tickNow (s.dev.fld F.WQ_Q_CFG_PD p.q) e.lkey 2 e.laddr e.len).toOption = some r) ∧
    (∃ (s : State) (m : BitVec 16) (q : Nat) (idx : Nat) (rest : List MteIn), s.dev.Rested ∧ s.dev.mctxState m.toNat = 1 ∧ s.dev.hrAwake m.toNat = true ∧ (s.dev.mctx m.toNat).input = .posting q idx :: rest ∧ (s.dev.mctx m.toNat).unexpected = [] ∧ (s.dev.mctx m.toNat).reads = [] ∧ s.dev.mteFree (m.toNat % 64) = true ∧ s.dev.atLimit m.toNat = false ∧ s.dev.fld F.MTE_HR_OCC_ENTRIES (m.toNat % 64) < 4096 ∧ (s.dev.queue q).stall = false) ∧
    (∃ (s : State) (m : BitVec 16) (q : Nat) (idx : Nat) (rest : List MteIn), s.dev.mctxState m.toNat = 1 ∧ s.dev.hrAwake m.toNat = true ∧ (s.dev.mctx m.toNat).input = .posting q idx :: rest ∧ (s.dev.mctx m.toNat).unexpected = [] ∧ (s.dev.mctx m.toNat).reads = [] ∧ (s.dev.mctx m.toNat).waited = false ∧ (s.dev.mteFree (m.toNat % 64) = false ∨ s.dev.atLimit m.toNat = true)) :=
  ⟨⟨mkOn fun d => { (d.setFld F.MTE_CTX_STATUS_STATE 5 1).setFld F.PWR_HR_STATE 5 2 with mte := { d.mte with ctxs := [(5, { MCtx.reset with input := [.arrival 2] })], msgs := [(2, msg0)] } }, 5#16, 2, msg0, [], 3 * 4096, by decide⟩,
    ⟨mkOn fun d => { (d.setFld F.MTE_CTX_STATUS_STATE 5 1).setFld F.PWR_HR_STATE 5 2 with mte := { d.mte with ctxs := [(5, { MCtx.reset with input := [.arrival 2], posted := [⟨7, 3⟩] })], msgs := [(2, { msg0 with rts := true, slot := none })] }, wq := [(7, { Queue.reset with taken := [recv0] })], prot := { d.prot with ents := [(2, [prot3])] } }, 5#16, 2, { msg0 with rts := true, slot := none }, { MCtx.reset with input := [.arrival 2], posted := [⟨7, 3⟩] }, ⟨7, 3⟩, recv0, { ver := prot3, xctx := 0, base := 0x2000, staging := false }, by decide +kernel⟩,
    ⟨mkOn fun d => { ((d.setFld F.MTE_CTX_STATUS_STATE 5 1).setFld F.PWR_HR_STATE 5 2).setFld F.MTE_CTX_LIMIT_ENTRIES 5 9 with mte := { d.mte with ctxs := [(5, { MCtx.reset with input := [.posting 7 3] })] } }, 5#16, 7, 3, [], by decide⟩,
    ⟨mkOn fun d => { ((d.setFld F.MTE_CTX_STATUS_STATE 5 1).setFld F.PWR_HR_STATE 5 2).setFld F.MTE_CTX_LIMIT_ENTRIES 5 0 with mte := { d.mte with ctxs := [(5, { MCtx.reset with input := [.posting 7 3] })] } }, 5#16, 7, 3, [], by decide⟩⟩

theorem test_meets_MatchingContexts :
    (∃ (s : State) (src : Src) (m : BitVec 16), s.dev.Rested ∧ s.dev.part.hasHbm = true ∧ s.dev.mayReach src (Tbl.get s.dev.own.mctx m.toNat) = true ∧ s.dev.mctxState m.toNat = 0) ∧
    (∃ (s : State) (src : Src) (m : BitVec 16) (c : MCtx) (p : Posted) (e : Entry), s.dev.mayReach src (Tbl.get s.dev.own.mctx m.toNat) = true ∧ s.dev.mctxState m.toNat ≠ 0 ∧ s.dev.mte.ctxs = [(m.toNat, c)] ∧ c.posted = [p] ∧ c.unexpected = [] ∧ c.input = [] ∧ s.dev.mte.spilled = [] ∧ s.dev.qState p.q = 2 ∧ (s.dev.queue p.q).at_ p.idx = some e ∧ e.done = none) ∧
    (∃ (s : State) (m : BitVec 16) (i : Nat) (rest : List (Nat × Bool)), s.dev.Rested ∧ (s.dev.mctx m.toNat).reads = (i, false) :: rest ∧ (s.dev.arbWaits 4 i = false ∧ (s.dev.spillHbm = true ∨ s.dev.heldHier (s.dev.fld F.MTE_SPILL_LO_HIER 0) = false))) ∧
    (∃ (s : State) (m : BitVec 16) (i : Nat) (mv : Bool), s.dev.arbWaits 4 i = false ∧ (s.dev.mctx m.toNat).reads = [(i, mv)] ∧ (s.dev.mctx m.toNat).posted = [] ∧ (s.dev.mctx m.toNat).unexpected = [] ∧ (s.dev.mctx m.toNat).input = []) ∧
    (∃ (s : State) (n : Nat) (cookie : Nat) (st : Nat) (rest : List (Nat × Nat × Nat)) (r : Rdv) (e : Entry), s.dev.mte.fins = (n, cookie, st) :: rest ∧ Tbl.get s.dev.mte.rdv (cookie % 65536) = some r ∧ s.dev.cookie (cookie % 65536) = cookie ∧ (s.dev.conn r.conn).ops = [] ∧ s.dev.qState r.q = 2 ∧ (s.dev.queue r.q).at_ r.idx = some e ∧ e.done = none) ∧
    (∃ (s : State) (n : Nat) (cookie : Nat) (st : Nat) (rest : List (Nat × Nat × Nat)), s.dev.mte.fins = (n, cookie, st) :: rest ∧ Tbl.get s.dev.mte.rdv (cookie % 65536) = none) ∧
    (∃ (s : State) (n : Nat) (cookie : Nat) (i : Nat) (rest : List (Nat × Nat)) (x : Msg), s.dev.mte.cancels = (n, cookie) :: rest ∧ (s.dev.mte.msgs.find? (fun x => x.2.rts && x.2.conn == n && x.2.cookie == cookie) = some (i, x)) ∧ s.dev.mte.recvs = []) :=
  ⟨⟨mkOn fun d => d, .fw, 5#16, by decide⟩,
    ⟨mkOn fun d => { ((d.setFld F.MTE_CTX_STATUS_STATE 5 1).setFld F.MTE_CTX_CTRL_ENABLE 5 1).setFld F.WQ_Q_STATUS_STATE 7 2 with mte := { d.mte with ctxs := [(5, { MCtx.reset with posted := [⟨7, 3⟩] })] }, wq := [(7, { Queue.reset with taken := [recv0] })] }, .fw, 5#16, { MCtx.reset with posted := [⟨7, 3⟩] }, ⟨7, 3⟩, recv0, by decide⟩,
    ⟨mkOn fun d => { d with mte := { d.mte with ctxs := [(5, { MCtx.reset with reads := [(2, false)] })] } }, 5#16, 2, [], by decide⟩,
    ⟨mkOn fun d => { d with mte := { d.mte with ctxs := [(5, { MCtx.reset with reads := [(2, true)] })] } }, 5#16, 2, true, by decide⟩,
    ⟨mkOn fun d => { d.setFld F.WQ_Q_STATUS_STATE 6 2 with mte := { d.mte with fins := [(12, 65539, 0)], rdv := [(3, ⟨6, 4, 12, false⟩)], rdvSeq := [(3, 1)] }, wq := [(6, { Queue.reset with taken := [atomEntry] })] }, 12, 65539, 0, [], ⟨6, 4, 12, false⟩, atomEntry, by decide⟩,
    ⟨mkOn fun d => { d with mte := { d.mte with fins := [(12, 65539, 0)] } }, 12, 65539, 0, [], by decide⟩,
    ⟨mkOn fun d => { d with mte := { d.mte with cancels := [(12, 9)], msgs := [(2, { msg0 with rts := true, cookie := 9 })], ctxs := [(5, { MCtx.reset with unexpected := [2] })] } }, 12, 9, 2, [], { msg0 with rts := true, cookie := 9 }, by decide⟩⟩

theorem test_meets_CollectiveUnits :
    (∃ (s : State) (u : Fin 4) (g : Nat) (seq : Nat) (cost : Nat) (p : ColPar) (x : ColOffer) (o : ColOp) (ins : List Nat) (old : List El) (es : List El) (limbs : Nat), s.dev.Rested ∧ s.dev.col.stall.contains u.val = false ∧ s.dev.colNext u.val = some (g, seq, p, x) ∧ Tbl.getD s.dev.col.cells u.val 0 + x.cells ≤ 1024 ∧ Tbl.getD s.dev.col.share u.val 0 + p.els x.block * p.share ≤ 131072 ∧ cost = s.dev.fld F.PWR_COST_COST p.kind ∧ cost ≤ Tbl.getD s.dev.pwr.cap 0 0 ∧ cost ≤ Tbl.getD s.dev.pwr.grant p.kind 0 ∧ s.dev.colOp g seq = some o ∧ Tbl.get o.acc x.block = some (ins, old) ∧ p.take x = some (es, limbs) ∧ (s.dev.colInputs g).all (x.inp :: ins).contains = false) ∧
    (∃ (s : State) (u : Fin 4) (x : StPkt) (g : Nat) (o : ColOp), s.dev.halted = false ∧ s.dev.col.stall.contains u.val = false ∧ (Tbl.getD s.dev.swc.stage (152 + u.val) []).head? = some x ∧ x.q.pkt.cells ≤ x.arrived ∧ x.q.pkt.kind = 8 ∧ g = x.q.pkt.conn % 4096 ∧ s.dev.colOpen g = true ∧ (s.dev.colChildren g).contains x.q.inp = true ∧ (s.dev.colGrp g).ops = [o] ∧ (s.dev.colGrp g).tail = [] ∧ (s.dev.colGrp g).base = x.q.pkt.ta 40 16 ∧ o.seq = x.q.pkt.ta 40 16 ∧ o.par = some (ColPar.ofPkt x.q.pkt) ∧ o.mems = [] ∧ o.parts = [] ∧ o.closed = false ∧ ((∀ z ∈ o.offers, (z.inp == x.q.inp && z.block == x.q.pkt.psn) = false) ∧ Tbl.get o.acc x.q.pkt.psn = none) ∧ x.q.pkt.e2e = x.q.pkt.e2eOf ∧ x.q.pkt.ta 56 8 ≠ 1 ∧ (ColPar.ofPkt x.q.pkt).cop < 2 ∧ (ColPar.ofPkt x.q.pkt).mode = 0 ∧ x.q.pkt.psn < (ColPar.ofPkt x.q.pkt).blocks ∧ x.q.pkt.tb 16 1 = 1 ∧ (x.q.pkt.data.take x.q.pkt.len).length = (ColPar.ofPkt x.q.pkt).bytes x.q.pkt.psn) ∧
    (∃ (s : State) (u : Fin 4) (x : StPkt), s.dev.halted = false ∧ s.dev.col.stall.contains u.val = false ∧ (Tbl.getD s.dev.swc.stage (152 + u.val) []).head? = some x ∧ x.q.pkt.cells ≤ x.arrived ∧ x.q.pkt.kind = 8 ∧ s.dev.colOpen (x.q.pkt.conn % 4096) = false) ∧
    (∃ (s : State) (u : Fin 4) (x : StPkt) (g : Nat) (o : ColOp) (p : ColPar), s.dev.halted = false ∧ (Tbl.getD s.dev.swc.stage (152 + u.val) []).head? = some x ∧ x.q.pkt.cells ≤ x.arrived ∧ x.q.pkt.kind = 9 ∧ g = x.q.pkt.conn % 4096 ∧ s.dev.colOpen g = true ∧ s.dev.colRoot g = false ∧ x.q.inp = s.dev.fld F.COL_GRP_CFG_PARENT g ∧ (s.dev.colGrp g).ops = [o] ∧ (s.dev.colGrp g).tail = [] ∧ (s.dev.colGrp g).base = o.seq ∧ o.seq = x.q.pkt.ta 40 16 ∧ o.par = some p ∧ p.cop = 3 ∧ o.mems = [] ∧ o.closed = true ∧ o.ended = false ∧ x.q.pkt.psn ∉ o.downs ∧ x.q.pkt.e2e = x.q.pkt.e2eOf ∧ x.q.pkt.ta 56 8 = 1) ∧
    (∃ (s : State) (x : StPkt) (g : Nat) (o : ColOp) (p : ColPar), s.dev.halted = false ∧ (Tbl.getD s.dev.swc.stage 159 []).head? = some x ∧ x.q.pkt.cells ≤ x.arrived ∧ x.q.pkt.kind = 0xA ∧ x.q.pkt.ta 56 8 = 1 ∧ g = x.q.pkt.conn % 4096 ∧ s.dev.colOpen g = true ∧ s.dev.colRoot g = false ∧ x.q.inp = s.dev.fld F.COL_GRP_CFG_PARENT g ∧ (s.dev.colGrp g).ops = [o] ∧ (s.dev.colGrp g).tail = [] ∧ o.seq = x.q.pkt.ta 40 16 ∧ o.par = some p ∧ p.cop < 2 ∧ o.mems = [] ∧ o.ready = [] ∧ o.closed = false ∧ o.combined ≠ p.blocks ∧ x.q.pkt.e2e = x.q.pkt.e2eOf) :=
  ⟨⟨colState0 true, 0, 2, 0, 2, par0, offer0, colOp0 true, [4], [⟨5, 0⟩], [⟨7, 0⟩], 0, by decide +kernel⟩,
    ⟨colState1, 0, upPkt, 2, colOp0 false, by decide, by decide, by decide +kernel, by decide +kernel, by decide +kernel, by decide +kernel, by decide +kernel, by decide +kernel, by decide +kernel, by decide +kernel⟩,
    ⟨mkOn fun d => { d with swc := { d.swc with stage := [(152, [upPkt])] } }, 0, upPkt, by decide +kernel⟩,
    ⟨colState2, 0, endPkt, 2, barOp, barPar, by decide +kernel⟩,
    ⟨colState3 1, ctlPkt 1, 2, colOp0 false, par0, by decide +kernel⟩⟩

theorem test_meets_CollectiveGroups :
    (∃ (s : State) (src : Src) (v : Word) (w : Word) (g : Nat), s.dev.Rested ∧ s.dev.level src = 0 ∧ g = s.dev.fld F.COL_GRP_SEL_GROUP src.fn ∧ s.dev.colState g = 0 ∧ F.COL_GRP_CTRL_FORM.ofWord v = 1 ∧ F.COL_GRP_CTRL_DISSOLVE.ofWord v = 0 ∧ w = Reg.merge .COL_GRP_CTRL (s.dev.rd .COL_GRP_CTRL g) v 0xFFFFFFFF#32 ∧ (s.dev.setReg .COL_GRP_CTRL g w).colChecks g = true ∧ s.dev.colRoom g (s.dev.colHeld g) = true) ∧
    (∃ (s : State) (src : Src) (v : Word) (w : Word) (g : Nat), s.dev.level src = 0 ∧ g = s.dev.fld F.COL_GRP_SEL_GROUP src.fn ∧ s.dev.colState g = 0 ∧ F.COL_GRP_CTRL_FORM.ofWord v = 1 ∧ F.COL_GRP_CTRL_DISSOLVE.ofWord v = 0 ∧ w = Reg.merge .COL_GRP_CTRL (s.dev.rd .COL_GRP_CTRL g) v 0xFFFFFFFF#32 ∧ (s.dev.setReg .COL_GRP_CTRL g w).colChecks g = false) ∧
    (∃ (s : State) (src : Src) (v : Word) (g : Nat), s.dev.Rested ∧ s.dev.level src = 0 ∧ g = s.dev.fld F.COL_GRP_SEL_GROUP src.fn ∧ s.dev.colState g = 1 ∧ F.COL_GRP_CTRL_FORM.ofWord v = 0 ∧ F.COL_GRP_CTRL_DISSOLVE.ofWord v = 1) ∧
    (∃ (s : State) (x : StPkt) (g : Nat), s.dev.halted = false ∧ (Tbl.getD s.dev.swc.stage 159 []).head? = some x ∧ x.q.pkt.cells ≤ x.arrived ∧ x.q.pkt.kind = 0xA ∧ x.q.pkt.ta 56 8 = 2 ∧ g = x.q.pkt.conn % 4096 ∧ s.dev.colOpen g = true ∧ (s.dev.colPorts g).contains x.q.inp = true ∧ ((s.dev.colGrp g).place (x.q.pkt.ta 40 16) < 32768 ∧ ∀ o ∈ (s.dev.colGrp g).ops, o.mems = []) ∧ x.q.pkt.e2e = x.q.pkt.e2eOf) ∧
    (∃ (s : State) (g : BitVec 12) (o : ColOp) (p : ColPar), s.dev.colRoot g.toNat = true ∧ s.dev.colOpen g.toNat = true ∧ s.dev.fld F.COL_GRP_CFG_TIMEOUT g.toNat ≠ 0 ∧ (s.dev.colGrp g.toNat).ops = [o] ∧ o.par = some p ∧ o.mems = [] ∧ o.decided = false ∧ o.start + 1024 * s.dev.fld F.COL_GRP_CFG_TIMEOUT g.toNat ≤ s.dev.clk.edges) :=
  ⟨⟨mkOn fun d => ((d.setFld F.COL_GRP_SEL_GROUP 4224 2).setReg .COL_GRP_CHILD 8 8#32).setFld F.COL_GRP_CFG_PARENT 2 5, .fw, 0x80000007#32, 7#32, 2, by decide +kernel⟩,
    ⟨mkOn fun d => d.setFld F.COL_GRP_SEL_GROUP 4224 2, .fw, 0x80000007#32, 7#32, 2, by decide +kernel⟩,
    ⟨mkOn fun d => { (d.setFld F.COL_GRP_SEL_GROUP 4224 2).setFld F.COL_GRP_STATUS_STATE 2 1 with col := { d.col with slots := [(2, 9)] } }, .fw, 0x40000000#32, 2, by decide⟩,
    ⟨colState3 2, ctlPkt 2, 2, by decide +kernel⟩,
    ⟨mkOn fun d => { ((d.setFld F.COL_GRP_CFG_ROOT 2 1).setFld F.COL_GRP_CFG_TIMEOUT 2 1).setFld F.COL_GRP_STATUS_STATE 2 2 with clk := { d.clk with edges := 1024 }, col := { d.col with grps := [(2, { base := 0, ops := [colOp0 false], tail := [], posted := [] })] } }, 2#12, colOp0 false, par0, by decide⟩⟩

theorem test_meets_WalksAndInvalidations :
    (∃ (s : State) (k : Fin 256) (e : BitVec 64) (w : Walk), s.dev.Rested ∧ s.dev.halted = false ∧ s.dev.arbWaits 3 w.seq = false ∧ s.dev.xlt.walks = [w] ∧ k = 0 ∧ w.lock = none ∧ w.drop = [] ∧ s.dev.flag F.XLT_CTX_CFG_MEM w.ctx = false ∧ s.dev.heldHier (s.dev.fld F.XLT_CTX_CFG_HIER w.ctx) = false ∧ s.dev.xctxState w.ctx = 1 ∧ s.dev.xlt.cache.length < 8 ∧ entV e = true ∧ entRsvOk e = true ∧ entTbl e = true ∧ w.level ≠ 0 ∧ s.dev.tableLegal w.ctx (entAddr e) = true) ∧
    (∃ (s : State) (k : Fin 256) (e : BitVec 64) (w : Walk), s.dev.Rested ∧ s.dev.halted = false ∧ s.dev.arbWaits 3 w.seq = false ∧ s.dev.xlt.walks = [w] ∧ k = 0 ∧ w.lock = none ∧ w.drop = [] ∧ s.dev.flag F.XLT_CTX_CFG_MEM w.ctx = false ∧ s.dev.heldHier (s.dev.fld F.XLT_CTX_CFG_HIER w.ctx) = false ∧ s.dev.xctxState w.ctx = 1 ∧ s.dev.xlt.cache.length < 8 ∧ s.dev.xlt.wait = [] ∧ s.dev.NoLockWalk ∧ entTbl e = false ∧ w.level < 4 ∧ s.dev.leafCause w.ctx w.level e = 0) ∧
    (∃ (s : State) (k : Fin 256) (e : BitVec 64) (w : Walk) (fn : Nat), s.dev.halted = false ∧ s.dev.arbWaits 3 w.seq = false ∧ s.dev.xlt.walks = [w] ∧ k = 0 ∧ w.lock = none ∧ s.dev.flag F.XLT_CTX_CFG_MEM w.ctx = false ∧ s.dev.heldHier (s.dev.fld F.XLT_CTX_CFG_HIER w.ctx) = false ∧ s.dev.xlt.wait = [] ∧ s.dev.NoLockWalk ∧ entV e = false ∧ Tbl.get s.dev.own.xctx w.ctx = none ∧ fn = 4224 ∧ s.dev.flag F.XLT_FAULT_INFO_VALID fn = false) ∧
    (∃ (s : State) (src : Src) (v : Word) (c : Nat) (ty : Nat) (span : Nat) (lo : Nat), s.dev.Rested ∧ s.dev.level src ≤ 1 ∧ F.XLT_INV_CTRL_ISSUE.ofWord v = 1 ∧ c = F.XLT_INV_CTRL_CTX.ofWord v ∧ s.dev.mayReach src (Tbl.get s.dev.own.xctx c) = true ∧ ty = F.XLT_INV_CTRL_TYPE.ofWord v ∧ ty ≤ 1 ∧ ((s.dev.xlt.invals.filter fun i => i.fn.isSome).length < 64) ∧ span = 2 ^ (12 + min 45 (F.XLT_INV_CTRL_LOG_PAGES.ofWord v)) ∧ lo = s.dev.addr57 F.XLT_INV_ADDR_LO_ADDR F.XLT_INV_ADDR_HI_ADDR src.fn / span * span) ∧
    (∃ (s : State) (k : Nat) (i : Inval) (fn : Nat), s.dev.Rested ∧ s.dev.xlt.invals[k]? = some i ∧ i.fn = some fn ∧ s.dev.tokenReady k i = true) ∧
    (∃ (s : State) (k : Nat) (i : Inval) (c : Nat), s.dev.Rested ∧ s.dev.xlt.invals[k]? = some i ∧ i.fn = none ∧ i.ctx = some c ∧ s.dev.tokenReady k i = true) ∧
    (∃ (s : State) (src : Src) (v : Word) (c : Nat), s.dev.Rested ∧ s.dev.level src ≤ 1 ∧ c = s.dev.fld F.XLT_CTX_SEL_CTX src.fn ∧ s.dev.selValid src.fn .XLT_CTX_SEL = true ∧ F.XLT_CTX_CFG_ENABLE.ofWord v = 0 ∧ s.dev.xctxState c = 1) ∧
    (∃ (s : State) (src : Src) (h : Hedge) (v : Word), s.dev.Rested ∧ s.dev.level src = 0 ∧ s.dev.fld F.PWR_HR_STATE h.val = 0 ∧ F.XLT_HR_MODE_MODE.ofWord v ≠ s.dev.fld F.XLT_HR_MODE_MODE h.val) ∧
    (∃ (s : State) (src : Src) (h : Hedge), s.dev.Rested ∧ s.dev.level src = 0 ∧ s.dev.fld F.PWR_HR_STATE h.val ≠ 0) :=
  ⟨⟨mkOn fun d => { ((d.setFld F.XLT_CTX_STATUS_STATE 4 1).setFld F.XLT_HMEM_BASE_LO_VALID 0 1).setFld F.XLT_HMEM_LIMIT_LO_LIMIT 0 0xFFFFF with xlt := { d.xlt with walks := [{ ctx := 4, va := 0x2000, level := 2, table := 0x1000, user := 0, lock := none, drop := [], seq := 0 }] } }, 0, 0x5003#64, { ctx := 4, va := 0x2000, level := 2, table := 0x1000, user := 0, lock := none, drop := [], seq := 0 }, by decide⟩,
    ⟨mkOn fun d => { d.setFld F.XLT_CTX_STATUS_STATE 4 1 with xlt := { d.xlt with walks := [{ ctx := 4, va := 0x2000, level := 0, table := 0x1000, user := 0, lock := none, drop := [], seq := 0 }] } }, 0, 0x500D#64, { ctx := 4, va := 0x2000, level := 0, table := 0x1000, user := 0, lock := none, drop := [], seq := 0 }, by decide +kernel⟩,
    ⟨mkOn fun d => { d.setFld F.XLT_CTX_STATUS_STATE 4 1 with xlt := { d.xlt with walks := [{ ctx := 4, va := 0x2000, level := 0, table := 0x1000, user := 0, lock := none, drop := [], seq := 0 }] } }, 0, 0x500C#64, { ctx := 4, va := 0x2000, level := 0, table := 0x1000, user := 0, lock := none, drop := [], seq := 0 }, 4224, by decide +kernel⟩,
    ⟨mkOn fun d => { d with xlt := { d.xlt with cache := [leaf0, { leaf0 with ctx := 9 }] } }, .fw, BitVec.ofNat 32 (2 ^ 30 + 2 ^ 29 + prot2.xctx), prot2.xctx, 1, 4096, 0, by decide⟩,
    ⟨mkOn fun d => { d with xlt := { d.xlt with invals := [{ fn := some 4099, token := 7, ctx := some 4, lo := 0, hi := 4095, seq := 0 }] } }, 0, { fn := some 4099, token := 7, ctx := some 4, lo := 0, hi := 4095, seq := 0 }, 4099, by decide⟩,
    ⟨mkOn fun d => { d.setFld F.XLT_CTX_STATUS_STATE 4 2 with xlt := { d.xlt with invals := [{ fn := none, token := 0, ctx := some 4, lo := 0, hi := 4095, seq := 0 }] } }, 0, { fn := none, token := 0, ctx := some 4, lo := 0, hi := 4095, seq := 0 }, 4, by decide⟩,
    ⟨mkOn fun d => { ((d.setFld F.XLT_CTX_STATUS_STATE prot2.xctx 1).setFld F.XLT_CTX_SEL_CTX 4224 prot2.xctx).setFld F.XLT_CTX_CFG_ENABLE prot2.xctx 1 with xlt := { d.xlt with cache := [{ leaf0 with locked := true }, { leaf0 with ctx := 9 }] } }, .fw, 0#32, prot2.xctx, by decide⟩,
    ⟨mkOn fun d => { d with xlt := { d.xlt with slots := [(33, [leaf0]), (50, [leaf0])] } }, .fw, 2, F.XLT_HR_MODE_MODE.put 0#32 1, by decide⟩,
    ⟨mkOn fun d => d.setFld F.PWR_HR_STATE 2 2, .fw, 2, by decide⟩⟩

theorem test_meets_LockedEntries :
    (∃ (s : State) (src : Src) (v : Word) (c : Nat) (va : Nat), s.dev.Rested ∧ s.dev.level src ≤ 1 ∧ F.XLT_LOCK_CTRL_GO.ofWord v = 1 ∧ F.XLT_LOCK_CTRL_OP.ofWord v = 0 ∧ F.XLT_LOCK_CTRL_DEST.ofWord v = 0 ∧ c = F.XLT_LOCK_CTRL_CTX_ENG.ofWord v ∧ s.dev.mayReach src (Tbl.get s.dev.own.xctx c) = true ∧ s.dev.fld F.XLT_LOCK_CTRL_RESULT src.fn ≠ 1 ∧ s.dev.xctxState c = 1 ∧ va = s.dev.lockVa src.fn ∧ va < 2 ^ (12 + 9 * s.dev.xctxLevels c) ∧ s.dev.xlt.walks = [] ∧ s.dev.tableLegal c (s.dev.walkStart c va).2 = true) ∧
    (∃ (s : State) (src : Src) (v : Word) (c : Nat) (va : Nat) (l : Nat) (e : BitVec 64), s.dev.Rested ∧ s.dev.level src ≤ 1 ∧ F.XLT_LOCK_CTRL_GO.ofWord v = 1 ∧ F.XLT_LOCK_CTRL_OP.ofWord v = 1 ∧ F.XLT_LOCK_CTRL_DEST.ofWord v = 0 ∧ c = F.XLT_LOCK_CTRL_CTX_ENG.ofWord v ∧ s.dev.mayReach src (Tbl.get s.dev.own.xctx c) = true ∧ l = F.XLT_LOCK_CTRL_SIZE.ofWord v ∧ e = s.dev.rd .XLT_LOCK_ENTRY_HI src.fn ++ s.dev.rd .XLT_LOCK_ENTRY_LO src.fn ∧ s.dev.fld F.XLT_LOCK_CTRL_RESULT src.fn ≠ 1 ∧ s.dev.xctxState c = 1 ∧ va = s.dev.lockVa src.fn ∧ va < 2 ^ (12 + 9 * s.dev.xctxLevels c) ∧ s.dev.leafCause c l e = 0 ∧ s.dev.xlt.cache.length < 4) ∧
    (∃ (s : State) (src : Src) (v : Word) (c : Nat), s.dev.Rested ∧ s.dev.level src ≤ 1 ∧ F.XLT_LOCK_CTRL_GO.ofWord v = 1 ∧ F.XLT_LOCK_CTRL_OP.ofWord v = 1 ∧ F.XLT_LOCK_CTRL_DEST.ofWord v = 0 ∧ c = F.XLT_LOCK_CTRL_CTX_ENG.ofWord v ∧ s.dev.mayReach src (Tbl.get s.dev.own.xctx c) = true ∧ s.dev.fld F.XLT_LOCK_CTRL_RESULT src.fn ≠ 1 ∧ s.dev.xctxState c ≠ 1) ∧
    (∃ (s : State) (src : Src) (v : Word) (c : Nat) (va : Nat) (y : XEnt), s.dev.Rested ∧ s.dev.level src ≤ 1 ∧ F.XLT_LOCK_CTRL_GO.ofWord v = 1 ∧ F.XLT_LOCK_CTRL_OP.ofWord v = 2 ∧ F.XLT_LOCK_CTRL_DEST.ofWord v = 0 ∧ c = F.XLT_LOCK_CTRL_CTX_ENG.ofWord v ∧ s.dev.mayReach src (Tbl.get s.dev.own.xctx c) = true ∧ s.dev.fld F.XLT_LOCK_CTRL_RESULT src.fn ≠ 1 ∧ va = s.dev.lockVa src.fn ∧ (s.dev.xlt.cache.find? (fun y => y.locked && y.covers c va) = some y)) ∧
    (∃ (s : State) (src : Src) (v : Word) (c : Nat) (va : Nat), s.dev.Rested ∧ s.dev.level src ≤ 1 ∧ F.XLT_LOCK_CTRL_GO.ofWord v = 1 ∧ F.XLT_LOCK_CTRL_OP.ofWord v = 2 ∧ F.XLT_LOCK_CTRL_DEST.ofWord v = 0 ∧ c = F.XLT_LOCK_CTRL_CTX_ENG.ofWord v ∧ s.dev.mayReach src (Tbl.get s.dev.own.xctx c) = true ∧ s.dev.fld F.XLT_LOCK_CTRL_RESULT src.fn ≠ 1 ∧ va = s.dev.lockVa src.fn ∧ (s.dev.xlt.cache.find? (fun y => y.locked && y.covers c va) = none)) :=
  ⟨⟨mkOn fun d => ((d.setFld F.XLT_CTX_STATUS_STATE 4 1).setFld F.XLT_HMEM_BASE_LO_VALID 0 1).setFld F.XLT_HMEM_LIMIT_LO_LIMIT 0 0xFFFFF, .fw, BitVec.ofNat 32 (2 ^ 29 + 4), 4, 0, by decide⟩,
    ⟨mkOn fun d => (d.setFld F.XLT_CTX_STATUS_STATE 4 1).setReg .XLT_LOCK_ENTRY_LO 4224 0x500D#32, .fw, BitVec.ofNat 32 (2 ^ 30 + 2 ^ 29 + 4), 4, 0, 0, 0x500D#64, by decide⟩,
    ⟨mkOn fun d => d, .fw, BitVec.ofNat 32 (2 ^ 30 + 2 ^ 29 + 4), 4, by decide⟩,
    ⟨mkOn fun d => { d with xlt := { d.xlt with cache := [{ leaf0 with ctx := 4, va := 0, locked := true }] } }, .fw, BitVec.ofNat 32 (2 ^ 31 + 2 ^ 29 + 4), 4, 0, { leaf0 with ctx := 4, va := 0, locked := true }, by decide⟩,
    ⟨mkOn fun d => d, .fw, BitVec.ofNat 32 (2 ^ 31 + 2 ^ 29 + 4), 4, 0, by decide⟩⟩

theorem test_meets_BridgeRequests :
    (∃ (s : State) (h : Hier) (off : BitVec 52) (c : Nat) (va : Nat) (pool : Nat) (n : Nat) (e : XEnt) (de : DirEnt), s.dev.Rested ∧ s.dev.halted = false ∧ s.dev.brTakes h.val false = true ∧ s.dev.PoolHit h c off va pool e 1 ∧ Tbl.get s.dev.mbr.dir (pool / 2 ^ 30) = some de ∧ de.valid = true ∧ de.failed = false ∧ s.dev.psetReady de.pset = [n]) ∧
    (∃ (s : State) (h : Hier) (off : BitVec 52) (data : List Byte) (c : Nat) (va : Nat) (pool : Nat) (n : Nat) (e : XEnt) (de : DirEnt), s.dev.Rested ∧ s.dev.halted = false ∧ s.dev.brTakes h.val true = true ∧ s.dev.PoolHit h c off va pool e 2 ∧ Tbl.get s.dev.mbr.dir (pool / 2 ^ 30) = some de ∧ de.valid = true ∧ de.failed = false ∧ de.writable = true ∧ s.dev.psetReady de.pset = [n] ∧ data.length = 64) ∧
    (∃ (s : State) (h : Hier), s.dev.Rested ∧ s.dev.halted = false ∧ s.dev.brTakes h.val true = true) ∧
    (∃ (s : State) (h : Hier) (off : BitVec 52) (mask : BitVec 64) (r : BrReq), s.dev.Rested ∧ s.dev.halted = false ∧ s.dev.brTakes h.val true = true ∧ s.dev.mbr.reqs = [r] ∧ r.hier = h.val ∧ r.off / 64 = off.toNat / 64 ∧ r.id ≠ s.dev.mbr.nextReq ∧ mask ≠ 0#64) ∧
    (∃ (s : State), s.dev.Rested) ∧
    (∃ (s : State) (h : Hier), s.dev.Rested ∧ s.dev.halted = false ∧ s.dev.part.hasMbr = true ∧ s.dev.brState h.val = 1) :=
  ⟨⟨brState0, 3, 0x2005#52, 6, 0x2000, 0x5000, 12, poolLeaf, dir0, by decide +kernel⟩,
    ⟨brState0, 3, 0x2005#52, List.replicate 64 7#8, 6, 0x2000, 0x5000, 12, poolLeaf, dir0, by decide +kernel⟩,
    ⟨brState0, 3, by decide +kernel⟩,
    ⟨brWith { brRead0 with off := 0x2000 }, 3, 0x2005#52, 0xF0#64, { brRead0 with off := 0x2000 }, by decide +kernel⟩,
    ⟨mkOn fun d => d, by decide⟩,
    ⟨brState0, 3, by decide⟩⟩

theorem test_meets_BridgeProgress :
    (∃ (s : State) (x : Nat) (n : Nat) (r : BrReq) (de : DirEnt), s.dev.Rested ∧ s.dev.halted = false ∧ s.dev.mbr.reqs = [r] ∧ r.stage = 2 ∧ r.pool / 2 ^ 30 = x ∧ r.write = false ∧ s.dev.mbr.past = [] ∧ s.dev.mbr.dir = [] ∧ s.dev.mbr.order = [] ∧ dirOfBytes x (s.dev.load .hbm (s.dev.dirAt x) 32).1 = some de ∧ de.valid = true ∧ de.failed = false ∧ s.dev.psetReady de.pset = [n]) ∧
    (∃ (s : State) (x : Nat) (r : BrReq), s.dev.halted = false ∧ s.dev.mbr.reqs = [r] ∧ r.stage = 2 ∧ r.pool / 2 ^ 30 = x ∧ r.write = false ∧ s.dev.part.hasMbr = true) ∧
    (∃ (s : State) (h : Hier) (tag : BitVec 16) (r : BrReq), s.dev.halted = false ∧ s.dev.mbr.reqs = [r] ∧ r.hier = h.val ∧ r.tag = tag.toNat ∧ r.write = false ∧ r.at_ + max 1 (s.dev.fld F.MBR_CFG_DEADLINE 0) ≤ s.dev.clk.edges ∧ s.dev.part.hasMbr = true) ∧
    (∃ (s : State) (n : BitVec 24) (at_ : Nat) (m : Nat) (r : BrReq) (de : DirEnt), (s.dev.mbr.repath.find? (fun x => x.1 == n.toNat) = some (n.toNat, at_) ∧ at_ ≤ s.dev.clk.edges) ∧ s.dev.mbr.reqs = [r] ∧ r.write = false ∧ r.stage = 3 ∧ r.conn = n.toNat ∧ r.ent = some de ∧ s.dev.psetReady de.pset = [n.toNat, m] ∧ m ≠ n.toNat ∧ s.dev.part.hasMbr = true) :=
  ⟨⟨dirState, 0, 12, { brRead0 with stage := 2 }, dir0, by decide +kernel⟩,
    ⟨brWith { brRead0 with stage := 2 }, 0, { brRead0 with stage := 2 }, by decide⟩,
    ⟨{ brWith brRead0 with dev := { (brWith brRead0).dev with clk := { (brWith brRead0).dev.clk with edges := 2 ^ 24 } } }, 3, 9#16, brRead0, by decide +kernel⟩,
    ⟨repathState, 12#24, 0, 13, { brRead0 with stage := 3, conn := 12, ent := some dir0 }, dir0, by decide +kernel⟩⟩

theorem test_meets_HierarchiesAndResets :
    (∃ (s : State) (h : Hier) (n : Nat), s.dev.Rested ∧ s.dev.upstreams h.val = [n] ∧ s.dev.hierActive h.val = false ∧ n < 48 ∧ s.dev.part.hasMbr = true ∧ s.dev.flag F.MBR_CFG_EN 0 = true ∧ s.dev.flag F.MBR_HIER_WIN_ENABLE h.val = true ∧ s.dev.brState h.val = 0) ∧
    (∃ (s : State) (h : Hier) (n : Nat) (m : Nat) (rest : List Nat), s.dev.upstreams h.val = n :: m :: rest ∧ s.dev.hierActive h.val = false ∧ n < 48) ∧
    (∃ (s : State) (h : Hier) (q : Nat), s.dev.Rested ∧ s.dev.own.queue = [(q, 4096 + h.val)] ∧ s.dev.own.vfHier = [] ∧ s.dev.hsw.vdsp = [] ∧ s.dev.qKind q = 1 ∧ s.dev.trn.conns = [] ∧ s.dev.locks = [] ∧ s.dev.col.grps = [] ∧ s.dev.mte.rdv = [] ∧ s.dev.brState h.val ≠ 1) ∧
    (∃ (s : State) (f : Func) (q : Nat), s.dev.Rested ∧ s.dev.own.queue = [(q, f.num)] ∧ s.dev.own.vfHier = [] ∧ s.dev.qKind q = 1 ∧ s.dev.trn.conns = [] ∧ s.dev.locks = [] ∧ s.dev.col.grps = [] ∧ s.dev.mte.rdv = []) ∧
    (∃ (s : State) (f : Func), s.dev.Rested ∧ s.dev.funcOn f.num = true ∧ s.dev.flag F.HSW_HIER_READY (s.dev.hierOf f.num) = false ∧ s.dev.part.hostPorts ≠ 0) ∧
    (∃ (s : State) (f : Func), s.dev.Rested ∧ s.dev.funcOn f.num = true ∧ s.dev.flag F.HSW_HIER_READY (s.dev.hierOf f.num) = true) ∧
    (∃ (s : State), s.dev.Rested ∧ s.dev.part.hostPorts ≠ 0) :=
  ⟨⟨hswState [(0, 3)] fun d => (d.setFld F.MBR_CFG_EN 0 1).setFld F.MBR_HIER_WIN_ENABLE 3 1, 3, 0, by decide +kernel⟩,
    ⟨hswState [(0, 3), (4, 3)] id, 3, 0, 4, [], by decide +kernel⟩,
    ⟨mkOn fun d => { ((d.setFld F.HSW_HIER_ACTIVE 3 1).setFld F.WQ_Q_CFG_KIND 7 1).setFld F.WQ_Q_STATUS_STATE 7 1 with own := { d.own with queue := [(7, 4099)] }, wq := [(7, { Queue.reset with taken := [atomEntry] })] }, 3, 7, by decide⟩,
    ⟨mkOn fun d => { (d.setFld F.WQ_Q_CFG_KIND 7 1).setFld F.WQ_Q_STATUS_STATE 7 1 with own := { d.own with queue := [(7, 40)] }, wq := [(7, { Queue.reset with taken := [atomEntry] })] }, .vf 40, 7, by decide⟩,
    ⟨mkOn fun d => d.setFld F.HSW_HIER_ACTIVE 3 1, .pf 3, by decide⟩,
    ⟨mkOn fun d => (d.setFld F.HSW_HIER_ACTIVE 3 1).setFld F.HSW_HIER_READY 3 1, .pf 3, by decide⟩,
    ⟨mkOn fun d => d, by decide⟩⟩

theorem test_meets_PeersAndTimeouts :
    (∃ (s : State), s.dev.Rested ∧ s.dev.halted = false ∧ s.dev.part.hostPorts ≠ 0) ∧
    (∃ (s : State) (h : Hier) (off : BitVec 40) (k : Nat) (w : PeerWin), s.dev.Rested ∧ s.dev.halted = false ∧ s.dev.hsw.windows = [(k, w)] ∧ k / 16 = h.val ∧ w.off ≤ off.toNat ∧ off.toNat < w.off + w.len ∧ s.dev.p2pBit h.val w.port = true ∧ s.dev.part.hostPorts ≠ 0) ∧
    (∃ (s : State), s.dev.halted = false ∧ s.dev.hsw.windows = [] ∧ s.dev.part.hostPorts ≠ 0) ∧
    (∃ (s : State) (q : BitVec 16), s.dev.halted = false ∧ s.dev.qState q.toNat = 1 ∧ (s.dev.queue q.toNat).scan = true ∧ s.dev.flag F.WQ_Q_CFG_EQ_EN q.toNat = false ∧ s.dev.part.hostPorts ≠ 0) ∧
    (∃ (s : State) (h : Hier) (tag : BitVec 14) (e : Nat), (h.val, tag.toNat, e) ∈ s.dev.hsw.quarantine ∧ s.dev.part.hostPorts ≠ 0) ∧
    (∃ (s : State), s.dev.Rested) :=
  ⟨⟨mkOn fun d => { d with hsw := { d.hsw with redirect := [98] } }, by decide⟩,
    ⟨mkOn fun d => { d.setReg .HSW_P2P_LO 3 32#32 with hsw := { d.hsw with windows := [(50, ⟨5, 0x1000, 0x8000, 0x1000⟩)] } }, 3, 0x1004#40, 50, ⟨5, 0x1000, 0x8000, 0x1000⟩, by decide⟩,
    ⟨mkOn fun d => d, by decide⟩,
    ⟨mkOn fun d => { (d.setFld F.WQ_Q_STATUS_STATE 7 1).setFld F.WQ_Q_CFG_KIND 7 2 with wq := [(7, { Queue.reset with scan := true })] }, 7#16, by decide⟩,
    ⟨mkOn fun d => { d with hsw := { d.hsw with quarantine := [(3, 8, 100)] } }, 3, 8#14, 100, by decide⟩,
    ⟨mkOn fun d => { d with hsw := { d.hsw with quarantine := [(3, 8, 0), (3, 8, 100)] } }, by decide⟩⟩

theorem test_meets_TunnelsAndContainment :
    (∃ (s : State) (k : Fin 64) (area : Fin 3) (tlp : List Byte) (w : Nat), s.dev.Rested ∧ s.dev.halted = false ∧ s.dev.tunState k.val = 2 ∧ (s.dev.tun k.val).waiting = [] ∧ s.dev.tunRoom k.val area.val (tunBytes 0 0 tlp).length = true ∧ s.dev.tunPad k.val area.val (tunBytes 0 0 tlp).length = 0 ∧ w = Tbl.getD (s.dev.tun k.val).written area.val 0 ∧ s.dev.part.hostPorts ≠ 0) ∧
    (∃ (s : State) (k : Fin 64) (imm : Nat) (area : Nat) (was : Nat) (rest : List Nat), s.dev.Rested ∧ s.dev.halted = false ∧ (s.dev.tun k.val).imms = imm :: rest ∧ (s.dev.tun k.val).waiting = [] ∧ imm / 2 ^ 30 % 4 = 3 ∧ area = imm / 2 ^ 28 % 4 ∧ was = Tbl.getD (s.dev.tun k.val).released area 0) ∧
    (∃ (s : State) (k : Fin 64) (imm : Nat) (area : Nat) (was : Nat) (n : Nat) (rest : List Nat) (head : List Byte), s.dev.Rested ∧ s.dev.halted = false ∧ (s.dev.tun k.val).imms = imm :: rest ∧ area = imm / 2 ^ 30 % 4 ∧ area < 3 ∧ was = Tbl.getD (s.dev.tun k.val).announced area 0 ∧ Tbl.getD (s.dev.tun k.val).freed area 0 = was ∧ n = (imm % 2 ^ 30 + 2 ^ 30 - was % 2 ^ 30) % 2 ^ 30 ∧ head = (s.dev.load .hbm ((s.dev.tun k.val).base + 65536 * area + was % 65536) 8).1 ∧ field head 2 1 0 8 = 0 ∧ n = 8 + (field head 0 2 0 16 + 7) / 8 * 8 ∧ s.dev.part.hostPorts ≠ 0) ∧
    (∃ (s : State) (k : Fin 64) (area : Fin 3) (f : Nat), s.dev.Rested ∧ s.dev.halted = false ∧ s.dev.tunState k.val = 2 ∧ f = Tbl.getD (s.dev.tun k.val).freed area.val 0 ∧ Tbl.getD (s.dev.tun k.val).reported area.val 0 < f) ∧
    (∃ (s : State) (h : Hier) (v : Fin 32) (x : Vdsp), s.dev.Rested ∧ Tbl.get s.dev.hsw.vdsp (32 * h.val + v.val) = some x ∧ x.kind = 1) ∧
    (∃ (s : State) (h : Hier) (v : Fin 32), 2 ≤ v.val ∧ s.dev.hsw.contained.contains (32 * h.val + v.val) = false ∧ s.dev.part.hostPorts ≠ 0) ∧
    (∃ (s : State) (n : Fin 48), F.HSW_PORT_CFG_ROLE.ofWord (s.dev.portCfg n.val) = 2 ∧ s.dev.fld F.HSW_PORT_STATUS_STATE n.val ≠ 4 ∧ s.dev.part.hostPorts ≠ 0) ∧
    (∃ (s : State) (h : Hier) (v : Fin 32), s.dev.Rested ∧ Tbl.get s.dev.hsw.vdsp (32 * h.val + v.val) = none) ∧
    (∃ (s : State) (n : Fin 48), s.dev.Rested ∧ s.dev.fld F.HSW_PORT_STATUS_STATE n.val = 4) ∧
    (∃ (s : State) (n : Fin 48) (l : HostLink) (h : Nat), (s.dev.hlRole n.val = 1 ∧ s.dev.fld F.HSW_PORT_STATUS_STATE n.val = 3 ∧ (l.state.val = 1 ∨ l.state.val = 2)) ∧ F.HSW_PORT_CFG_HIER.ofWord (s.dev.portCfg n.val) = h ∧ (s.dev.upstreams h).head? = some n.val ∧ s.dev.fld F.HSW_PORT_STATUS_TUNNEL n.val = 0x7F ∧ s.dev.sharers n.val = []) ∧
    (∃ (s : State) (n : Fin 48) (l : HostLink), s.dev.hlRole n.val = 2 ∧ s.dev.fld F.HSW_PORT_STATUS_STATE n.val ≠ 4 ∧ l.state.val ≠ 0 ∧ s.dev.tunState (s.dev.fld F.HSW_PORT_STATUS_TUNNEL n.val) ≠ 2 ∧ s.dev.sharers n.val = []) :=
  ⟨⟨mkOn fun d => d.setFld F.HSW_TUN_STATUS_STATE 2 2, 2, 1, [1#8, 2#8, 3#8], 0, by decide⟩,
    ⟨mkOn fun d => { d with hsw := { d.hsw with tuns := [(2, { Tun.reset with imms := [3 * 2 ^ 30 + 2 ^ 28 + 16] })] } }, 2, 3 * 2 ^ 30 + 2 ^ 28 + 16, 1, 0, [], by decide⟩,
    ⟨tunState0, 2, 2 ^ 30 + 16, 1, 0, 16, [], (tunBytes 0 0 [1#8, 2#8, 3#8]).take 8, by decide +kernel⟩,
    ⟨mkOn fun d => { d.setFld F.HSW_TUN_STATUS_STATE 2 2 with hsw := { d.hsw with tuns := [(2, { Tun.reset with freed := [(1, 16)] })] } }, 2, 1, 16, by decide⟩,
    ⟨mkOn fun d => { d with hsw := { d.hsw with vdsp := [(98, ⟨1, 5, 0⟩)] } }, 3, 2, ⟨1, 5, 0⟩, by decide⟩,
    ⟨mkOn fun d => d, 3, 2, by decide⟩,
    ⟨mkOn fun d => { d with hsw := { d.hsw with port := [(5, F.HSW_PORT_CFG_ROLE.put 0#32 2)] } }, 5, by decide⟩,
    ⟨mkOn fun d => { d with hsw := { d.hsw with contained := [98] } }, 3, 2, by decide⟩,
    ⟨mkOn fun d => d.setFld F.HSW_PORT_STATUS_STATE 5 4, 5, by decide⟩,
    ⟨hswState [(0, 3)] fun d => (d.setFld F.HSW_PORT_STATUS_STATE 0 3).setFld F.HSW_HIER_ACTIVE 3 1, 0, { state := 1, rate := 5#4, width := 16#5, cxl := false, flit := true, reversed := false }, 3, by decide⟩,
    ⟨mkOn fun d => { d with hsw := { d.hsw with port := [(0, F.HSW_PORT_CFG_ROLE.put 0#32 2)] } }, 0, { state := 3, rate := 5#4, width := 16#5, cxl := true, flit := true, reversed := false }, by decide +kernel⟩⟩

theorem test_meets_EngineDispatches :
    (∃ (s : State) (h : Hedge) (cls : Fin 16) (i : Nat) (e : Nat) (cost : Nat) (x : Item), s.dev.Rested ∧ (s.dev.dispatchQ h.val).findIdx? (·.ready) = some i ∧ (s.dev.dispatchQ h.val)[i]? = some x ∧ s.dev.idleEngine h.val = some e ∧ s.dev.fld F.PWR_HR_STATE h.val ≠ 0 ∧ Tbl.get s.dev.pwr.hrCap h.val = none ∧ cost = s.dev.dispatchCost h.val x.slot cls.val ∧ cost ≤ Tbl.getD s.dev.pwr.cap 0 0 ∧ cost ≤ Tbl.getD s.dev.pwr.grant 8 0) ∧
    (∃ (s : State) (h : Hedge) (cls : Fin 16) (i : Nat) (e : Nat) (x : Item), s.dev.Rested ∧ (s.dev.dispatchQ h.val).findIdx? (·.ready) = some i ∧ (s.dev.dispatchQ h.val)[i]? = some x ∧ x.waited = false ∧ s.dev.idleEngine h.val = some e ∧ s.dev.fld F.PWR_HR_STATE h.val ≠ 0 ∧ s.dev.spendDispatch h.val (s.dev.dispatchCost h.val x.slot cls.val) = none) ∧
    (∃ (s : State) (e : Fin 1024) (x : Item) (at_ : Nat), s.dev.Rested ∧ Tbl.get s.dev.eng.running e.val = some (x, at_) ∧ x.src ≠ 1 ∧ Tbl.get s.dev.eng.ending e.val = none ∧ s.dev.pkgState x.slot ≠ 3) ∧
    (∃ (s : State) (e : Fin 1024) (cause : Fin 7) (x : Item) (at_ : Nat), Tbl.get s.dev.eng.running e.val = some (x, at_) ∧ x.src = 2 ∧ x.slot < 6 ∧ cause.val ≠ 0 ∧ s.dev.locks = [] ∧ s.dev.pkgState x.slot ≠ 3 ∧ s.dev.engBit e.val 16 = false ∧ Tbl.getD s.dev.eng.faults e.val [] = [] ∧ 2 ≤ s.dev.fld F.ENG_CFG_RETIRE_AFTER 0 ∧ s.dev.flag F.ENG_FAULT_INFO_VALID 0 = false) ∧
    (∃ (s : State), s.dev.Rested) ∧
    (∃ (s : State) (e : Fin 1024) (x : Item) (at_ : Nat), Tbl.get s.dev.eng.running e.val = some (x, at_) ∧ x.src = 2 ∧ x.slot < 6 ∧ 1024 * max 1 (s.dev.fld F.ENG_CFG_CYCLE_MAX 0) < at_ + s.dev.hrCycles (e.val / 16) ∧ s.dev.locks = [] ∧ s.dev.pkgState x.slot ≠ 3 ∧ s.dev.engBit e.val 16 = false ∧ Tbl.getD s.dev.eng.faults e.val [] = [] ∧ 2 ≤ s.dev.fld F.ENG_CFG_RETIRE_AFTER 0 ∧ s.dev.flag F.ENG_FAULT_INFO_VALID 0 = false) ∧
    (∃ (s : State) (e : Fin 1024), s.dev.Rested ∧ s.dev.eng.resets.contains e.val = true) ∧
    (∃ (s : State) (k : Fin 6) (h : Nat), s.dev.Rested ∧ s.dev.pkgState k.val = 2 ∧ s.dev.itemHr k.val = some h ∧ (s.dev.dispatchQ h).length < 256) :=
  ⟨⟨mkOn fun d => { d.setFld F.PWR_HR_STATE 2 2 with eng := { d.eng with queues := [(2, [⟨1, 2, 0, 0, true, false⟩])] } }, 2, 0, 0, 32, 0, ⟨1, 2, 0, 0, true, false⟩, by decide +kernel⟩,
    ⟨mkOn fun d => { (d.setFld F.PWR_HR_STATE 2 2).setFld F.ENG_PKG_COST_COST 16 9 with eng := { d.eng with queues := [(2, [⟨1, 2, 0, 0, true, false⟩])] } }, 2, 0, 0, 32, ⟨1, 2, 0, 0, true, false⟩, by decide +kernel⟩,
    ⟨mkOn fun d => { d with eng := { d.eng with running := [(33, (⟨1, 2, 0, 0, true, false⟩, 4))] } }, 33, ⟨1, 2, 0, 0, true, false⟩, 4, by decide⟩,
    ⟨mkOn fun d => { d with eng := { d.eng with running := [(33, (⟨1, 2, 0, 0, true, false⟩, 4))] } }, 33, 3, ⟨1, 2, 0, 0, true, false⟩, 4, by decide +kernel⟩,
    ⟨mkOn fun d => d, by decide⟩,
    ⟨mkOn fun d => { d with eng := { d.eng with running := [(33, (⟨1, 2, 0, 0, true, false⟩, 2 ^ 43))] } }, 33, ⟨1, 2, 0, 0, true, false⟩, 2 ^ 43, by decide +kernel⟩,
    ⟨mkOn fun d => { d with eng := { d.eng with resets := [33] } }, 33, by decide⟩,
    ⟨mkOn fun d => (d.setFld F.ENG_PKG_STATUS_STATE 1 2).setReg .ENG_PKG_HR_LO 1 4#32, 1, 2, by decide +kernel⟩⟩

theorem test_meets_HedgerowStates :
    (∃ (s : State) (h : Hedge), s.dev.Rested ∧ s.dev.fld F.PWR_HR_STATE h.val = 3 ∧ Tbl.getD s.dev.pwr.ramp h.val 0 + 8 ≤ s.dev.clk.edges) ∧
    (∃ (s : State) (h : Hedge), s.dev.Rested ∧ s.dev.fld F.PWR_HR_STATE h.val = 0 ∧ Tbl.get s.dev.pwr.wake h.val ≠ none) ∧
    (∃ (s : State) (src : Src) (h : Hedge), s.dev.Rested ∧ s.dev.level src = 0 ∧ s.dev.hrNeeded h.val = false) ∧
    (∃ (s : State) (src : Src) (h : Hedge), s.dev.Rested ∧ s.dev.level src = 0 ∧ s.dev.hrNeeded h.val = true) :=
  ⟨⟨mkOn fun d => { d.setFld F.PWR_HR_STATE 2 3 with pwr := { d.pwr with ramp := [(2, 4)] }, clk := { d.clk with edges := 12 } }, 2, by decide⟩,
    ⟨mkOn fun d => { d with pwr := { d.pwr with wake := [(2, 4)] } }, 2, by decide⟩,
    ⟨mkOn fun d => d.setFld F.PWR_HR_STATE 2 2, .fw, 2, by decide⟩,
    ⟨mkOn fun d => { d.setFld F.MTE_CTX_STATUS_STATE 66 1 with mte := { d.mte with ctxs := [(66, MCtx.reset)] } }, .fw, 2, by decide⟩⟩

theorem test_meets_QueuedLocks :
    (∃ (s : State) (src : Src) (l : Fin 4096), s.dev.Rested ∧ s.dev.mayLock src l.val = true ∧ (s.dev.lockOf l.val).holder = none) ∧
    (∃ (s : State) (src : Src) (l : Fin 4096) (h : Nat), s.dev.Rested ∧ s.dev.mayLock src l.val = true ∧ (s.dev.lockOf l.val).holder = some h ∧ h ≠ lockRequester src ∧ (∀ w ∈ (s.dev.lockOf l.val).waiters, w.1 ≠ lockRequester src) ∧ (s.dev.lockOf l.val).waiters.length < 32) ∧
    (∃ (s : State) (src : Src) (l : Fin 4096) (w : Nat × Nat), s.dev.Rested ∧ s.dev.mayLock src l.val = true ∧ (s.dev.lockOf l.val).holder = some (lockRequester src) ∧ (w ∈ (s.dev.lockOf l.val).waiters ∧ ∀ x ∈ (s.dev.lockOf l.val).waiters, x = w ∨ x.2 < w.2 ∨ (x.2 = w.2 ∧ w.1 < x.1))) ∧
    (∃ (s : State) (src : Src) (l : Fin 4096), s.dev.Rested ∧ s.dev.mayLock src l.val = true ∧ (s.dev.lockOf l.val).holder = some (lockRequester src) ∧ (s.dev.lockOf l.val).waiters = []) ∧
    (∃ (s : State) (src : Src) (l : Fin 4096) (target : BitVec 13), s.dev.mayLock src l.val = true ∧ s.dev.mayForce src target.toNat = true ∧ (s.dev.lockOf l.val).holder = some target.toNat ∧ (s.dev.lockOf l.val).waiters = []) ∧
    (∃ (s : State) (src : Src) (l : Fin 4096), s.dev.Rested ∧ s.dev.mayLock src l.val = true ∧ s.dev.level src ≤ 1) :=
  ⟨⟨mkOn fun d => { d with locks := [(7, { Lock.free with poison := true })] }, .fw, 7, by decide⟩,
    ⟨mkOn fun d => { d with locks := [(7, { Lock.free with holder := some 9 })] }, .fw, 7, 9, by decide⟩,
    ⟨mkOn fun d => { d with locks := [(7, { Lock.free with holder := some 5248, waiters := [(9, 2), (8, 2), (3, 1)] })] }, .fw, 7, (8, 2), by decide⟩,
    ⟨mkOn fun d => { d with locks := [(7, { Lock.free with holder := some 5248 })] }, .fw, 7, by decide⟩,
    ⟨mkOn fun d => { d with locks := [(7, { Lock.free with holder := some 9 })] }, .fw, 7, 9#13, by decide⟩,
    ⟨mkOn fun d => { d with locks := [(7, { Lock.free with poison := true })] }, .fw, 7, by decide⟩⟩

theorem test_meets_MailboxChannels :
    (∃ (s : State) (ch : Chan) (v : Word) (n : Nat), s.dev.hasWindow ch.val = true ∧ s.dev.ccRuns = true ∧ s.dev.mbxState ch.val = 0 ∧ (n = (if v.toNat % 32 = 0 ∨ 16 < v.toNat % 32 then 16 else v.toNat % 32))) ∧
    (∃ (s : State) (ch : Chan), s.dev.hasWindow ch.val = true ∧ s.dev.ccRuns = false ∧ s.dev.mbxState ch.val = 0) ∧
    (∃ (s : State) (ch : Chan), s.dev.Rested ∧ s.dev.hasWindow ch.val = true ∧ s.dev.mbxState ch.val ≠ 0) ∧
    (∃ (s : State) (ch : Chan), s.dev.Rested ∧ s.dev.hasWindow ch.val = true ∧ s.dev.mbxState ch.val = 3) ∧
    (∃ (s : State) (ch : Chan) (rc : Nat) (ws : List Word), s.dev.Rested ∧ s.dev.ccRuns = true ∧ ch.val < 4160 ∧ s.dev.mbxState ch.val = 2 ∧ Tbl.get s.dev.mbx.outcome ch.val = some (rc, ws) ∧ rc < 256 ∧ s.dev.mbxSeq ch.val < 65536) ∧
    (∃ (s : State) (h : Fin 24), s.dev.Rested ∧ s.dev.level (.pf h) ≠ 3) :=
  ⟨⟨mkOn fun d => d, 4099, 0x00070002#32, 2, by decide⟩,
    ⟨mk fun d => { d with pins := { d.pins with sysRst := false, pwrgood := true } }, 4099, by decide⟩,
    ⟨mkOn fun d => d.setFld F.MBX_RESULT_STATE 4099 2, 4099, by decide⟩,
    ⟨mkOn fun d => d.setFld F.MBX_RESULT_STATE 4099 3, 4099, by decide⟩,
    ⟨mkOn fun d => { d.setFld F.MBX_RESULT_STATE 4099 2 with mbx := { d.mbx with outcome := [(4099, (5, [1#32, 2#32]))] } }, 4099, 5, [1#32, 2#32], by decide⟩,
    ⟨mkOn fun d => d, 3, by decide⟩⟩

theorem test_meets_MessagesOfPeers :
    (∃ (s : State) (eid : Byte) (w : Word), s.dev.ccRuns = true ∧ Tbl.get s.dev.mbx.bound 4160 = some eid.toNat ∧ s.dev.mbxState 4160 = 0 ∧ 1 ≤ w.toNat % 32 ∧ w.toNat % 32 ≤ 16) ∧
    (∃ (s : State) (dev : BitVec 17), s.dev.Rested ∧ s.dev.ccRuns = true ∧ s.dev.peerWaits dev.toNat = false) ∧
    (∃ (s : State) (q : Fin 32) (x : StPkt), s.dev.halted = false ∧ s.dev.ccRuns = true ∧ Tbl.getD s.dev.swc.stage (128 + q.val) [] = [x] ∧ x.q.pkt.cells ≤ x.arrived ∧ x.q.pkt.kind = 0x11 ∧ x.q.pkt.isDirect = false ∧ x.q.pkt.subkind = 2 ∧ x.q.pkt.e2e = x.q.pkt.e2eOf ∧ s.dev.fld F.RTE_TERM_TERM 0 < x.q.pkt.ta 32 32 ∧ Tbl.get s.dev.mbx.bound 4192 = some (devOf x.q.pkt.src) ∧ s.dev.mbxState 4192 = 0) ∧
    (∃ (s : State) (q : Fin 32) (x : StPkt) (r : PeerReq), s.dev.Rested ∧ s.dev.halted = false ∧ s.dev.ccRuns = true ∧ Tbl.getD s.dev.swc.stage (128 + q.val) [] = [x] ∧ x.q.pkt.cells ≤ x.arrived ∧ x.q.pkt.kind = 0x11 ∧ x.q.pkt.isDirect = false ∧ x.q.pkt.subkind = 3 ∧ x.q.pkt.e2e = x.q.pkt.e2eOf ∧ Tbl.get s.dev.mbx.peerOut (devOf x.q.pkt.src) = some r ∧ r.answer = none ∧ r.seq = ((bytesWords x.q.pkt.data).getD 0 0#32).toNat % 2 ^ 16) ∧
    (∃ (s : State) (k : BitVec 18) (r : PeerReq), s.dev.Rested ∧ s.dev.ccRuns = true ∧ Tbl.get s.dev.mbx.peerOut k.toNat = some r ∧ r.answer = none ∧ r.at_ + 1562 ≤ s.dev.clk.edges ∧ r.seq < 65536) :=
  ⟨⟨mkOn fun d => { d with mbx := { d.mbx with bound := [(4160, 9)] } }, 9#8, 0x00070002#32, by decide⟩,
    ⟨mkOn fun d => d, 9#17, by decide⟩,
    ⟨mkOn fun d => { d with swc := { d.swc with stage := [(156, [arrived pr0])] }, mbx := { d.mbx with bound := [(4192, 9)] } }, 28, arrived pr0, by decide +kernel⟩,
    ⟨mkOn fun d => { d with swc := { d.swc with stage := [(156, [arrived ps0])] }, mbx := { d.mbx with peerOut := [(9, ⟨2, [], 1, 0, false, [], none⟩)] } }, 28, arrived ps0, ⟨2, [], 1, 0, false, [], none⟩, by decide +kernel⟩,
    ⟨mkOn fun d => { d with mbx := { d.mbx with peerOut := [(9, ⟨2, [], 1, 0, false, [], none⟩)] }, clk := { d.clk with edges := 1562 } }, 9#18, ⟨2, [], 1, 0, false, [], none⟩, by decide⟩⟩

theorem test_meets_GeneralCommands :
    (∃ (s : State) (ch : Chan), s.dev.Rested ∧ s.dev.Asks ch 1 [0, 1, 2]) ∧
    (∃ (s : State) (ch : Chan) (e : Nat) (kind : Nat) (gib : Nat) (own : Nat), s.dev.Rested ∧ s.dev.Asks ch 1 [0, 1, 2] ∧ s.dev.arg ch.val 1 = 3 ∧ s.dev.mbr.sources[s.dev.arg ch.val 2]? = some (e, kind, gib, own)) ∧
    (∃ (s : State) (ch : Chan), s.dev.Rested ∧ s.dev.Asks ch 4 [0]) ∧
    (∃ (s : State) (ch : Chan) (off : Nat) (c : Nat) (r : Reg), s.dev.Rested ∧ s.dev.col.grps = [] ∧ s.dev.col.downs = [] ∧ s.dev.halted = false ∧ s.dev.Asks ch 5 [0] ∧ s.dev.arg ch.val 1 = off ∧ off < 0x2000000 ∧ off % 4 = 0 ∧ counterAt off = none ∧ (off < 0xB00000 ∨ inTables (off - 0xB00000) = false) ∧ (off < 0x400000 ∨ 0x404000 ≤ off) ∧ regAt off = some (r, c) ∧ r.home = .device ∧ r.absent s.dev.part c = false ∧ tickAligned r c ≠ none ∧ Tbl.get s.dev.clk.holdAt 4224 = none) ∧
    (∃ (s : State) (ch : Chan), s.dev.Rested ∧ s.dev.ccRuns = true ∧ s.dev.mbxState ch.val = 1 ∧ s.dev.arg ch.val 0 = 6 ∧ (s.dev.chLevel ch.val = 0 ∨ (4160 ≤ ch.val ∧ ch.val < 4176)) ∧ Tbl.get s.dev.clk.holdAt 4224 = none) ∧
    (∃ (s : State) (ch : Chan), s.dev.Rested ∧ s.dev.Asks ch 7 [0, 1]) ∧
    (∃ (s : State) (ch : Chan), s.dev.Rested ∧ s.dev.ccRuns = true ∧ s.dev.mbxState ch.val = 1 ∧ s.dev.arg ch.val 0 = 7 ∧ (s.dev.chLevel ch.val = 2 ∨ s.dev.chLevel ch.val = 3)) ∧
    (∃ (s : State) (ch : Chan) (i : Nat) (fn : Nat), s.dev.Rested ∧ s.dev.Asks ch 0x10 [0] ∧ s.dev.arg ch.val 1 = 0 ∧ s.dev.arg ch.val 2 = i ∧ i < 65536 ∧ s.dev.arg ch.val 3 = 1 ∧ s.dev.arg ch.val 4 = fn ∧ fn < 4120 ∧ s.dev.fnExists fn = true) ∧
    (∃ (s : State) (ch : Chan) (i : Nat) (fn : Nat), s.dev.Rested ∧ s.dev.Asks ch 0x10 [1] ∧ s.dev.arg ch.val 1 = 3 ∧ s.dev.arg ch.val 2 = i ∧ i < 65536 ∧ s.dev.arg ch.val 3 = 1 ∧ s.dev.arg ch.val 4 = fn ∧ fn < 4096 ∧ s.dev.fnExists fn = true ∧ s.dev.pfOf fn = ch.val ∧ Tbl.get s.dev.own.xctx i = some ch.val ∧ s.dev.pfOf ch.val = ch.val) ∧
    (∃ (s : State) (ch : Chan) (i : Nat), s.dev.Rested ∧ s.dev.Asks ch 0x11 [0] ∧ s.dev.arg ch.val 1 = 2 ∧ s.dev.arg ch.val 2 = i ∧ i < 65536 ∧ s.dev.arg ch.val 3 = 1) :=
  ⟨⟨mkOn (asks [1, 2, 5]), 4099, by decide⟩,
    ⟨mkOn fun d => asks [1, 3, 0] { d with mbr := { d.mbr with sources := [(5, 1, 16, 7)] } }, 4099, 5, 1, 16, 7, by decide⟩,
    ⟨mkOn (asks [4, 0]), 4099, by decide⟩,
    ⟨mkOn (asks [5, Reg.addr .RTE_CFG 0, 7, 5]), 4099, Reg.addr .RTE_CFG 0, 0, .RTE_CFG, by decide⟩,
    ⟨mkOn fun d => { d.setFld F.MBX_RESULT_STATE 4161 1 with mbx := { d.mbx with req := [(4161, [6#32, 600#32])] } }, 4161, by decide⟩,
    ⟨mkOn (asks [7]), 4099, by decide⟩,
    ⟨mkOn (asksVf [7]), 20, by decide⟩,
    ⟨mkOn (asks [0x10, 0, 6, 1, 4099]), 4099, 6, 4099, by decide⟩,
    ⟨mkOn fun d => let d := asksL1 [0x10, 3, 6, 1, 20] d; { d with own := { d.own with xctx := [(6, 4099)] } }, 4099, 6, 20, by decide⟩,
    ⟨mkOn fun d => let d := asks [0x11, 2, 6, 1] d; { d with own := { d.own with mctx := [(6, 4099)] } }, 4099, 6, by decide⟩⟩

theorem test_meets_PortAndRouteCommands :
    (∃ (s : State) (ch : Chan) (p : Nat) (v : Nat), s.dev.col.grps = [] ∧ s.dev.col.downs = [] ∧ s.dev.sec.recovery = false ∧ s.dev.Asks ch 0x20 [0] ∧ s.dev.arg ch.val 1 = p ∧ p < 128 ∧ s.dev.arg ch.val 2 = v ∧ v < 128 ∧ s.dev.phyState p = 0 ∧ s.dev.rd .PHY_CTRL p &&& 0x80000301#32 = 0#32) ∧
    (∃ (s : State) (ch : Chan), s.dev.Rested ∧ s.dev.col.grps = [] ∧ s.dev.col.downs = [] ∧ s.dev.Asks ch 0x20 [1, 2, 3]) ∧
    (∃ (s : State) (ch : Chan), s.dev.Rested ∧ s.dev.Asks ch 0x21 [0, 1]) ∧
    (∃ (s : State) (ch : Chan) (p : Nat), s.dev.Rested ∧ s.dev.Asks ch 0x22 [0] ∧ s.dev.arg ch.val 1 = p ∧ p < 128) ∧
    (∃ (s : State) (ch : Chan) (first : Nat) (n : Nat), s.dev.Rested ∧ s.dev.Asks ch 0x30 [0] ∧ s.dev.arg ch.val 1 = 1 ∧ s.dev.arg ch.val 2 = first ∧ s.dev.arg ch.val 3 = n ∧ n ≤ 12 ∧ first + n ≤ 8192) ∧
    (∃ (s : State) (ch : Chan) (at_ : BitVec 64), s.dev.Rested ∧ s.dev.Asks ch 0x31 [0] ∧ at_ = BitVec.ofNat 64 (s.dev.arg64 ch.val 2)) ∧
    (∃ (s : State) (ch : Chan), s.dev.Rested ∧ s.dev.Asks ch 0x32 [0]) :=
  ⟨⟨mkOn (asks [0x20, 3, 0x6B]), 4099, 3, 0x6B, by decide⟩,
    ⟨mkOn (asksL1 [0x20, 3, 1]), 4099, by decide⟩,
    ⟨mkOn (asksL1 [0x21, 3]), 4099, by decide⟩,
    ⟨mkOn fun d => asks [0x22, 3] { d with link := [(3, { LinkPort.reset with store := [{ seq := 65535, slotA := none, slotB := none, ret := [] }] })] }, 4099, 3, by decide⟩,
    ⟨mkOn (asks [0x30, 1, 9, 2, 0x11, 0x22]), 4099, 9, 2, by decide⟩,
    ⟨mkOn (asks [0x31, 7, 100, 0]), 4099, 100#64, by decide⟩,
    ⟨mkOn fun d => { asks [0x32] (d.setFld F.RTE_TBL_STATUS_PENDING 0 1) with rte := { d.rte with commit := some (9#64, 3) } }, 4099, by decide⟩⟩

theorem test_meets_ConnectionCommands :
    (∃ (s : State) (ch : Chan) (n : Nat) (sq : Nat) (rq : Nat), s.dev.Rested ∧ s.dev.Asks ch 0x40 [0] ∧ s.dev.argBits ch.val 3 0 16 = sq ∧ s.dev.argBits ch.val 3 16 16 = rq ∧ s.dev.fld F.WQ_Q_CFG_PD sq = s.dev.fld F.WQ_Q_CFG_PD rq ∧ s.dev.noevicts < 16384 ∧ s.dev.allocConn.map (·.1) = some n ∧ s.dev.epPort (s.dev.argBits ch.val 2 0 5) = some 130) ∧
    (∃ (s : State) (ch : Chan), s.dev.Rested ∧ s.dev.Asks ch 0x40 [0] ∧ s.dev.fld F.WQ_Q_CFG_PD (s.dev.argBits ch.val 3 0 16) ≠ s.dev.fld F.WQ_Q_CFG_PD (s.dev.argBits ch.val 3 16 16)) ∧
    (∃ (s : State) (ch : Chan) (n : Nat) (c : Conn), s.dev.Asks ch 0x41 [0, 1, 2] ∧ s.dev.argBits ch.val 1 0 24 = n ∧ s.dev.conn n = c ∧ s.dev.chConn ch.val n = true ∧ s.dev.usable n = true ∧ c.state = 2 ∧ ((s.dev.connEntries n fun e => !e.started) = [])) ∧
    (∃ (s : State) (ch : Chan) (n : Nat) (c : Conn), s.dev.Asks ch 0x41 [0, 1, 2] ∧ s.dev.argBits ch.val 1 0 24 = n ∧ s.dev.conn n = c ∧ s.dev.chConn ch.val n = true ∧ s.dev.usable n = true ∧ c.state = 5 ∧ c.localEp ≠ 24 ∧ s.dev.tunOf n = none ∧ c.ops = [] ∧ ((s.dev.connEntries n fun e => !e.started) = [])) ∧
    (∃ (s : State) (ch : Chan) (n : Nat) (c : Conn), s.dev.Asks ch 0x42 [0, 1, 2] ∧ s.dev.argBits ch.val 1 0 24 = n ∧ s.dev.conn n = c ∧ s.dev.chConn ch.val n = true ∧ s.dev.usable n = true ∧ c.state ≠ 0 ∧ c.localEp ≠ 24 ∧ s.dev.tunOf n = none ∧ c.ops = [] ∧ ((s.dev.connEntries n fun e => !e.started) = [])) ∧
    (∃ (s : State) (ch : Chan), s.dev.Rested ∧ s.dev.Asks ch 0x42 [0, 1, 2] ∧ s.dev.chConn ch.val (s.dev.argBits ch.val 1 0 24) = false) ∧
    (∃ (s : State) (ch : Chan) (n : Nat) (k : Nat), s.dev.Rested ∧ s.dev.Asks ch 0x43 [0, 1, 2] ∧ s.dev.argBits ch.val 1 0 24 = n ∧ s.dev.argBits ch.val 2 0 2 = k ∧ s.dev.chConn ch.val n = true ∧ s.dev.usable n = true) ∧
    (∃ (s : State) (ch : Chan) (ep : Nat) (sq : Nat) (rq : Nat), s.dev.Rested ∧ s.dev.Asks ch 0x44 [0, 1, 2] ∧ s.dev.argBits ch.val 1 0 5 = ep ∧ s.dev.argBits ch.val 2 0 16 = sq ∧ s.dev.argBits ch.val 2 16 16 = rq ∧ s.dev.chEndpoint ch.val ep = true ∧ s.dev.chOwns ch.val (s.dev.resOwner 0 sq) = true ∧ s.dev.chOwns ch.val (s.dev.resOwner 0 rq) = true ∧ s.dev.fld F.WQ_Q_CFG_PD sq = s.dev.fld F.WQ_Q_CFG_PD rq) ∧
    (∃ (s : State) (ch : Chan) (l : Listen), s.dev.Rested ∧ s.dev.Asks ch 0x45 [0, 1, 2] ∧ (s.dev.trn.listen.find? (fun x => x.handle == s.dev.arg ch.val 1) = some l)) :=
  ⟨⟨mkOn fun d => asks [0x40, 289, 0, 0x70006] (d.setReg .RTE_EP 0 130#32), 4099, 0, 6, 7, by decide⟩,
    ⟨mkOn fun d => asks [0x40, 289, 0, 0x70006] (d.setFld F.WQ_Q_CFG_PD 6 9), 4099, by decide⟩,
    ⟨mkOn fun d => asks [0x41, 12] { d with trn := { d.trn with conns := [(12, { Conn.reset with state := 2, inc := 3 })] } }, 4099, 12, { Conn.reset with state := 2, inc := 3 }, by decide⟩,
    ⟨mkOn fun d => asks [0x41, 12] { d with trn := { d.trn with conns := [(12, { Conn.reset with state := 5, inc := 255 })] } }, 4099, 12, { Conn.reset with state := 5, inc := 255 }, by decide⟩,
    ⟨mkOn fun d => asks [0x42, 12] { d with trn := { d.trn with conns := [(12, { Conn.reset with state := 1, inc := 3, chan := some 4100 })] } }, 4099, 12, { Conn.reset with state := 1, inc := 3, chan := some 4100 }, by decide⟩,
    ⟨mkOn (asksVf [0x42, 12]), 20, by decide⟩,
    ⟨mkOn (asks [0x43, 12, 3]), 4099, 12, 3, by decide⟩,
    ⟨mkOn (asks [0x44, 3, 0x70006, 9]), 4099, 3, 6, 7, by decide +kernel⟩,
    ⟨mkOn fun d => asks [0x45, 4] { d with trn := { d.trn with listen := [⟨4, 0, 6, 7, 0#64, 4099⟩] } }, 4099, ⟨4, 0, 6, 7, 0#64, 4099⟩, by decide⟩⟩

theorem test_meets_WindowsGroupsAndLocks :
    (∃ (s : State) (ch : Chan) (key : Nat) (i : Nat) (p : ProtVer) (was : ProtVer), s.dev.Rested ∧ s.dev.Asks ch 0x50 [1, 2] ∧ s.dev.arg ch.val 1 = key ∧ s.dev.protAt s.dev.tickNow (key % 2 ^ 17) = p ∧ p.en = true ∧ p.tag = key / 2 ^ 17 ∧ p.window = false ∧ s.dev.chOwns ch.val (s.dev.resOwner 1 p.pd) = true ∧ s.dev.argBits ch.val 2 0 6 &&& p.rights = s.dev.argBits ch.val 2 0 6 ∧ s.dev.arg64 ch.val 3 + s.dev.arg64 ch.val 5 ≤ p.len ∧ s.dev.freeEntry (chanFn ch.val) = some i ∧ s.dev.protAt s.dev.tickNow i = was ∧ s.dev.protSlots < 4096 ∧ Tbl.get s.dev.clk.holdAt 4224 = none) ∧
    (∃ (s : State) (ch : Chan) (i : Nat) (v : ProtVer), s.dev.Rested ∧ s.dev.Asks ch 0x51 [1, 2] ∧ s.dev.arg ch.val 1 % 2 ^ 17 = i ∧ s.dev.protLast i = v ∧ (s.dev.windowBlocks (chanFn ch.val)).contains (i / 1024) = true ∧ v.en = true ∧ v.window = true ∧ v.tag = s.dev.arg ch.val 1 / 2 ^ 17 ∧ s.dev.protSlots < 4096 ∧ Tbl.get s.dev.clk.holdAt 4224 = none) ∧
    (∃ (s : State) (ch : Chan) (g : Nat), s.dev.Rested ∧ s.dev.Asks ch 0x60 [0] ∧ s.dev.formAbsent ch.val = false ∧ s.dev.argBits ch.val 1 0 12 = g ∧ s.dev.colState g = 0 ∧ (s.dev.withForm ch.val g).colChecks g = true ∧ (s.dev.withForm ch.val g).colRoom g (s.dev.colHeld g) = true) ∧
    (∃ (s : State) (ch : Chan) (g : Nat), s.dev.Rested ∧ s.dev.Asks ch 0x60 [0] ∧ s.dev.formAbsent ch.val = false ∧ s.dev.argBits ch.val 1 0 12 = g ∧ (s.dev.withForm ch.val g).colChecks g = false) ∧
    (∃ (s : State) (ch : Chan) (g : Nat), s.dev.Rested ∧ s.dev.Asks ch 0x61 [0] ∧ s.dev.argBits ch.val 1 0 12 = g ∧ s.dev.colState g ≠ 2) ∧
    (∃ (s : State) (ch : Chan) (l : Nat) (k : Lock), s.dev.Rested ∧ s.dev.Asks ch 0x70 [2] ∧ s.dev.argBits ch.val 1 0 12 = l ∧ Tbl.get s.dev.own.lock l = some ch.val ∧ s.dev.lockOf l = k ∧ s.dev.arg ch.val 2 < 2 ^ 30) ∧
    (∃ (s : State) (ch : Chan) (l : Nat) (k : Lock), s.dev.Rested ∧ s.dev.Asks ch 0x70 [2] ∧ s.dev.argBits ch.val 1 0 12 = l ∧ Tbl.get s.dev.own.lock l = some ch.val ∧ s.dev.lockOf l = k ∧ 2 ^ 30 ≤ s.dev.arg ch.val 2) ∧
    (∃ (s : State) (ch : Chan) (l : Nat), s.dev.Rested ∧ s.dev.Asks ch 0x71 [2] ∧ s.dev.argBits ch.val 1 0 12 = l) :=
  ⟨⟨mkOn fun d => let d := asksL1 [0x50, 2, 8, 16, 0, 256, 0] (d.setReg .XLT_RGN_RANGE 4099 (F.XLT_RGN_RANGE_COUNT.put (F.XLT_RGN_RANGE_FIRST.put 0#32 1) 1)); { d with prot := { d.prot with ents := [(2, [prot2])] }, own := { d.own with domain := [(4, 4099)] } }, 4099, 2, 1024, prot2, ProtVer.off, by decide +kernel⟩,
    ⟨mkOn fun d => let d := asksL1 [0x51, 1030] (d.setReg .XLT_RGN_RANGE 4099 (F.XLT_RGN_RANGE_COUNT.put (F.XLT_RGN_RANGE_FIRST.put 0#32 1) 1)); { d with prot := { d.prot with ents := [(1030, [{ prot2 with attr := F.XLT_RGN_ATTR_KIND.put prot2.attr 1 }])] } }, 4099, 1030, { prot2 with attr := F.XLT_RGN_ATTR_KIND.put prot2.attr 1 }, by decide +kernel⟩,
    ⟨mkOn (asks [0x60, 2, 5, 0, 8, 0, 0, 0, 7]), 4099, 2, by decide +kernel⟩,
    ⟨mkOn (asks [0x60, 2, 5, 0, 0, 0, 0, 0, 7]), 4099, 2, by decide +kernel⟩,
    ⟨mkOn fun d => asks [0x61, 2] { d.setFld F.COL_GRP_STATUS_STATE 2 1 with col := { d.col with slots := [(2, 9)] } }, 4099, 2, by decide⟩,
    ⟨mkOn fun d => let d := asksVf [0x70, 5, 0x18000000] d; { d with own := { d.own with lock := [(5, 20)] }, locks := [(5, { Lock.free with holder := some 9 })] }, 20, 5, { Lock.free with holder := some 9 }, by decide⟩,
    ⟨mkOn fun d => let d := asksVf [0x70, 5, 0x40000000] d; { d with own := { d.own with lock := [(5, 20)] }, locks := [(5, { Lock.free with holder := some 20, waiters := [(9, 1)] })] }, 20, 5, { Lock.free with holder := some 20, waiters := [(9, 1)] }, by decide⟩,
    ⟨mkOn fun d => let d := asksVf [0x71, 5] d; { d with own := { d.own with lock := [(5, 20)] } }, 20, 5, by decide⟩⟩

theorem test_meets_PoolCommands :
    (∃ (s : State) (ch : Chan) (h : Nat), s.dev.Rested ∧ s.dev.Asks ch 0x80 [0] ∧ s.dev.part.hasMbr = true ∧ s.dev.argBits ch.val 1 0 5 = h ∧ h < 24 ∧ s.dev.arg ch.val 2 < 2 ^ F.MBR_HIER_WIN_GIB.w) ∧
    (∃ (s : State) (ch : Chan), s.dev.Rested ∧ s.dev.Asks ch 0x80 [0, 1, 2, 3] ∧ s.dev.part.hasMbr = false) ∧
    (∃ (s : State) (ch : Chan) (entry : BitVec 17) (ctx : BitVec 16) (h : Nat) (len : Nat) (v : ProtVer), s.dev.Rested ∧ s.dev.Asks ch 0x81 [0, 1] ∧ s.dev.part.hasMbr = true ∧ s.dev.argBits ch.val 1 0 5 = h ∧ h < 24 ∧ s.dev.chEndpoint ch.val h = true ∧ s.dev.arg64 ch.val 4 = len ∧ 0 < len ∧ len % 2 ^ 30 = 0 ∧ s.dev.flag F.MBR_CFG_EN 0 = true ∧ s.dev.canStage entry.toNat = true ∧ v = s.dev.poolRegion entry.toNat ctx.toNat (s.dev.arg64 ch.val 2) len ∧ Tbl.get s.dev.clk.holdAt 4224 = none) ∧
    (∃ (s : State) (ch : Chan) (i : Nat) (h : Nat), s.dev.Rested ∧ s.dev.Asks ch 0x82 [0, 1] ∧ s.dev.part.hasMbr = true ∧ s.dev.exported (s.dev.arg ch.val 1) = some (i, h) ∧ s.dev.chEndpoint ch.val h = true) ∧
    (∃ (s : State) (ch : Chan) (k : Nat) (i : Nat) (h : Nat) (v : ProtVer), s.dev.Rested ∧ s.dev.ccRuns = true ∧ (s.dev.mbr.unexport.find? (fun x => x.1 == ch.val) = some (ch.val, k)) ∧ s.dev.exported k = some (i, h) ∧ s.dev.protLast i = v ∧ v.en = true ∧ s.dev.protSlots < 4096 ∧ Tbl.get s.dev.clk.holdAt 4224 = none) ∧
    (∃ (s : State) (ch : Chan) (k : Nat) (i : Nat) (h : Nat) (v : ProtVer), s.dev.Rested ∧ s.dev.ccRuns = true ∧ (s.dev.mbr.unexport.find? (fun x => x.1 == ch.val) = some (ch.val, k)) ∧ s.dev.exported k = some (i, h) ∧ s.dev.protAt s.dev.tickNow i = v ∧ v.en = false ∧ (s.dev.protLast i).en = false ∧ v.from_ ≤ s.dev.settled) ∧
    (∃ (s : State) (ch : Chan) (x : Expander) (n : Nat) (v : ProtVer), s.dev.Rested ∧ s.dev.Asks ch 0x83 [0] ∧ s.dev.part.hasMbr = true ∧ s.dev.argBits ch.val 1 0 6 = n ∧ n < s.dev.part.hostPorts ∧ s.dev.hlRole n = 2 ∧ s.dev.fld F.HSW_PORT_STATUS_STATE n = 1 ∧ s.dev.flag F.MBR_CFG_EN 0 = true ∧ s.dev.canStage x.entry.toNat = true ∧ s.dev.worn (15 + n) = false ∧ s.dev.nvs.queue = [] ∧ v = s.dev.poolRegion x.entry.toNat x.ctx.toNat 0 (x.gib.toNat * 2 ^ 30) ∧ Tbl.get s.dev.clk.holdAt 4224 = none) ∧
    (∃ (s : State) (ch : Chan) (p : Nat) (home : Nat) (n : Nat), s.dev.Asks ch 0x84 [0] ∧ s.dev.part.hasMbr = true ∧ s.dev.argBits ch.val 1 0 12 = p ∧ s.dev.argBits ch.val 1 31 1 = 0 ∧ s.dev.argBits ch.val 2 0 22 = home ∧ s.dev.argBits ch.val 3 0 3 = 1 ∧ s.dev.psetConns p = [] ∧ s.dev.noevicts < 16384 ∧ s.dev.allocConn.map (·.1) = some n ∧ s.dev.mbr.pathCmd = []) ∧
    (∃ (s : State) (ch : Chan) (p : Nat), s.dev.Asks ch 0x84 [0] ∧ s.dev.part.hasMbr = true ∧ s.dev.argBits ch.val 1 0 12 = p ∧ s.dev.argBits ch.val 1 31 1 = 1 ∧ s.dev.psetConns p = [] ∧ s.dev.mbr.pathCmd = []) ∧
    (∃ (s : State) (ch : Chan) (x : Nat) (off : Nat), s.dev.Rested ∧ s.dev.Asks ch 0x85 [0] ∧ s.dev.part.hasMbr = true ∧ s.dev.arg ch.val 1 = x ∧ s.dev.arg64 ch.val 6 = off ∧ Tbl.get s.dev.clk.holdAt 4224 = none) ∧
    (∃ (s : State) (ch : Chan) (x : Nat) (e : DirEnt), s.dev.Asks ch 0x86 [0] ∧ s.dev.part.hasMbr = true ∧ s.dev.arg ch.val 1 = x ∧ x < s.dev.dirSize ∧ Tbl.get s.dev.mbr.dir x = some e) :=
  ⟨⟨mkOn (asks [0x80, 0x80000003, 64, 6]), 4099, 3, by decide⟩,
    ⟨mkOn fun d => asks [0x80, 0x80000003, 64, 6] { d with part := { d.part with code := .tn } }, 4099, by decide⟩,
    ⟨mkOn fun d => asks [0x81, 3, 0x40000000, 0, 0x80000000, 0] (d.setFld F.MBR_CFG_EN 0 1), 4099, 9, 6, 3, 0x80000000, State.reset.dev.poolRegion 9 6 0x40000000 0x80000000, by decide +kernel⟩,
    ⟨mkOn fun d => asks [0x82, 9] { d with mbr := { d.mbr with sources := [(9, 0, 2, 3)] } }, 4099, 9, 3, by decide +kernel⟩,
    ⟨mkOn fun d => { d with mbr := { d.mbr with sources := [(9, 0, 2, 3)], unexport := [(4099, 9)] }, prot := { d.prot with ents := [(9, [{ prot2 with parent := 0#32 }])] } }, 4099, 9, 9, 3, { prot2 with parent := 0#32 }, by decide +kernel⟩,
    ⟨mkOn fun d => { d with mbr := { d.mbr with sources := [(9, 0, 2, 3)], unexport := [(4099, 9)] } }, 4099, 9, 9, 3, ProtVer.off, by decide +kernel⟩,
    ⟨mkOn fun d => let d := d.setFld F.MBR_CFG_EN 0 1; let d := d.setFld F.HSW_PORT_STATUS_STATE 4 1; asks [0x83, 4] { d with hsw := { d.hsw with port := [(4, F.HSW_PORT_CFG_ROLE.put 0#32 2)] } }, 4099, ⟨16, 9, 6⟩, 4, State.reset.dev.poolRegion 9 6 0 (16 * 2 ^ 30), by decide +kernel⟩,
    ⟨mkOn (asks [0x84, 1, 289, 1]), 4099, 1, 289, 0, by decide⟩,
    ⟨mkOn (asks [0x84, 0x80000001]), 4099, 1, by decide⟩,
    ⟨mkOn fun d => asks [0x85, 3, 3, 1, 7, 4, 0x40000000, 0] ((d.setFld F.MBR_CFG_EN 0 1).setFld F.MBR_DIR_LO_LOG 0 10), 4099, 3, 0x40000000, by decide⟩,
    ⟨mkOn fun d => asks [0x86, 3] { d.setFld F.MBR_DIR_LO_LOG 0 10 with mbr := { d.mbr with dir := [(3, { dir0 with flags := 7 })] } }, 4099, 3, { dir0 with flags := 7 }, by decide⟩⟩

theorem test_meets_HostSwitchCommands :
    (∃ (s : State) (ch : Chan) (fns : BitVec 9) (n : Nat) (h : Nat) (v : Nat), s.dev.Rested ∧ s.dev.Asks ch 0x90 [0] ∧ s.dev.argBits ch.val 1 0 6 = n ∧ s.dev.argBits ch.val 1 8 5 = h ∧ n < s.dev.part.hostPorts ∧ h < 24 ∧ s.dev.hlRole n = 2 ∧ s.dev.assignedFns + fns.toNat ≤ 4096 ∧ s.dev.freeVdsp h = some v) ∧
    (∃ (s : State) (ch : Chan) (n : Nat) (i : Nat) (h : Nat) (v : Nat), s.dev.Rested ∧ s.dev.Asks ch 0x91 [0] ∧ s.dev.argBits ch.val 1 0 6 = n ∧ s.dev.argBits ch.val 2 0 16 = i ∧ s.dev.argBits ch.val 3 0 5 = h ∧ n < s.dev.part.hostPorts ∧ h < 24 ∧ s.dev.hlRole n = 2 ∧ (s.dev.hsw.vdsp.any (fun x => x.2.a == n && (x.2.kind == 1 || (x.2.kind == 2 && x.2.b == i))) = false) ∧ s.dev.assignedFns < 4096 ∧ s.dev.freeVdsp h = some v) ∧
    (∃ (s : State) (ch : Chan) (n : Nat) (i : Nat) (h : Nat) (v : Nat), s.dev.Rested ∧ s.dev.Asks ch 0x92 [0] ∧ s.dev.argBits ch.val 1 0 6 = n ∧ s.dev.argBits ch.val 2 0 4 = i ∧ s.dev.argBits ch.val 3 0 5 = h ∧ n < s.dev.part.hostPorts ∧ h < 24 ∧ s.dev.hlRole n = 2 ∧ (s.dev.hsw.vdsp.any (fun x => x.2.a == n && (x.2.kind == 1 || (x.2.kind == 3 && x.2.b == i))) = false) ∧ s.dev.assignedFns < 4096 ∧ s.dev.freeVdsp h = some v) ∧
    (∃ (s : State) (ch : Chan) (h : Nat) (k : Nat) (x : Vdsp), s.dev.Asks ch 0x93 [0] ∧ 0 < s.dev.part.hostPorts ∧ s.dev.argBits ch.val 1 0 5 = h ∧ h < 24 ∧ k = 32 * h + s.dev.argBits ch.val 2 0 5 ∧ Tbl.get s.dev.hsw.vdsp k = some x) ∧
    (∃ (s : State) (ch : Chan) (h : Nat) (n : Nat) (rest : Tbl Nat), s.dev.Rested ∧ s.dev.Asks ch 0x94 [0] ∧ 0 < s.dev.part.hostPorts ∧ s.dev.argBits ch.val 1 0 5 = h ∧ h < 24 ∧ s.dev.argBits ch.val 2 0 13 = n ∧ n ≤ 4096 ∧ (rest = s.dev.own.vfHier.filter (fun x => x.2 != h)) ∧ rest.length + n ≤ 4096) ∧
    (∃ (s : State) (ch : Chan), s.dev.Rested ∧ s.dev.Asks ch 0x94 [0] ∧ 0 < s.dev.part.hostPorts ∧ s.dev.argBits ch.val 1 0 5 < 24 ∧ s.dev.argBits ch.val 2 0 13 ≤ 4096) ∧
    (∃ (s : State) (ch : Chan) (h : Nat) (n : Nat) (w : PeerWin), s.dev.Rested ∧ s.dev.Asks ch 0x95 [0] ∧ s.dev.argBits ch.val 1 0 5 = h ∧ h < 24 ∧ s.dev.argBits ch.val 2 8 6 = n ∧ n < s.dev.part.hostPorts ∧ w = { port := n, off := s.dev.arg64 ch.val 3, target := s.dev.arg64 ch.val 5, len := s.dev.arg64 ch.val 7 } ∧ s.dev.hierActive h = true ∧ s.dev.hsw.vdsp = []) ∧
    (∃ (s : State) (ch : Chan) (k : Nat) (n : Nat), s.dev.Rested ∧ s.dev.Asks ch 0x96 [0] ∧ s.dev.part.hasSpill = true ∧ s.dev.argBits ch.val 1 0 6 = k ∧ s.dev.argBits ch.val 2 0 1 = 1 ∧ s.dev.argBits ch.val 2 11 6 = n ∧ n < s.dev.part.hostPorts ∧ s.dev.tunState k = 0 ∧ s.dev.hlRole n = 2 ∧ s.dev.portGiven n = false) ∧
    (∃ (s : State) (ch : Chan) (k : Nat) (h : Nat) (v : Nat) (n : Nat), s.dev.Asks ch 0x96 [0] ∧ s.dev.part.hasSpill = true ∧ s.dev.argBits ch.val 1 0 6 = k ∧ s.dev.argBits ch.val 2 0 1 = 0 ∧ s.dev.argBits ch.val 2 1 5 = h ∧ s.dev.argBits ch.val 2 6 5 = v ∧ h < 24 ∧ 2 ≤ v ∧ s.dev.tunState k = 0 ∧ Tbl.get s.dev.hsw.vdsp (32 * h + v) = none ∧ s.dev.noevicts < 16384 ∧ s.dev.allocConn.map (·.1) = some n) ∧
    (∃ (s : State) (ch : Chan) (k : Nat) (n : Nat), s.dev.Rested ∧ s.dev.Asks ch 0x97 [0] ∧ s.dev.part.hasSpill = true ∧ s.dev.argBits ch.val 1 0 6 = k ∧ s.dev.tunState k = 1 ∧ s.dev.tunDev k = true ∧ s.dev.fld F.HSW_TUN_STATUS_PORT k = n ∧ (s.dev.tun k).chan ≠ some ch.val) ∧
    (∃ (s : State) (ch : Chan) (k : Nat), s.dev.Rested ∧ s.dev.Asks ch 0x97 [0] ∧ s.dev.part.hasSpill = true ∧ s.dev.argBits ch.val 1 0 6 = k ∧ s.dev.tunState k = 0) :=
  ⟨⟨mkOn fun d => asks [0x90, 0x304] { d.setFld F.HSW_PORT_STATUS_TUNNEL 4 0x7F with hsw := { d.hsw with port := [(4, F.HSW_PORT_CFG_ROLE.put 0#32 2)] } }, 4099, 8, 4, 3, 2, by decide +kernel⟩,
    ⟨mkOn fun d => asks [0x91, 4, 7, 3] { d with hsw := { d.hsw with port := [(4, F.HSW_PORT_CFG_ROLE.put 0#32 2)] } }, 4099, 4, 7, 3, 2, by decide +kernel⟩,
    ⟨mkOn fun d => asks [0x92, 4, 7, 3] { d with hsw := { d.hsw with port := [(4, F.HSW_PORT_CFG_ROLE.put 0#32 2)] } }, 4099, 4, 7, 3, 2, by decide +kernel⟩,
    ⟨mkOn fun d => asks [0x93, 3, 2] { d with hsw := { d.hsw with vdsp := [(98, ⟨2, 5, 7⟩)], contained := [98] } }, 4099, 3, 98, ⟨2, 5, 7⟩, by decide⟩,
    ⟨mkOn (asks [0x94, 3, 2]), 4099, 3, 2, [], by decide +kernel⟩,
    ⟨mkOn (asks [0x94, 3, 2]), 4099, by decide⟩,
    ⟨mkOn fun d => asks [0x95, 3, 0x80002501, 0x1000, 0, 0x2000, 0, 0x1000, 0] { d.setFld F.HSW_HIER_ACTIVE 3 1 with hsw := { d.hsw with bar := [(3, 0x2000)] } }, 4099, 3, 37, { port := 37, off := 0x1000, target := 0x2000, len := 0x1000 }, by decide⟩,
    ⟨mkOn fun d => asks [0x96, 2, 0x2001, 289] { d.setFld F.HSW_PORT_STATUS_TUNNEL 4 0x7F with hsw := { d.hsw with port := [(4, F.HSW_PORT_CFG_ROLE.put 0#32 2)] }, pins := { d.pins with perst := [4] } }, 4099, 2, 4, by decide +kernel⟩,
    ⟨mkOn (asks [0x96, 2, 0x146, 289]), 4099, 2, 3, 5, 0, by decide⟩,
    ⟨mkOn fun d => asks [0x97, 2] { (((d.setFld F.HSW_TUN_STATUS_STATE 2 1).setFld F.HSW_TUN_STATUS_SIDE 2 1).setFld F.HSW_TUN_STATUS_PORT 2 5) with hsw := { d.hsw with tuns := [(2, { Tun.reset with chan := some 4100 })] } }, 4099, 2, 5, by decide⟩,
    ⟨mkOn (asks [0x97, 2]), 4099, 2, by decide⟩⟩

theorem test_meets_FirmwareAndPackageCommands :
    (∃ (s : State) (ch : Chan) (img : Image) (first : Nat) (n : Nat), s.dev.Rested ∧ s.dev.Asks ch 2 [0] ∧ s.dev.arg ch.val 1 = first ∧ s.dev.arg ch.val 2 = n ∧ s.dev.bulkOk ch.val first n = true ∧ s.dev.activating = false ∧ s.dev.imageCode img 1 = 0) ∧
    (∃ (s : State) (ch : Chan) (img : Image) (first : Nat) (n : Nat), s.dev.Rested ∧ s.dev.Asks ch 2 [0] ∧ s.dev.arg ch.val 1 = first ∧ s.dev.arg ch.val 2 = n ∧ s.dev.bulkOk ch.val first n = true ∧ s.dev.activating = false ∧ s.dev.imageCode img 1 ≠ 0) ∧
    (∃ (s : State) (ch : Chan) (i : Image) (f : Image), s.dev.Rested ∧ s.dev.halted = false ∧ s.dev.Asks ch 3 [0] ∧ s.dev.activating = false ∧ s.dev.sec.staged = some i ∧ s.dev.sec.fw = some f ∧ i.cpReadMin.toNat ≤ f.cpWrite.toNat ∧ f.cpWrite.toNat ≤ i.cpWrite.toNat ∧ s.dev.worn 1 = false ∧ s.dev.cc.restarts = []) ∧
    (∃ (s : State) (ch : Chan), s.dev.Rested ∧ s.dev.Asks ch 3 [0] ∧ (s.dev.sec.staged = none ∨ s.dev.activating = true)) ∧
    (∃ (s : State) (ch : Chan) (pkg : Pkg) (k : Nat) (first : Nat) (n : Nat), s.dev.Rested ∧ s.dev.Asks ch 0xA0 [0] ∧ (pkg.queues = false ∨ s.dev.part.code ≠ .tn) ∧ s.dev.argBits ch.val 1 0 3 = k ∧ k < 6 ∧ s.dev.pkgState k = 0 ∧ s.dev.arg ch.val 2 = first ∧ s.dev.arg ch.val 3 = n ∧ s.dev.bulkOk ch.val first n = true ∧ s.dev.imageCode pkg.image 2 = 0) ∧
    (∃ (s : State) (ch : Chan) (pkg : Pkg), s.dev.Asks ch 0xA0 [0] ∧ (pkg.queues = false ∨ s.dev.part.code ≠ .tn) ∧ s.dev.argBits ch.val 1 0 3 = 7 ∧ s.dev.bulkOk ch.val (s.dev.arg ch.val 2) (s.dev.arg ch.val 3) = true ∧ (∀ k ∈ List.range 6, s.dev.pkgState k ≠ 0)) ∧
    (∃ (s : State) (ch : Chan) (pkg : Pkg), s.dev.ccRuns = true ∧ s.dev.mbxState ch.val = 1 ∧ s.dev.arg ch.val 0 = 0xA0 ∧ pkg.queues = true ∧ s.dev.part.code = .tn) ∧
    (∃ (s : State) (ch : Chan) (k : Nat) (hs : List Nat), s.dev.Rested ∧ s.dev.Asks ch 0xA1 [0] ∧ s.dev.arg ch.val 1 = k ∧ k < 6 ∧ s.dev.pkgState k = 1 ∧ (hs = (List.range 64).filter fun h => (BitVec.ofNat 64 (s.dev.arg64 ch.val 2)).getLsbD h) ∧ hs ≠ [] ∧ Tbl.getD s.dev.eng.minHr k 0 ≤ hs.length ∧ ((List.range 6).all (fun j => s.dev.fld F.ENG_PKG_STATUS_ENDPOINT j != 25) = true)) ∧
    (∃ (s : State) (ch : Chan) (k : Nat), s.dev.Rested ∧ s.dev.Asks ch 0xA2 [0] ∧ s.dev.arg ch.val 1 = k ∧ k < 6 ∧ s.dev.pkgState k = 2 ∧ Tbl.getD s.dev.eng.queuesOf k [] = [] ∧ s.dev.fld F.ENG_PKG_STATUS_ENDPOINT k < 32) ∧
    (∃ (s : State) (ch : Chan) (k : Nat) (v : Nat), s.dev.Rested ∧ s.dev.Asks ch 0xB0 [0] ∧ s.dev.argBits ch.val 1 0 2 = k ∧ k < 3 ∧ s.dev.argBits ch.val 2 0 7 = v ∧ v ≤ 64 ∧ s.dev.fld F.SEC_SVN_COUNT k < 64) ∧
    (∃ (s : State) (ch : Chan), s.dev.Rested ∧ s.dev.Asks ch 0xB1 [0] ∧ s.dev.bulkOk ch.val (s.dev.arg ch.val 1) 1 = true) ∧
    (∃ (s : State) (ch : Chan), s.dev.Rested ∧ s.dev.Asks ch 0xB2 [0] ∧ s.dev.bulkOk ch.val (s.dev.arg ch.val 1) (s.dev.arg ch.val 2) = true ∧ s.dev.flag F.SEC_STATUS_DEBUG 0 = false) :=
  ⟨⟨mkOn (asks [2, 3, 2]), 4099, image0 1, 3, 2, by decide⟩,
    ⟨mkOn (asks [2, 3, 2]), 4099, { image0 1 with digestOk := false }, 3, 2, by decide⟩,
    ⟨mkOn fun d => asks [3] { d with sec := { d.sec with staged := some (image0 1), fw := some (image0 1) } }, 4099, image0 1, image0 1, by decide⟩,
    ⟨mkOn (asks [3]), 4099, by decide⟩,
    ⟨mkOn (asks [0xA0, 2, 3, 2]), 4099, ⟨image0 2, 7#16, 1#16, 4#8, [10#16], 1, false, (256, 64)⟩, 2, 3, 2, by decide⟩,
    ⟨mkOn fun d => asks [0xA0, 7, 3, 2] ((List.range 6).foldl (fun (d : Dev) k => d.setFld F.ENG_PKG_STATUS_STATE k 1) d), 4099, ⟨image0 2, 7#16, 1#16, 4#8, [10#16], 1, false, (256, 64)⟩, by decide⟩,
    ⟨mkOn fun d => asks [0xA0, 2, 3, 2] { d with part := { d.part with code := .tn } }, 4099, ⟨image0 2, 7#16, 1#16, 4#8, [10#16], 1, true, (0, 0)⟩, by decide⟩,
    ⟨mkOn fun d => asks [0xA1, 2, 0x200, 0] (d.setFld F.ENG_PKG_STATUS_STATE 2 1), 4099, 2, [9], by decide⟩,
    ⟨mkOn fun d => asks [0xA2, 2] ((d.setFld F.ENG_PKG_STATUS_STATE 2 2).setFld F.ENG_PKG_STATUS_ENDPOINT 2 25), 4099, 2, by decide⟩,
    ⟨mkOn fun d => asks [0xB0, 1, 3] { d with sec := { d.sec with fw := some (image0 1) } }, 4099, 1, 3, by decide⟩,
    ⟨mkOn (asks [0xB1, 3]), 4099, by decide⟩,
    ⟨mkOn (asks [0xB2, 3, 2]), 4099, by decide⟩⟩

theorem test_meets_FatalFaults :
    (∃ (s : State) (cause : Fin 10), s.dev.Rested ∧ cause.val ≠ 0 ∧ (cause.val = 7 → s.dev.fld F.TCK_STATUS_CLK_STATE 0 ≠ 4) ∧ (cause.val = 4 → s.dev.part.hasHbm = true) ∧ s.dev.f4 = false) ∧
    (∃ (s : State), s.dev.Rested ∧ s.dev.f4 = true) ∧
    (∃ (s : State), s.dev.Rested ∧ s.dev.pins.pwrgood = true ∧ s.dev.f4 = false) ∧
    (∃ (s : State), s.dev.Rested ∧ s.dev.pins.pwrgood = true ∧ s.dev.f4 = false) ∧
    (∃ (s : State), s.dev.Rested ∧ s.dev.f4 = false) :=
  ⟨⟨mkOn fun d => { d with hsw := { d.hsw with vdsp := [(98, ⟨1, 4, 1⟩)] } }, 7, by decide, by decide, (fun _ => by decide), (fun h => by revert h; decide), by decide⟩,
    ⟨mkOn fun d => d.setFld F.GLB_FAULT_F4 0 1, by decide⟩,
    ⟨mkOn fun d => d, by decide⟩,
    ⟨mkOn fun d => d, by decide⟩,
    ⟨mkOn fun d => d.setFld F.SEC_STATUS_DEBUG 0 1, by decide⟩⟩

theorem test_meets_RestartsAndCoppicePoints :
    (∃ (s : State), s.dev.Rested ∧ s.dev.ccUp = true ∧ s.dev.ccRuns = true ∧ s.dev.clk.tick.toNat % 1024 = 0 ∧ s.dev.cc.capturing = none ∧ s.dev.cc.latest.map (·.tick) ≠ some s.dev.clk.tick) ∧
    (∃ (s : State) (k : Nat) (e : Nat) (at_ : Tick), s.dev.Rested ∧ s.dev.cc.capturing = some (k, at_, e)) ∧
    (∃ (s : State) (recent : List Nat), s.dev.Rested ∧ s.dev.ccUp = true ∧ (recent = s.dev.cc.restarts.filter fun e => decide (s.dev.clk.edges ≤ e + 1562500))) ∧
    (∃ (s : State), s.dev.Rested ∧ s.dev.ccUp = true ∧ s.dev.ccRuns = true ∧ s.dev.cc.restarts = []) ∧
    (∃ (s : State), s.dev.Rested ∧ s.dev.ccUp = true ∧ s.dev.ccRuns = true ∧ s.dev.cc.restarts = []) ∧
    (∃ (s : State), s.dev.Rested ∧ s.dev.ccUp = true ∧ (s.dev.fld F.GLB_CC_STATUS_STATE 0 = 1 ∨ s.dev.fld F.GLB_CC_STATUS_STATE 0 = 3) ∧ s.dev.cc.latest ≠ none ∧ s.dev.mbx.held = []) ∧
    (∃ (s : State) (i : Image) (ch : Nat), s.dev.ccUp = true ∧ s.dev.fld F.GLB_CC_STATUS_STATE 0 = 2 ∧ s.dev.cc.latest ≠ none ∧ s.dev.sec.staged = some i ∧ s.dev.svnOk (some i) 1 = true ∧ s.dev.cc.activating = some ch ∧ s.dev.mbx.held = [] ∧ s.dev.nvs.queue = [] ∧ s.dev.worn 1 = false) ∧
    (∃ (s : State), s.dev.ccUp = true ∧ s.dev.fld F.GLB_CC_STATUS_STATE 0 ≠ 0 ∧ s.dev.cc.latest = none) ∧
    (∃ (s : State) (ch : Nat), s.dev.Rested ∧ s.dev.ccUp = true ∧ s.dev.fld F.GLB_CC_STATUS_STATE 0 = 2 ∧ s.dev.cc.activating = some ch ∧ s.dev.cc.restarts.length < 2) ∧
    (∃ (s : State), s.dev.Rested ∧ s.dev.ccRuns = true) ∧
    (∃ (s : State) (req : SpdmReq), s.dev.Rested ∧ s.dev.ccRuns = true ∧ req ∈ [SpdmReq.getVersion, .getCapabilities, .negotiateAlgorithms, .getDigests, .challenge, .other] ++ (List.finRange 8).map SpdmReq.getCertificate) :=
  ⟨⟨mkOn fun d => { d with clk := { d.clk with tick := 2048#64 } }, by decide⟩,
    ⟨mkOn fun d => { d with cc := { d.cc with capturing := some (1, 2048#64, 9), journal := [⟨3, 4, 5, true⟩, ⟨3, 5, 9, true⟩] } }, 1, 9, 2048#64, by decide⟩,
    ⟨mkOn fun d => { d with cc := { d.cc with restarts := [5, 0] } }, [5, 0], by decide⟩,
    ⟨mkOn fun d => { d with clk := { d.clk with edges := 15625 } }, by decide⟩,
    ⟨mkOn fun d => d.setFld F.SEC_STATUS_DEBUG 0 1, by decide⟩,
    ⟨mkOn fun d => { d.setFld F.GLB_CC_STATUS_STATE 0 1 with cc := { d.cc with slots := [(0, ⟨0, 1024#64, true⟩)] } }, by decide⟩,
    ⟨mkOn fun d => { d.setFld F.GLB_CC_STATUS_STATE 0 2 with cc := { d.cc with slots := [(0, ⟨0, 1024#64, true⟩)], activating := some 4099 }, sec := { d.sec with staged := some (image0 1), stagedBank := 1 } }, image0 1, 4099, by decide⟩,
    ⟨mkOn fun d => d.setFld F.GLB_CC_STATUS_STATE 0 1, by decide⟩,
    ⟨mkOn fun d => { d.setFld F.GLB_CC_STATUS_STATE 0 2 with cc := { d.cc with activating := some 4099 } }, 4099, by decide⟩,
    ⟨mkOn fun d => d, by decide⟩,
    ⟨mkOn fun d => d, .challenge, by decide⟩⟩

theorem test_meets_SnapshotsAndRecorder :
    (∃ (s : State) (sp : Space) (a : Nat) (z : Nat), s.dev.Rested ∧ s.dev.snapHome (s.dev.fld F.PMC_GROUPS_MASK 0) ((s.dev.pmc.num + 1) % s.dev.snapSlots) = (sp, a) ∧ z = a + 64 + 8 * entryCount (s.dev.fld F.PMC_GROUPS_MASK 0) ∧ s.dev.flag F.PMC_CFG_EN 0 = true ∧ (s.dev.clk.tick.toNat % s.dev.snapPeriod = 0 ∨ s.dev.pmc.now = true) ∧ s.dev.pmc.dueAt ≠ some s.dev.clk.edges ∧ s.dev.pmc.cur = none) ∧
    (∃ (s : State) (n : Snap), s.dev.Rested ∧ s.dev.flag F.PMC_CFG_EN 0 = true ∧ (s.dev.clk.tick.toNat % s.dev.snapPeriod = 0 ∨ s.dev.pmc.now = true) ∧ s.dev.pmc.dueAt ≠ some s.dev.clk.edges ∧ s.dev.pmc.cur = some n) ∧
    (∃ (s : State) (src : Src), s.dev.Rested ∧ Tbl.get s.dev.clk.holdAt src.fn = none) ∧
    (∃ (s : State) (n : Snap) (sp : Space) (a : Nat) (z : Nat), s.dev.Rested ∧ s.dev.pmc.cur = some n ∧ s.dev.snapHeld = false ∧ s.dev.snapHome n.groups (n.num % s.dev.snapSlots) = (sp, a) ∧ z = a + 64 + 8 * entryCount n.groups ∧ n.num < 2 ^ 64 ∧ n.entries.length = 8 * entryCount n.groups) ∧
    (∃ (s : State) (res : MemRes) (n : Snap) (sp : Space) (a : Nat) (z : Nat), s.dev.Rested ∧ res ≠ .ok ∧ s.dev.pmc.cur = some n ∧ s.dev.snapHeld = false ∧ s.dev.snapHome n.groups (n.num % s.dev.snapSlots) = (sp, a) ∧ z = a + 64 + 8 * entryCount n.groups) ∧
    (∃ (s : State), s.dev.Rested) ∧
    (∃ (s : State) (e : Nat), s.dev.Rested ∧ s.dev.evr.freezeAt = some e) ∧
    (∃ (s : State), s.dev.Rested) ∧
    (∃ (s : State), s.dev.Rested) :=
  ⟨⟨mkOn fun d => { ((d.setFld F.PMC_CFG_EN 0 1).setFld F.PMC_GROUPS_MASK 0 16).setFld F.PMC_CFG_PERIOD 0 16 with clk := { d.clk with tick := 32#64 }, pmc := { d.pmc with edge := [(4, [(2, 7#48)]), (5, [(1, 9#48)])] } }, .host 0, 4096, 4096 + 64 + 8 * 17, by decide⟩,
    ⟨mkOn fun d => { d.setFld F.PMC_CFG_EN 0 1 with pmc := { d.pmc with cur := some ⟨1, 0#64, 0, 0, 0, false, false, false, 0, []⟩ } }, ⟨1, 0#64, 0, 0, 0, false, false, false, 0, []⟩, by decide⟩,
    ⟨mkOn fun d => d.setFld F.PMC_CFG_EN 0 1, .fw, by decide⟩,
    ⟨mkOn fun d => { d.setFld F.PMC_CFG_MEM 0 1 with pmc := { d.pmc with cur := some ⟨5, 16#64, 3, 8, 1, true, false, true, 16, [(3, [(2, 7#48)])]⟩ } }, ⟨5, 16#64, 3, 8, 1, true, false, true, 16, [(3, [(2, 7#48)])]⟩, .hbm, 4096, 4232, by decide +kernel⟩,
    ⟨mkOn fun d => { d.setFld F.PMC_CFG_MEM 0 1 with pmc := { d.pmc with cur := some ⟨5, 16#64, 3, 8, 1, true, false, true, 16, []⟩ } }, .timeout, ⟨5, 16#64, 3, 8, 1, true, false, true, 16, []⟩, .hbm, 4096, 4232, by decide +kernel⟩,
    ⟨mkOn fun d => d, by decide⟩,
    ⟨mkOn fun d => { d with evr := { d.evr with freezeAt := some 7 }, clk := { d.clk with edges := 3125007 } }, 7, by decide⟩,
    ⟨mkOn fun d => { d with evr := { d.evr with perm := [(3, EvRec.blank)], permUsed := 4 } }, by decide⟩,
    ⟨mkOn fun d => { d with evr := { d.evr with circ := [(3, EvRec.blank)], circNext := 4 } }, by decide⟩⟩

theorem test_meets_ResetsAndPower :
    (∃ (s : State) (boot : BitVec 2), s.dev.pins.pwrgood = false ∧ boot ≠ 2#2) ∧
    (∃ (s : State) (boot : BitVec 2), s.dev.pins.pwrgood = false ∧ boot = 2#2) ∧
    (∃ (s : State), s.dev.Rested ∧ s.dev.pins.pwrgood = true) ∧
    (∃ (s : State), s.dev.inReset = false) ∧
    (∃ (s : State), s.dev.pins.pwrgood = true ∧ s.dev.pins.sysRst = true ∧ s.dev.pins.strapBoot ≠ 2#2) ∧
    (∃ (s : State), s.dev.Rested ∧ s.dev.pins.pwrgood = true ∧ s.dev.nvs.queue = []) ∧
    (∃ (s : State) (i : Nat) (v : Word), s.dev.Rested ∧ s.dev.pins.pwrgood = true ∧ s.dev.nvs.queue = [(i, v)] ∧ s.dev.fld F.NVS_WEAR_COUNT i < 99999) :=
  ⟨⟨mk fun d => { d with pins := { d.pins with pwrgood := false } }, 0, by decide⟩,
    ⟨mk fun d => { d with pins := { d.pins with pwrgood := false } }, 2, by decide⟩,
    ⟨mk id, by decide⟩,
    ⟨mkOn fun d => { d with hsw := { d.hsw with port := [(4, F.HSW_PORT_CFG_ROLE.put 0#32 2)] } }, by decide⟩,
    ⟨mk fun d => { d with pins := { d.pins with sysRst := true } }, by decide⟩,
    ⟨mkOn fun d => d, by decide⟩,
    ⟨mkOn fun d => { d with nvs := { d.nvs with queue := [(63, 9#32)] } }, 63, 9#32, by decide⟩⟩

theorem test_meets_BootAndPersistentWrites :
    (∃ (s : State) (img : Image), s.dev.Rested ∧ s.dev.halted = false ∧ s.dev.sec.recovery = false ∧ s.dev.sec.step = 2 ∧ s.dev.imageCode img 0 = 0) ∧
    (∃ (s : State) (img : Image), s.dev.halted = false ∧ s.dev.sec.recovery = false ∧ s.dev.sec.step = 4 ∧ s.dev.imageCode img 1 = 0) ∧
    (∃ (s : State) (img : Image) (x : BootPkg) (e : Nat), s.dev.halted = false ∧ s.dev.sec.recovery = false ∧ s.dev.sec.step = 4 ∧ s.dev.imageCode img 1 = 0 ∧ s.dev.imageCode x.pkg.image 2 = 0 ∧ (s.dev.fld F.ENG_PKG_STATUS_STATE x.slot.val = 0 ∧ hrsOk x.hrs x.pkg.minHr = true ∧ (x.pkg.queues = false ∨ s.dev.part.code ≠ .tn)) ∧ (s.dev.freeService = some e ∧ ∀ j ∈ List.range 6, s.dev.fld F.ENG_PKG_STATUS_ENDPOINT j ≠ 0 → j ≠ x.slot.val)) ∧
    (∃ (s : State) (img : Image) (k : Nat) (c : Nat), s.dev.Rested ∧ s.dev.halted = false ∧ s.dev.sec.recovery = false ∧ ((s.dev.sec.step = 2 ∧ k = 0) ∨ (s.dev.sec.step = 4 ∧ k = 1)) ∧ s.dev.imageCode img k = c ∧ c ≠ 0) ∧
    (∃ (s : State) (ok : Bool), s.dev.Rested ∧ s.dev.halted = false ∧ s.dev.sec.step = 3 ∧ s.dev.sec.recovery = false ∧ (ok = true ∨ s.dev.part.hasHbm = false)) ∧
    (∃ (s : State), s.dev.halted = false ∧ s.dev.sec.step = 3 ∧ s.dev.part.hasHbm = true) ∧
    (∃ (s : State), s.dev.Rested ∧ s.dev.halted = false ∧ s.dev.sec.recovery = true ∧ s.dev.sec.step = 2) ∧
    (∃ (s : State) (src : Src) (i : Fin 512) (v : Word) (g : Fin 12), s.dev.Rested ∧ s.dev.level src = 0 ∧ s.dev.worn i.val = false ∧ s.dev.nvs.queue.length < 16 ∧ (∀ e ∈ s.dev.nvs.queue.tail, e.1 ≠ i.val) ∧ i.val = 3 + g.val ∧ s.dev.groupOff g.val = true ∧ v &&& nvsMask i.val ≠ s.dev.rd .NVS_WORD i.val) ∧
    (∃ (s : State) (src : Src) (i : Fin 512) (v : Word), s.dev.Rested ∧ s.dev.level src = 0 ∧ s.dev.nvs.queue.length < 16 ∧ (∀ e ∈ s.dev.nvs.queue.tail, e.1 ≠ i.val) ∧ (i.val < 3 ∨ 62 < i.val ∨ s.dev.groupOff (if i.val < 15 then i.val - 3 else (i.val - 15) / 4) = false) ∧ (i.val < 15 ∨ 62 < i.val ∨ F.HSW_PORT_CFG_ROLE.ofWord v ≠ 3)) ∧
    (∃ (s : State) (src : Src) (i : Fin 512), s.dev.Rested ∧ s.dev.level src = 0 ∧ s.dev.worn i.val = false ∧ s.dev.nvs.queue.length = 16 ∧ (∀ e ∈ s.dev.nvs.queue, e.1 ≠ i.val)) ∧
    (∃ (s : State) (src : Src) (i : Fin 512), s.dev.Rested ∧ s.dev.level src = 0 ∧ s.dev.worn i.val = false ∧ (i.val < 3 ∨ 62 < i.val) ∧ (s.dev.nvs.queue.tail.any (fun e => e.1 == i.val) = true)) ∧
    (∃ (s : State) (src : Src), s.dev.Rested ∧ s.dev.level src ≠ 0) ∧
    (∃ (s : State) (i : Nat) (v : Word) (q : List (Nat × Word)), s.dev.Rested ∧ s.dev.nvs.queue = (i, v) :: q) :=
  ⟨⟨mk fun d => { d with sec := { d.sec with step := 2 } }, image0 0, by decide⟩,
    ⟨mk fun d => { d with sec := { d.sec with step := 4 } }, image0 1, by decide⟩,
    ⟨mk fun d => { d with sec := { d.sec with step := 4 } }, image0 1, ⟨2, ⟨image0 2, 7#16, 1#16, 4#8, [10#16], 1, false, (256, 64)⟩, 0x200#64, [], 6#16⟩, 25, by decide⟩,
    ⟨mk fun d => { d with sec := { d.sec with step := 4 } }, { image0 1 with magicOk := false }, 1, 2, by decide⟩,
    ⟨mk fun d => { d.setReg .HSW_PORT_CFG 4 (F.HSW_PORT_CFG_ROLE.put 0#32 2) with sec := { d.sec with step := 3 } }, true, by decide⟩,
    ⟨mk fun d => { d with sec := { d.sec with step := 3 } }, by decide⟩,
    ⟨mk fun d => { d with sec := { d.sec with step := 2, recovery := true, first := some (image0 0) } }, by decide⟩,
    ⟨mkOn id, .fw, 5, 2#32, 2, by decide⟩,
    ⟨mkOn fun d => { d with nvs := { d.nvs with queue := [(100, 8#32)] } }, .fw, 100, 9#32, by decide, by decide, by decide, by decide, by decide, by decide⟩,
    ⟨mkOn fun d => { d with nvs := { d.nvs with queue := (List.range 16).map fun k => (100 + k, 8#32) } }, .fw, 99, by decide, by decide, by decide, by decide, by decide⟩,
    ⟨mkOn fun d => { d with nvs := { d.nvs with queue := (List.range 16).map fun k => (100 + k, 8#32) } }, .fw, 101, by decide, by decide, by decide, by decide, by decide⟩,
    ⟨mkOn fun d => d, .vf 9, by decide⟩,
    ⟨mkOn fun d => { d.setFld F.NVS_WEAR_COUNT 100 99999 with nvs := { d.nvs with queue := [(100, 8#32), (101, 3#32), (100, 9#32)] } }, 100, 8#32, [(101, 3#32), (100, 9#32)], by decide, by decide⟩⟩

theorem test_meets_LockGrantOrder :
    (∃ (s : State) (src : Src) (l : Fin 4096) (w : Nat × Nat), s.dev.mayLock src l.val = true ∧ (s.dev.lockOf l.val).holder = some (lockRequester src) ∧ (w ∈ (s.dev.lockOf l.val).waiters ∧ ∀ x ∈ (s.dev.lockOf l.val).waiters, x.2 < w.2 ∨ (x.2 = w.2 ∧ w.1 ≤ x.1))) ∧
    (∃ (s : State) (src : Src) (l : Fin 4096) (target : BitVec 13) (w : Nat × Nat), s.dev.mayLock src l.val = true ∧ s.dev.mayForce src target.toNat = true ∧ (s.dev.lockOf l.val).holder = some target.toNat ∧ (w ∈ (s.dev.lockOf l.val).waiters ∧ ∀ x ∈ (s.dev.lockOf l.val).waiters, x.2 < w.2 ∨ (x.2 = w.2 ∧ w.1 ≤ x.1))) :=
  ⟨⟨mkOn fun d => { d with locks := [(7, { Lock.free with holder := some 5248, waiters := [(3, 1), (9, 2), (8, 2)] })] }, .fw, 7, (8, 2), by decide⟩,
    ⟨mkOn fun d => { d with locks := [(7, { Lock.free with holder := some 9, waiters := [(3, 1), (12, 2), (8, 2)] })] }, .fw, 7, 9#13, (8, 2), by decide⟩⟩

theorem test_meets_StrapsTakeEffect :
    (∃ (s : State) (role : BitVec 2) (boot : BitVec 2) (w : Word) (ovr : Bool) (root : Bool) (eff : Nat), s.dev.pins.pwrgood = false ∧ s.dev.rd .NVS_WORD 0 = w ∧ ovr = (w.getLsbD 31 && boot != 2#2) ∧ eff = (if ovr then w.toNat % 4 else role.toNat) ∧ root = (if ovr then w.getLsbD 30 else boot == 1#2)) ∧
    (∃ (s : State) (role : BitVec 2) (boot : BitVec 2) (w : Word) (ovr : Bool) (root : Bool) (eff : Nat), s.dev.pins.pwrgood = true ∧ s.dev.pins.sysRst = true ∧ s.dev.pins.strapRole = role ∧ s.dev.pins.strapBoot = boot ∧ s.dev.rd .NVS_WORD 0 = w ∧ ovr = (w.getLsbD 31 && boot != 2#2) ∧ eff = (if ovr then w.toNat % 4 else role.toNat) ∧ root = (if ovr then w.getLsbD 30 else boot == 1#2)) :=
  ⟨⟨mk fun d => { d.setReg .NVS_WORD 0 0xC0000003#32 with pins := { d.pins with pwrgood := false } }, 1, 0, 0xC0000003#32, true, true, 3, by decide⟩,
    ⟨mk fun d => { d with pins := { d.pins with sysRst := true, strapRole := 3, strapBoot := 1 } }, 3, 1, 0#32, false, true, 3, by decide⟩⟩

theorem test_meets_RegisterAccesses :
    (∃ (s : State) (src : Src) (off : BitVec 25) (c : BitVec 25) (r : Reg), s.dev.Rested ∧ s.dev.col.grps = [] ∧ s.dev.col.downs = [] ∧ s.dev.inReset = false ∧ s.dev.level src = 0 ∧ off.toNat % 4 = 0 ∧ RegOff off.toNat ∧ regAt off.toNat = some (r, c.toNat) ∧ r.home = .device ∧ r.absent s.dev.part c.toNat = false ∧ tickAligned r c.toNat ≠ none ∧ Tbl.get s.dev.clk.holdAt src.fn = none) ∧
    (∃ (s : State) (src : Src) (off : BitVec 25) (i : Nat) (c : Nat) (r : Reg), s.dev.Rested ∧ s.dev.col.grps = [] ∧ s.dev.col.downs = [] ∧ s.dev.inReset = false ∧ r.writeLevel ≠ 0 ∧ s.dev.level src ≤ r.writeLevel ∧ (s.dev.level src ≤ 1 ∨ vfView off.toNat = true) ∧ off.toNat % 4 = 0 ∧ RegOff off.toNat ∧ regAt off.toNat = some (r, i) ∧ r.absent s.dev.part i = false ∧ s.dev.copy src.fn r i = some c) ∧
    (∃ (s : State) (src : Src) (off : BitVec 25) (i : Nat) (q : Nat) (r : Reg), s.dev.Rested ∧ s.dev.col.grps = [] ∧ s.dev.col.downs = [] ∧ s.dev.inReset = false ∧ (s.dev.level src ≤ 1 ∨ vfView off.toNat = true) ∧ s.dev.level src ≠ 3 ∧ off.toNat % 4 = 0 ∧ RegOff off.toNat ∧ r ∈ [Reg.WQ_Q_BASE_LO, .WQ_Q_BASE_HI, .WQ_Q_BIND, .WQ_EQ_COAL] ∧ regAt off.toNat = some (r, i) ∧ s.dev.copy src.fn r i = some q) ∧
    (∃ (s : State) (src : Src) (off : BitVec 25) (n : Nat), s.dev.Rested ∧ s.dev.col.grps = [] ∧ s.dev.col.downs = [] ∧ s.dev.inReset = false ∧ s.dev.level src ≠ 3 ∧ (n ≠ 4 ∧ n ≠ 8 ∨ n = 4 ∧ off.toNat % 4 ≠ 0 ∨ n = 8 ∧ off.toNat % 8 ≠ 0)) ∧
    (∃ (s : State) (src : Src) (off : BitVec 25), s.dev.Rested ∧ s.dev.col.grps = [] ∧ s.dev.col.downs = [] ∧ off.toNat % 4 = 0 ∧ (s.dev.level src = 3 ∨ s.dev.inReset = true ∨ counterAt off.toNat ≠ none)) ∧
    (∃ (s : State) (h : Fin 24) (off : Fin 1048576) (bs : List Byte), s.dev.Rested ∧ s.dev.col.grps = [] ∧ s.dev.col.downs = [] ∧ s.dev.halted = false ∧ off.val % 4096 + bs.length ≤ 4096 ∧ s.dev.bulkOwned (4096 + h.val) (off.val / 4096) = false) ∧
    (∃ (s : State) (h : Fin 24) (off : Nat) (q : Nat), s.dev.Rested ∧ s.dev.col.grps = [] ∧ s.dev.col.downs = [] ∧ s.dev.halted = false ∧ q = off / 4096 ∧ q < 65536 ∧ Tbl.get s.dev.own.queue q ≠ some (4096 + h.val)) ∧
    (∃ (s : State) (src : Src) (off : BitVec 25) (g : Nat) (j : Nat), s.dev.Rested ∧ s.dev.level src ≤ 1 ∧ off.toNat % 4 = 0 ∧ counterAt off.toNat = some (g, j, false)) ∧
    (∃ (s : State) (src : Src) (off : BitVec 25) (r : Reg) (i : Nat) (c : Nat), s.dev.Rested ∧ s.dev.level src = 0 ∧ off.toNat % 4 = 0 ∧ RegOff off.toNat ∧ regAt off.toNat = some (r, i) ∧ r.accMask [.rc] ≠ 0#32 ∧ r.absent s.dev.part i = false ∧ s.dev.copy src.fn r i = some c ∧ (shadowPairs.find? (fun p => p.1 = r ∨ p.2 = r) = none)) :=
  ⟨⟨mkOn fun d => d, .fw, BitVec.ofNat 25 (Reg.addr .RTE_CFG 0), 0, .RTE_CFG, by decide⟩,
    ⟨mkOn fun d => d, .vf 9, BitVec.ofNat 25 (Reg.addr .WQ_SEL 0), 0, 9, .WQ_SEL, by decide⟩,
    ⟨mkOn fun d => { (d.setFld F.WQ_SEL_QUEUE 9 6).setFld F.WQ_Q_STATUS_STATE 6 1 with own := { d.own with queue := [(6, 9)] } }, .vf 9, BitVec.ofNat 25 (Reg.addr .WQ_Q_BASE_LO 0), 0, 6, .WQ_Q_BASE_LO, by decide⟩,
    ⟨mkOn fun d => d, .vf 9, 0x200004#25, 8, by decide⟩,
    ⟨mkOn fun d => d, .debug 2, 0x200004#25, by decide⟩,
    ⟨mkOn fun d => d, 3, 4100, [1#8, 2#8], by decide⟩,
    ⟨mkOn fun d => d, 3, 0x6000, 6, by decide⟩,
    ⟨mkOn fun d => { d with cnts := [(3, [(0, 0x500000007#48)])] }, .fw, 0xB00800#25, 3, 0, by decide⟩,
    ⟨mkOn fun d => d.setFld F.TCK_OVR_CNT_COUNT 0 9, .fw, BitVec.ofNat 25 (Reg.addr .TCK_OVR_CNT 0), .TCK_OVR_CNT, 0, 0, by decide⟩⟩

end Sys2Proof.Tests
end

section
/-!
PROOF. The order of grants of the queued locks (R442). `waitsBefore` is a linear order on waiters, and a list has one first element
of it wherever that stands, so arrival counts for nothing.
-/

namespace Sys2Proof.Machine

/-! The order of the waiters. -/

theorem waitsBefore_iff (a b : Nat × Nat) :
    waitsBefore a b = true ↔ b.2 < a.2 ∨ (b.2 = a.2 ∧ a.1 ≤ b.1) := by
  rw [eq_comm (a := b.2)]
  simp only [waitsBefore, Bool.or_eq_true, Bool.and_eq_true, decide_eq_true_eq, beq_iff_eq]

theorem waitsBefore_antisymm {a b : Nat × Nat} (hab : waitsBefore a b = true) (hba : waitsBefore b a = true) :
    a = b := by
  rw [waitsBefore_iff] at hab hba
  apply Prod.ext <;> omega

/-- The one of two waiters that comes first. -/
def firstWaiter (a b : Nat × Nat) : Nat × Nat := if waitsBefore a b then a else b

theorem firstWaiter_eq_or (a b : Nat × Nat) : firstWaiter a b = a ∨ firstWaiter a b = b := by
  unfold firstWaiter
  split
  · exact .inl rfl
  · exact .inr rfl

theorem firstWaiter_of_before {a b : Nat × Nat} (h : waitsBefore a b = true) : firstWaiter a b = a := if_pos h

/-- Two waiters that come before each other are one, so the order in which the two are compared does not matter. -/
theorem firstWaiter_of_after {a b : Nat × Nat} (h : waitsBefore b a = true) : firstWaiter a b = b := by
  by_cases hab : waitsBefore a b = true
  · exact (firstWaiter_of_before hab).trans (waitsBefore_antisymm hab h)
  · exact if_neg hab

/-! Who is next. -/

/-- A waiter of the list that comes before all of it is what comparing them in turn ends with. -/
theorem foldl_firstWaiter_eq {w : Nat × Nat} (ws : List (Nat × Nat)) (b : Nat × Nat) (hw : w ∈ b :: ws)
    (hfirst : ∀ x ∈ b :: ws, waitsBefore w x = true) : ws.foldl firstWaiter b = w := by
  induction ws generalizing b with
  | nil => exact (List.mem_singleton.mp hw).symm
  | cons x xs ih =>
    obtain ⟨hb, hrest⟩ := List.forall_mem_cons.mp hfirst
    obtain ⟨hx, hxs⟩ := List.forall_mem_cons.mp hrest
    rw [List.foldl_cons]
    refine ih (firstWaiter b x) ?_ (List.forall_mem_cons.mpr ⟨?_, hxs⟩)
    · rcases List.mem_cons.mp hw with rfl | hw
      · exact List.mem_cons.mpr (.inl (firstWaiter_of_before hx).symm)
      rcases List.mem_cons.mp hw with rfl | hw
      · exact List.mem_cons.mpr (.inl (firstWaiter_of_after hb).symm)
      · exact List.mem_cons_of_mem _ hw
    · rcases firstWaiter_eq_or b x with h | h
      · rw [h]; exact hb
      · rw [h]; exact hx

theorem Lock.next_of_cons {k : Lock} {b : Nat × Nat} {ws : List (Nat × Nat)} (h : k.waiters = b :: ws) :
    k.next = some (ws.foldl firstWaiter b) := by
  unfold Lock.next
  rw [h, List.foldl_cons]
  refine List.foldl_hom some fun a w => ?_
  exact (apply_ite some (waitsBefore a w = true) a w).symm

theorem Lock.next_eq_some {k : Lock} {w : Nat × Nat} (hw : w ∈ k.waiters)
    (hfirst : ∀ x ∈ k.waiters, waitsBefore w x = true) : k.next = some w := by
  cases h : k.waiters with
  | nil =>
    rw [h] at hw
    exact absurd hw List.not_mem_nil
  | cons b ws =>
    rw [h] at hw hfirst
    rw [Lock.next_of_cons h, foldl_firstWaiter_eq ws b hw hfirst]

/-! What a grant leaves in the lock. -/

@[simp] theorem Lock.result_holder (k : Lock) (q r : Nat) : (k.result q r).holder = k.holder := rfl

@[simp] theorem Lock.pass_holder (k : Lock) : k.pass.holder = k.next.map (·.1) := by
  unfold Lock.pass
  cases k.next <;> rfl

/-! The table of locks. -/

@[simp] theorem Dev.lockOf_putLock_same (d : Dev) (l : Nat) (k : Lock) : (d.putLock l k).lockOf l = k := by
  simp only [Dev.lockOf, Dev.putLock, Tbl.getD_set_same]

@[simp] theorem Dev.lockOf_putLock_ne (d : Dev) {l j : Nat} (k : Lock) (h : j ≠ l) :
    (d.putLock l k).lockOf j = d.lockOf j := by
  simp only [Dev.lockOf, Dev.putLock, Tbl.getD_set_ne _ _ _ _ _ h]

@[simp] theorem Dev.lockOf_raise (d : Dev) (code : Nat) (ctx : List Nat) (l : Nat) :
    (d.raise code ctx).lockOf l = d.lockOf l := by
  simp only [Dev.lockOf, Dev.raise_locks]

/-- `d'` is `d` with lock `l` passed on: the next waiter holds it, and every other lock is as before. -/
def Dev.PassesLock (d : Dev) (l : Nat) (d' : Dev) : Prop :=
  (d'.lockOf l).holder = (d.lockOf l).next.map (·.1) ∧ ∀ j, j ≠ l → d'.lockOf j = d.lockOf j

theorem Dev.passesLock_lockRelease {d : Dev} {l q : Nat} (hq : (d.lockOf l).holder = some q) :
    d.PassesLock l (d.lockRelease l q) := by
  rw [Dev.lockRelease, if_pos hq]
  refine ⟨?_, fun j hj => Dev.lockOf_putLock_ne d _ hj⟩
  rw [Dev.lockOf_putLock_same, Lock.result_holder, Lock.pass_holder]

theorem Dev.passesLock_lockForce {d : Dev} {l target : Nat} (q : Nat) (hq : (d.lockOf l).holder = some target) :
    d.PassesLock l (d.lockForce l q target) := by
  rw [Dev.lockForce, if_pos hq]
  refine ⟨?_, fun j hj => ?_⟩
  · rw [Dev.lockOf_raise, Dev.lockOf_putLock_same, Lock.result_holder, Lock.pass_holder]
  · rw [Dev.lockOf_raise, Dev.lockOf_putLock_ne d _ hj]

/-! The commands. -/

/-- A command whose effect passes a lock on grants it to the waiter that comes before all. What `State.run` adds to the effect, its
stores, leaves the locks alone. -/
theorem State.run_grants {s : State} {f : Dev → Dev} {l : Nat} {w : Nat × Nat} (hf : s.dev.PassesLock l (f s.dev))
    (hw : w ∈ (s.dev.lockOf l).waiters)
    (hfirst : ∀ x ∈ (s.dev.lockOf l).waiters, x.2 < w.2 ∨ (x.2 = w.2 ∧ w.1 ≤ x.1)) :
    ∃ t, s.run f = .next { s with dev := t } ∧ (t.lockOf l).holder = some w.1 ∧
      ∀ j, j ≠ l → t.lockOf j = s.dev.lockOf j := by
  obtain ⟨hholder, hothers⟩ := hf
  have hnext : (s.dev.lockOf l).next = some w :=
    Lock.next_eq_some hw fun x hx => (waitsBefore_iff w x).mpr (hfirst x hx)
  rw [hnext] at hholder
  exact ⟨_, State.run_eq s f, hholder, hothers⟩

theorem exec_release_of_mayLock {s : State} {src : Src} {l : Fin 4096} (h : s.dev.mayLock src l.val = true) :
    exec (.release src l) s = s.run fun d => d.lockRelease l.val (lockRequester src) := by
  change execRelease src l s = _
  simp only [execRelease, State.run_eq, h, if_true]

theorem exec_forceRelease_of_mayForce {s : State} {src : Src} {l : Fin 4096} {target : BitVec 13}
    (hl : s.dev.mayLock src l.val = true) (hf : s.dev.mayForce src target.toNat = true) :
    exec (.forceRelease src l target) s = s.run fun d => d.lockForce l.val (lockRequester src) target.toNat := by
  change execForceRelease src l target s = _
  simp only [execForceRelease, State.run_eq, hl, hf, Bool.and_self, if_true]

/-- Settles O58: RELEASE and FORCE_RELEASE both pass the lock on, and the waiter before whom no other comes is next. -/
theorem lockGrantOrder : Obligations.LockGrantOrder := by
  unfold Obligations.LockGrantOrder
  constructor
  · rintro s src l w hmay hholder ⟨hw, hfirst⟩
    rw [exec_release_of_mayLock hmay]
    exact State.run_grants (Dev.passesLock_lockRelease hholder) hw hfirst
  · rintro s src l target w ⟨hmay, hforce⟩ hholder ⟨hw, hfirst⟩
    rw [exec_forceRelease_of_mayForce hmay hforce]
    exact State.run_grants (Dev.passesLock_lockForce _ hholder) hw hfirst

end Sys2Proof.Machine
end

section
/-!
PROOF. The straps and their override after a reset (R486 to R488). A reset keeps the persistent words, so the override it reads is
the one that was stored; what boot does after it has applied the straps leaves the three registers that show them as they are.
-/

namespace Sys2Proof.Machine

/-! Reading registers after an update. -/

/-- A table cut down to some of its numbers has the same value under each of these. -/
theorem Tbl.get_filter_of_mem {α : Type} (t : Tbl α) {keep : Nat → Bool} {k : Nat} (h : keep k = true) :
    Tbl.get (t.filter fun e => keep e.1) k = Tbl.get t k := by
  induction t with
  | nil => rfl
  | cons e t ih =>
    obtain ⟨j, v⟩ := e
    by_cases hj : j = k
    · subst hj
      simp only [List.filter_cons, h, if_true, Tbl.get]
    · cases hk : keep j <;> simp only [List.filter_cons, hk, if_true, Bool.false_eq_true, if_false, Tbl.get, if_neg hj, ih]

/-- What a register reads depends on the register file and on the part alone. -/
theorem Dev.rd_congr {d t : Dev} {r : Reg} {i : Nat} (hp : t.part = d.part)
    (hr : Tbl.get t.regs (r.cell i).1.code = Tbl.get d.regs (r.cell i).1.code) : t.rd r i = d.rd r i := by
  simp only [Dev.rd, Dev.word, hp, hr]

theorem Dev.fld_congr {d t : Dev} {f : Fld} {i : Nat} (h : t.rd f.reg i = d.rd f.reg i) : t.fld f i = d.fld f i :=
  congrArg f.ofWord h

/-- A field of another register reads as before. -/
theorem Dev.fld_setFld_ne (d : Dev) (f g : Fld) (i j v : Nat) (h : g.reg ≠ f.reg) (hl : f.reg.lent = false)
    (hn : f.reg ≠ .NVS_WORD) : (d.setFld f i v).fld g j = d.fld g j :=
  Dev.fld_congr (Dev.rd_setFld_ne d f g.reg i j v h hl hn)

/-- A flag reads as it was written. -/
theorem Dev.flag_setFld_ite (d : Dev) (f : Fld) (i : Nat) (b : Bool) (hw : f.w = 1) (h : f.lo + f.w ≤ 32) :
    (d.setFld f i (if b then 1 else 0)).flag f i = b := by
  rw [Dev.flag, Dev.fld_setFld_same d f i _ h, hw]
  cases b <;> rfl

/-- Writing a field in several copies leaves another register as it was. -/
theorem Dev.rd_foldl_setFld_ne (f : Fld) (v : Nat → Nat) (r : Reg) (j : Nat) (h : r ≠ f.reg) (hl : f.reg.lent = false)
    (hn : f.reg ≠ .NVS_WORD) (is : List Nat) (d : Dev) :
    (is.foldl (fun (x : Dev) i => x.setFld f i (v i)) d).rd r j = d.rd r j := by
  induction is generalizing d with
  | nil => rfl
  | cons i is ih => rw [List.foldl_cons, ih, Dev.rd_setFld_ne d f r i j (v i) h hl hn]

theorem Dev.part_foldl_setFld (f : Fld) (v : Nat → Nat) (is : List Nat) (d : Dev) :
    (is.foldl (fun (x : Dev) i => x.setFld f i (v i)) d).part = d.part := by
  induction is generalizing d with
  | nil => rfl
  | cons i is ih => rw [List.foldl_cons, ih, Dev.setFld_part]

/-- A command whose effect keeps the part answers a state that reads every register as its effect left it. -/
theorem State.run_reads (s : State) (f : Dev → Dev) (hp : (f s.dev).part = s.dev.part) :
    ∃ t, s.run f = .next { s with dev := t } ∧ ∀ r i, t.rd r i = (f s.dev).rd r i :=
  ⟨_, State.run_eq s f, fun _ _ => Dev.rd_congr hp.symm rfl⟩

/-! What a reset keeps. -/

@[simp] theorem Dev.nvsStatus_part (d : Dev) : d.nvsStatus.part = d.part := rfl

theorem Dev.rd_nvsStatus_ne (d : Dev) (r : Reg) (i : Nat) (h : r ≠ .NVS_STATUS) : d.nvsStatus.rd r i = d.rd r i := by
  unfold Dev.nvsStatus
  rw [Dev.rd_setFld_ne _ F.NVS_STATUS_BUSY r 0 i _ h (by decide) (by decide),
    Dev.rd_setFld_ne _ F.NVS_STATUS_QUEUE r 0 i _ h (by decide) (by decide)]

@[simp] theorem Dev.clear_part (d : Dev) (warm : Bool) : (d.clear warm).part = d.part := by
  unfold Dev.clear
  rw [Dev.part_foldl_setFld]
  rfl

/-- The persistent words outlive a reset (Table 18-1). -/
theorem Dev.rd_clear_nvsWord (d : Dev) (warm : Bool) (i : Nat) : (d.clear warm).rd .NVS_WORD i = d.rd .NVS_WORD i := by
  unfold Dev.clear
  rw [Dev.rd_foldl_setFld_ne F.LNK_EPOCH_OWN _ .NVS_WORD i (by decide) (by decide) (by decide),
    Dev.rd_setFld_ne _ F.EVR_STATUS_CIRC_COUNT .NVS_WORD 0 i _ (by decide) (by decide) (by decide),
    Dev.rd_setFld_ne _ F.EVR_STATUS_PERM_USED .NVS_WORD 0 i _ (by decide) (by decide) (by decide),
    Dev.rd_nvsStatus_ne _ .NVS_WORD i (by decide),
    Dev.rd_setFld_ne _ F.SEC_STATUS_CUST_KEY .NVS_WORD 0 i _ (by decide) (by decide) (by decide)]
  refine Dev.rd_congr rfl ?_
  exact Tbl.get_filter_of_mem d.regs (keep := fun c => keptRegs.any fun k => k.code == c) rfl

/-! The effective straps. -/

/-- The registers show the raw straps, the effective role `eff` with the clock root it gives, and whether the override applied. -/
def Dev.ShowsStraps (t : Dev) (role boot : BitVec 2) (eff : Nat) (root ovr : Bool) : Prop :=
  t.fld F.RTE_ROLE_ROLE 0 = eff ∧
    t.flag F.TCK_PARENT_ROOT 0 = (decide (eff = 3) && root) ∧
    t.fld F.SEC_STATUS_STRAP_ROLE 0 = role.toNat ∧ t.fld F.SEC_STATUS_STRAP_BOOT 0 = boot.toNat ∧
    t.flag F.SEC_STATUS_OVR 0 = ovr

/-- Whether the straps are shown is read from three registers. -/
theorem Dev.ShowsStraps.congr {d t : Dev} {role boot : BitVec 2} {eff : Nat} {root ovr : Bool}
    (h : d.ShowsStraps role boot eff root ovr)
    (hr : ∀ r ∈ [Reg.RTE_ROLE, .TCK_PARENT, .SEC_STATUS], t.rd r 0 = d.rd r 0) : t.ShowsStraps role boot eff root ovr := by
  have fld_eq : ∀ f : Fld, f.reg ∈ [Reg.RTE_ROLE, .TCK_PARENT, .SEC_STATUS] → t.fld f 0 = d.fld f 0 :=
    fun f hf => Dev.fld_congr (hr f.reg hf)
  unfold Dev.ShowsStraps Dev.flag at h ⊢
  rwa [fld_eq F.RTE_ROLE_ROLE (by decide), fld_eq F.TCK_PARENT_ROOT (by decide),
    fld_eq F.SEC_STATUS_STRAP_ROLE (by decide), fld_eq F.SEC_STATUS_STRAP_BOOT (by decide),
    fld_eq F.SEC_STATUS_OVR (by decide)]

/-- The straps or the override in force, of a device whose persistent word 0 is `w` (R487). -/
theorem Dev.effective_eq {d : Dev} {w : Word} {ovr root : Bool} {eff : Nat} (hw : d.rd .NVS_WORD 0 = w)
    (hovr : ovr = (w.getLsbD 31 && d.pins.strapBoot != 2#2))
    (heff : eff = if ovr then w.toNat % 4 else d.pins.strapRole.toNat)
    (hroot : root = if ovr then w.getLsbD 30 else d.pins.strapBoot == 1#2) : d.effective = (eff, root, ovr) := by
  have hboot : ∀ b : BitVec 2, (b.toNat != 2) = (b != 2#2) ∧ (b.toNat == 1) = (b == 1#2) := by decide
  obtain ⟨hne, heq⟩ := hboot d.pins.strapBoot
  unfold Dev.effective
  simp only [hw, hne, heq, ← hovr]
  cases ovr <;> simp only [heff, hroot, if_true, Bool.false_eq_true, if_false]

theorem Dev.effective_role_lt (d : Dev) : d.effective.1 < 4 := by
  unfold Dev.effective
  dsimp only
  split
  · exact Nat.mod_lt _ (by decide)
  · exact d.pins.strapRole.isLt

@[simp] theorem Dev.applyStraps_part (d : Dev) : d.applyStraps.part = d.part := rfl

theorem Dev.applyStraps_shows {d : Dev} {eff : Nat} {root ovr : Bool} (he : d.effective = (eff, root, ovr)) :
    d.applyStraps.ShowsStraps d.pins.strapRole d.pins.strapBoot eff root ovr := by
  have hlt : eff < 4 := by simpa only [he] using d.effective_role_lt
  have hrole : eff % 2 ^ F.RTE_ROLE_ROLE.w = eff := Nat.mod_eq_of_lt hlt
  have hsr : d.pins.strapRole.toNat % 2 ^ F.SEC_STATUS_STRAP_ROLE.w = _ := Nat.mod_eq_of_lt d.pins.strapRole.isLt
  have hsb : d.pins.strapBoot.toNat % 2 ^ F.SEC_STATUS_STRAP_BOOT.w = _ := Nat.mod_eq_of_lt d.pins.strapBoot.isLt
  unfold Dev.applyStraps
  rw [he]
  dsimp only
  refine ⟨?_, ?_, ?_, ?_, ?_⟩
  · simp (disch := decide) only [Dev.fld_setFld_ne, Dev.fld_setFld_same, hrole]
  · rw [Dev.flag_setFld_ite _ _ _ _ rfl (by decide)]
    rfl
  · simp (disch := decide) only [Dev.fld_setFld_ne, Dev.fld_setFld_apart, Dev.fld_setFld_same, hsr]
  · simp (disch := decide) only [Dev.fld_setFld_ne, Dev.fld_setFld_apart, Dev.fld_setFld_same, hsb]
  · simp (disch := decide) only [Dev.flag, Dev.fld_setFld_ne]
    exact Dev.flag_setFld_ite _ _ _ _ rfl (by decide)

/-! The begin of boot. -/

@[simp] theorem Dev.newNonce_part (d : Dev) : d.newNonce.part = d.part := rfl

theorem Dev.rd_newNonce_ne (d : Dev) (r : Reg) (i : Nat) (hlo : r ≠ .SEC_NONCE_LO) (hhi : r ≠ .SEC_NONCE_HI) :
    d.newNonce.rd r i = d.rd r i := by
  unfold Dev.newNonce
  dsimp only
  rw [Dev.rd_setReg_ne _ .SEC_NONCE_HI r 0 i _ hhi (by decide) (by decide),
    Dev.rd_setReg_ne _ .SEC_NONCE_LO r 0 i _ hlo (by decide) (by decide)]
  exact Dev.rd_congr rfl rfl

@[simp] theorem Dev.enterRecovery_part (d : Dev) : d.enterRecovery.part = d.part := by
  unfold Dev.enterRecovery
  rw [Dev.raise_part]

theorem Dev.rd_enterRecovery (d : Dev) (r : Reg) (i : Nat) (h : r.quiet = true) : d.enterRecovery.rd r i = d.rd r i := by
  unfold Dev.enterRecovery
  rw [Dev.raise_rd _ _ _ _ _ h]
  exact Dev.rd_congr rfl rfl

@[simp] theorem Dev.startBoot_part (d : Dev) : d.startBoot.part = d.part := by
  unfold Dev.startBoot
  dsimp only
  split
  · rw [Dev.enterRecovery_part, Dev.newNonce_part, Dev.applyStraps_part]
  · rw [Dev.newNonce_part, Dev.applyStraps_part]

/-- Beyond applying the straps, the begin of boot changes the debug nonce and what an event changes. -/
theorem Dev.rd_startBoot (d : Dev) (r : Reg) (i : Nat) (h : r.quiet = true) (hlo : r ≠ .SEC_NONCE_LO)
    (hhi : r ≠ .SEC_NONCE_HI) : d.startBoot.rd r i = d.applyStraps.rd r i := by
  rw [← Dev.rd_newNonce_ne d.applyStraps r i hlo hhi]
  unfold Dev.startBoot
  dsimp only
  split
  · rw [Dev.rd_enterRecovery _ r i h]
    exact Dev.rd_congr rfl rfl
  · exact Dev.rd_congr rfl rfl

theorem Dev.startBoot_shows {d : Dev} {eff : Nat} {root ovr : Bool} (he : d.effective = (eff, root, ovr)) :
    d.startBoot.ShowsStraps d.pins.strapRole d.pins.strapBoot eff root ovr := by
  have hsafe : ∀ r ∈ [Reg.RTE_ROLE, .TCK_PARENT, .SEC_STATUS],
      r.quiet = true ∧ r ≠ .SEC_NONCE_LO ∧ r ≠ .SEC_NONCE_HI := by decide
  refine (Dev.applyStraps_shows he).congr fun r hr => ?_
  obtain ⟨hq, hlo, hhi⟩ := hsafe r hr
  exact Dev.rd_startBoot d r 0 hq hlo hhi

/-! The commands. -/

/-- The device with newly sampled straps. -/
def Dev.withStraps (d : Dev) (role boot : BitVec 2) : Dev :=
  { d with pins := { d.pins with strapRole := role, strapBoot := boot } }

@[simp] theorem Dev.withStraps_part (d : Dev) (role boot : BitVec 2) : (d.withStraps role boot).part = d.part := rfl

@[simp] theorem Dev.withStraps_rd (d : Dev) (role boot : BitVec 2) (r : Reg) (i : Nat) :
    (d.withStraps role boot).rd r i = d.rd r i := Dev.rd_congr rfl rfl

/-- The device with `SYS_RST_N` high. -/
def Dev.released (d : Dev) : Dev := { d with pins := { d.pins with sysRst := false } }

@[simp] theorem Dev.released_part (d : Dev) : d.released.part = d.part := rfl

@[simp] theorem Dev.released_rd (d : Dev) (r : Reg) (i : Nat) : d.released.rd r i = d.rd r i := Dev.rd_congr rfl rfl

/-- A command that keeps the part and begins boot shows the straps of the device it boots. -/
theorem State.run_startBoot_shows {s : State} {g : Dev → Dev} {eff : Nat} {root ovr : Bool}
    (hp : (g s.dev).part = s.dev.part) (he : (g s.dev).effective = (eff, root, ovr)) :
    ∃ t, (s.run fun d => (g d).startBoot) = .next { s with dev := t } ∧
      t.ShowsStraps (g s.dev).pins.strapRole (g s.dev).pins.strapBoot eff root ovr := by
  obtain ⟨t, ht, hrd⟩ := State.run_reads s (fun d => (g d).startBoot) ((Dev.startBoot_part _).trans hp)
  exact ⟨t, ht, (Dev.startBoot_shows he).congr fun r _ => hrd r 0⟩

theorem exec_coldReset_of_off {s : State} {role boot : BitVec 2} (h : s.dev.pins.pwrgood = false) :
    exec (.coldReset role boot) s = s.run fun d => ((d.clear false).withStraps role boot).startBoot := by
  change execColdReset role boot s = _
  simp only [execColdReset, State.run_eq, h, Bool.false_eq_true, if_false, Dev.withStraps]

theorem exec_warmResetRelease_of_reset {s : State} (hp : s.dev.pins.pwrgood = true) (hr : s.dev.pins.sysRst = true) :
    exec .warmResetRelease s = s.run fun d => d.released.startBoot := by
  change execWarmResetRelease s = _
  simp only [execWarmResetRelease, State.run_eq, hp, hr, Bool.and_self, if_true, Dev.released]

/-- Settles O59: both commands begin boot, a cold reset with the straps that it samples, a release with those sampled before. -/
theorem strapsTakeEffect : Obligations.StrapsTakeEffect := by
  unfold Obligations.StrapsTakeEffect
  constructor
  · intro s role boot w ovr root eff hoff hw hovr heff hroot
    have hword : ((s.dev.clear false).withStraps role boot).rd .NVS_WORD 0 = w := by
      rw [Dev.withStraps_rd, Dev.rd_clear_nvsWord, hw]
    rw [exec_coldReset_of_off hoff]
    exact State.run_startBoot_shows (by rw [Dev.withStraps_part, Dev.clear_part]) (Dev.effective_eq hword hovr heff hroot)
  · rintro s role boot w ovr root eff ⟨hpwr, hrst⟩ ⟨rfl, rfl⟩ hw hovr heff hroot
    have hword : s.dev.released.rd .NVS_WORD 0 = w := by rw [Dev.released_rd, hw]
    rw [exec_warmResetRelease_of_reset hpwr hrst]
    exact State.run_startBoot_shows (Dev.released_part s.dev) (Dev.effective_eq hword hovr heff hroot)

end Sys2Proof.Machine
end
